-- ==== Sys2Proof/Word.lean ====
section
/-! DEFINITION. The machine's words: bytes of a link, the 32-bit part time, and the keyed table in which
every numbered collection of the part is kept. -/

namespace Sys2Proof

/-- One byte on a link. -/
abbrev Byte := BitVec 8

/-- Part time: a count of milliseconds held in 32 bits (R163). -/
abbrev Time := BitVec 32

/-- A collection keyed by plain numbers (segments, carriers, cranes, links), as rows with strictly rising keys. -/
structure Table (α : Type) where
  rows : List (Nat × α)
  deriving DecidableEq, Repr

end Sys2Proof
end

