-- ==== Sys2Proof/Config.lean ====
section
/-! DEFINITION. What the manual fixes as a constant of the part, and the free values: constants without a body,
for what the manual leaves open. -/

namespace Sys2Proof.Config

/-- Carrier ids run from 0 to 95 (00_scope, Identifiers). -/
def carrierCount : Nat := 96

/-- The largest number of grid cells (R1). -/
def maxCells : Nat := 512

/-- The capacity of the pending route list (R34). -/
def waitingCapacity : Nat := 32

/-- The capacity of each notification queue (R156). -/
def notificationCapacity : Nat := 64

/-- The capacity of a reply queue, of a dispatch link (R147) and of a crane link (R108). -/
def replyCapacity : Nat := 16

/-- How long the write of the settings image takes, in ms (R169). -/
def saveTime : Nat := 1500

/-- The interval in which UNKNOWN_CARRIER is posted at most once for an id, in ms (R54). -/
def unknownInterval : Nat := 10000

/-- FREE VALUE. Byte `i` of a value that a reply or notification detail names and that is absent, for a value of
`width` bytes: the manual says that the value is absent and not how its place is filled (log entry 9). -/
opaque absentByte (width i : Nat) : Byte

/-- FREE VALUE. The byte that names the request field in place `n` of its layout, in the detail of a BAD_VALUE
refusal: the manual says that the field is named and not by which code (log entry 9). -/
opaque fieldByte (n : Nat) : Byte

/-- FREE VALUE. The outcome of reading back the settings image of the save that was accepted at a part time: none when
it matches, otherwise the first item that differs. The manual gives no cause for either outcome (log entry 29). -/
opaque readBack (accepted : Time) : Option (Fin 8)

end Sys2Proof.Config
end

