-- ==== Sys2Proof/Syntax.lean ====
section
/-! DEFINITION. The commands of the part, one constructor per row of spec/opcode_table.json. A frame's operands are
the raw values of its payload fields (R174, R175): the owning rule, not the type, judges whether one is in range. -/

namespace Sys2Proof

/-- The two dispatch links (R150). -/
inductive DLink where
  | a
  | b
  deriving DecidableEq, Repr

/-- The fourteen links of the part (00_scope). -/
inductive Link where
  | dispatch (d : DLink)
  | radio (r : Fin 4)
  | crane (k : Fin 8)
  deriving DecidableEq, Repr

/-- The fields of SET_SEGMENT (R8, R175). -/
structure SegmentArgs where
  first : Nat
  count : Nat
  usable : Nat
  kind : Nat
  length : Nat
  limit : Nat
  crossNext : Nat
  closure : Nat
  deriving DecidableEq, Repr

/-- The fields of ROUTE_REQUEST (R24, R175); the count is the length of `ids`. -/
structure RouteArgs where
  carrier : Nat
  stop : Nat
  queueFlag : Nat
  expiry : Nat
  tag : Nat
  ids : List Nat
  deriving DecidableEq, Repr

/-- A rectangle of the grid as SEGMENT_BLOCK and SEGMENT_UNBLOCK carry it (R38). -/
structure Rect where
  lane : Nat
  lanes : Nat
  bay : Nat
  bays : Nat
  deriving DecidableEq, Repr

/-- The fields of SET_CLASS (R50, R175). -/
structure ClassArgs where
  cls : Nat
  maxSpeed : Nat
  decel : Nat
  margin : Nat
  latency : Nat
  period : Nat
  window : Nat
  grace : Nat
  early : Nat
  overTol : Nat
  stopTol : Nat
  deriving DecidableEq, Repr

/-- The geometry bytes of SET_CRANE: present, the slot count, the four slot lane bytes and the legs (R94, R175). -/
structure GeometryArgs where
  present : Nat
  slotCount : Nat
  lane0 : Nat
  lane1 : Nat
  lane2 : Nat
  lane3 : Nat
  waterside : Nat
  landside : Nat
  deriving DecidableEq, Repr

/-- The operating fields of SET_CRANE (R94, R175). -/
structure OperatingArgs where
  enable : Nat
  clearance : Nat
  ceiling : Nat
  filter : Nat
  window : Nat
  fault : Nat
  crossing : Nat
  timeout : Nat
  deriving DecidableEq, Repr

/-- What SET_RADIO carries for one link (R118). -/
structure RadioSetting where
  configured : Nat
  timeout : Nat
  deriving DecidableEq, Repr

/-- The fields of SET_RADIO (R118, R175). -/
structure RadioArgs where
  aging : Nat
  link0 : RadioSetting
  link1 : RadioSetting
  link2 : RadioSetting
  link3 : RadioSetting
  deriving DecidableEq, Repr

/-- The fields of BROADCAST_CONFIG (R135, R175). -/
structure BroadcastArgs where
  lane : Nat
  lanes : Nat
  bay : Nat
  bays : Nat
  mode : Nat
  period : Nat
  notice : Nat
  deriving DecidableEq, Repr

/-- The fields of SET_COPY_RULE (R160, R175). -/
structure CopyArgs where
  rule : Nat
  enable : Nat
  frameKind : Nat
  value : Nat
  mask : Nat
  flag : Nat
  target : Nat
  deriving DecidableEq, Repr

/-- The fields of POSITION_REPORT as the carrier sent them (R174). -/
structure ReportArgs where
  carrier : Nat
  seq : Nat
  front : Nat
  frontRem : Nat
  rear : Nat
  speed : Nat
  flags : Nat
  deriving DecidableEq, Repr

/-- The fields of CARRIER_EVENT (R124, R175). -/
structure EventArgs where
  carrier : Nat
  seq : Nat
  code : Nat
  bytes : List Byte
  deriving DecidableEq, Repr

/-- The fields of CRANE_REPORT (R174). -/
structure CraneReportArgs where
  seq : Nat
  bay : Nat
  trolley : Nat
  height : Nat
  flags : Nat
  deriving DecidableEq, Repr

/-- The commands: requests with the dispatch link they arrive on, frames with the radio or crane link they arrive
on, and the part's own events (timers, deadlines, completed transmissions). -/
inductive Instr where
  /-- RESET (R168): power-up or the reset line. -/
  | reset
  /-- BAD_FRAME (R171): the bytes that arrive on a link whose frame is bad. -/
  | badFrame (link : Link) (bytes : List Byte)
  /-- DISPATCH_FRAME (R147): a valid frame on a dispatch link, by its kind and payload. -/
  | dispatchFrame (link : DLink) (kind : Nat) (payload : List Byte)
  /-- DISPATCH_LINK_TIMEOUT (R144). -/
  | dispatchLinkTimeout (link : DLink)
  /-- DISPATCH_TRANSMIT_COMPLETE (R149). -/
  | dispatchTransmitComplete (link : DLink)
  /-- HEARTBEAT (R151). -/
  | heartbeat (link : DLink)
  /-- SET_DISPATCH (R145). -/
  | setDispatch (link : DLink) (timeoutA timeoutB : Nat)
  /-- QUERY_LINK (R154). -/
  | queryLink (link : DLink) (selector : Nat)
  /-- SET_GRID (R6). -/
  | setGrid (link : DLink) (lanes bays : Nat)
  /-- SET_SEGMENT (R8). -/
  | setSegment (link : DLink) (args : SegmentArgs)
  /-- QUERY_GRID (R11). -/
  | queryGrid (link : DLink)
  /-- ROUTE_REQUEST (R24). -/
  | routeRequest (link : DLink) (args : RouteArgs)
  /-- ROUTE_EXTEND (R27). -/
  | routeExtend (link : DLink) (carrier stop : Nat) (ids : List Nat)
  /-- ROUTE_CANCEL (R28). -/
  | routeCancel (link : DLink) (carrier : Nat)
  /-- PENDING_CANCEL (R29). -/
  | pendingCancel (link : DLink) (carrier : Nat)
  /-- SEGMENT_BLOCK (R38). -/
  | segmentBlock (link : DLink) (rect : Rect)
  /-- SEGMENT_UNBLOCK (R38). -/
  | segmentUnblock (link : DLink) (rect : Rect)
  /-- QUERY_SEGMENT (R46). -/
  | querySegment (link : DLink) (segment : Nat)
  /-- REGISTER_CARRIER (R47). -/
  | registerCarrier (link : DLink) (carrier cls : Nat)
  /-- DEREGISTER_CARRIER (R48). -/
  | deregisterCarrier (link : DLink) (carrier : Nat)
  /-- SET_CLASS (R50). -/
  | setClass (link : DLink) (args : ClassArgs)
  /-- RECOVER_CARRIER (R70). -/
  | recoverCarrier (link : DLink) (carrier : Nat)
  /-- RELEASE_FROZEN (R71). -/
  | releaseFrozen (link : DLink) (carrier : Nat)
  /-- CLEAR_EMERGENCY (R72). -/
  | clearEmergency (link : DLink) (carrier : Nat)
  /-- QUERY_CARRIER (R73). -/
  | queryCarrier (link : DLink) (carrier : Nat)
  /-- SET_CRANE (R94): the selector is ALL (0), or a value that names neither part. -/
  | setCrane (link : DLink) (crane selector : Nat) (geometry : GeometryArgs) (operating : OperatingArgs)
  /-- SET_CRANE_OPERATING (R95): SET_CRANE with the selector OPERATING (1). -/
  | setCraneOperating (link : DLink) (crane : Nat) (operating : OperatingArgs)
  /-- CLEAR_CRANE (R112). -/
  | clearCrane (link : DLink) (crane : Nat)
  /-- QUERY_CRANE (R116). -/
  | queryCrane (link : DLink) (crane : Nat)
  /-- SET_RADIO (R118). -/
  | setRadio (link : DLink) (args : RadioArgs)
  /-- FLUSH_ROUTING (R130). -/
  | flushRouting (link : DLink)
  /-- BROADCAST_CONFIG (R135). -/
  | broadcastConfig (link : DLink) (args : BroadcastArgs)
  /-- BROADCAST_TRIGGER (R141). -/
  | broadcastTrigger (link : DLink)
  /-- QUERY_BROADCAST (R143). -/
  | queryBroadcast (link : DLink)
  /-- SET_COPY_RULE (R160). -/
  | setCopyRule (link : DLink) (args : CopyArgs)
  /-- ACTIVATE (R165, R166). -/
  | activate (link : DLink) (recoveryTime : Nat)
  /-- ENTER_CONFIG (R167). -/
  | enterConfig (link : DLink)
  /-- SAVE_SETTINGS (R169). -/
  | saveSettings (link : DLink)
  /-- SAVE_WRITE_COMPLETION (R169): `differs` is the first item of R168 that failed to read back, if any. -/
  | saveWriteCompletion (differs : Option (Fin 8))
  /-- POSITION_REPORT (R55). -/
  | positionReport (radio : Fin 4) (args : ReportArgs)
  /-- CARRIER_EVENT (R124). -/
  | carrierEvent (radio : Fin 4) (args : EventArgs)
  /-- MODEM_HEARTBEAT (R119). -/
  | modemHeartbeat (radio : Fin 4)
  /-- RADIO_UNUSABLE_FRAME (R122): a valid frame on a radio link, by its kind and payload. -/
  | radioUnusableFrame (radio : Fin 4) (kind : Nat) (payload : List Byte)
  /-- RADIO_LINK_TIMEOUT (R121). -/
  | radioLinkTimeout (radio : Fin 4)
  /-- RADIO_TRANSMIT_COMPLETE (R129). -/
  | radioTransmitComplete (radio : Fin 4)
  /-- LEARNING_ENTRY_EXPIRY (R126). -/
  | learningEntryExpiry (carrier : Nat)
  /-- FLUSH_VISIT (R130). -/
  | flushVisit
  /-- SUPERVISION_TIMER_EXPIRY (R66). -/
  | supervisionTimerExpiry (carrier : Nat)
  /-- GRACE_EXPIRY (R68). -/
  | graceExpiry (carrier : Nat)
  /-- PENDING_EXPIRED (R35). -/
  | pendingExpired (carrier : Nat)
  /-- CRANE_REPORT (R98). -/
  | craneReport (crane : Fin 8) (args : CraneReportArgs)
  /-- LOWER_REQUEST (R103). -/
  | lowerRequest (crane : Fin 8) (slot : Nat)
  /-- SLOT_RELEASE (R106). -/
  | slotRelease (crane : Fin 8)
  /-- GANTRY_REQUEST (R109). -/
  | gantryRequest (crane : Fin 8) (bay : Nat)
  /-- CRANE_UNUSABLE_FRAME (R173): a valid frame on a crane link, by its kind and payload. -/
  | craneUnusableFrame (crane : Fin 8) (kind : Nat) (payload : List Byte)
  /-- CLAIM_LAPSED (R104, R105). -/
  | claimLapsed (crane : Fin 8)
  /-- CRANE_LINK_DOWN (R113). -/
  | craneLinkDown (crane : Fin 8)
  /-- CRANE_TRANSMIT_COMPLETE (R108). -/
  | craneTransmitComplete (crane : Fin 8)
  /-- PERIOD_TIMER_EXPIRY (R139). -/
  | periodTimerExpiry
  deriving DecidableEq, Repr

end Sys2Proof
end

