-- ==== Sys2Proof/WellFormed.lean ====
section
/-! DEFINITION. Well-formed commands: every operand fits the payload field that carries it (R172 to R175), and every
list is as long as a payload of at most 250 bytes allows. -/

namespace Sys2Proof

/-- A value of a 1-byte field. -/
def isByte (n : Nat) : Bool := decide (n < 256)

/-- A value of a 2-byte field. -/
def isHalf (n : Nat) : Bool := decide (n < 65536)

/-- A carrier id that a timer, an entry or the sweep can belong to. -/
def isCarrier (n : Nat) : Bool := decide (n < Config.carrierCount)

/-- A payload length of the envelope (R170). -/
def isPayload (p : List Byte) : Bool := decide (4 ≤ p.length ∧ p.length ≤ 250)

/-- The fields of SET_SEGMENT fit their bytes. -/
def SegmentArgs.wf (a : SegmentArgs) : Bool :=
  isHalf a.first && isByte a.count && isByte a.usable && isByte a.kind && isHalf a.length && isHalf a.limit
    && isByte a.crossNext && isByte a.closure

/-- The fields of ROUTE_REQUEST fit their bytes, and its payload of 10 + 2n bytes is at most 250. -/
def RouteArgs.wf (a : RouteArgs) : Bool :=
  isHalf a.carrier && isHalf a.stop && isByte a.queueFlag && isHalf a.expiry && isHalf a.tag
    && a.ids.all isHalf && decide (a.ids.length ≤ 120)

/-- The four values of a rectangle fit their bytes. -/
def Rect.wf (r : Rect) : Bool := isByte r.lane && isByte r.lanes && isByte r.bay && isByte r.bays

/-- The fields of SET_CLASS fit their bytes. -/
def ClassArgs.wf (a : ClassArgs) : Bool :=
  isByte a.cls && isHalf a.maxSpeed && isHalf a.decel && isHalf a.margin && isHalf a.latency && isHalf a.period
    && isByte a.window && isHalf a.grace && isByte a.early && isByte a.overTol && isByte a.stopTol

/-- The geometry bytes of SET_CRANE fit. -/
def GeometryArgs.wf (a : GeometryArgs) : Bool :=
  isByte a.present && isByte a.slotCount && isByte a.lane0 && isByte a.lane1 && isByte a.lane2 && isByte a.lane3
    && isByte a.waterside && isByte a.landside

/-- The operating fields of SET_CRANE fit their bytes. -/
def OperatingArgs.wf (a : OperatingArgs) : Bool :=
  isByte a.enable && isHalf a.clearance && isHalf a.ceiling && isByte a.filter && isByte a.window && isByte a.fault
    && isByte a.crossing && isHalf a.timeout

/-- One link's setting in SET_RADIO fits its bytes. -/
def RadioSetting.wf (a : RadioSetting) : Bool := isByte a.configured && isHalf a.timeout

/-- The fields of SET_RADIO fit their bytes. -/
def RadioArgs.wf (a : RadioArgs) : Bool := isByte a.aging && a.link0.wf && a.link1.wf && a.link2.wf && a.link3.wf

/-- The fields of BROADCAST_CONFIG fit their bytes. -/
def BroadcastArgs.wf (a : BroadcastArgs) : Bool :=
  isByte a.lane && isByte a.lanes && isByte a.bay && isByte a.bays && isByte a.mode && isHalf a.period
    && isByte a.notice

/-- The fields of SET_COPY_RULE fit their bytes. -/
def CopyArgs.wf (a : CopyArgs) : Bool :=
  isByte a.rule && isByte a.enable && isByte a.frameKind && isByte a.value && isByte a.mask && isByte a.flag
    && isByte a.target

/-- The fields of POSITION_REPORT fit their bytes. -/
def ReportArgs.wf (a : ReportArgs) : Bool :=
  isHalf a.carrier && isByte a.seq && isHalf a.front && isHalf a.frontRem && isHalf a.rear && isHalf a.speed
    && isByte a.flags

/-- The fields of CARRIER_EVENT fit their bytes, and it has at most 32 detail bytes (R124). -/
def EventArgs.wf (a : EventArgs) : Bool :=
  isHalf a.carrier && isByte a.seq && isByte a.code && decide (a.bytes.length ≤ 32)

/-- The fields of CRANE_REPORT fit their bytes. -/
def CraneReportArgs.wf (a : CraneReportArgs) : Bool :=
  isByte a.seq && isByte a.bay && isByte a.trolley && isHalf a.height && isByte a.flags

/-- Every operand of a command fits the field that carries it. -/
def Instr.wf : Instr → Bool
  | .reset => true
  | .badFrame _ _ => true
  | .dispatchFrame _ kind payload => isByte kind && isPayload payload
  | .dispatchLinkTimeout _ => true
  | .dispatchTransmitComplete _ => true
  | .heartbeat _ => true
  | .setDispatch _ a b => isHalf a && isHalf b
  | .queryLink _ sel => isByte sel
  | .setGrid _ lanes bays => isByte lanes && isByte bays
  | .setSegment _ a => a.wf
  | .queryGrid _ => true
  | .routeRequest _ a => a.wf
  | .routeExtend _ c stop ids => isHalf c && isHalf stop && ids.all isHalf && decide (ids.length ≤ 122)
  | .routeCancel _ c => isHalf c
  | .pendingCancel _ c => isHalf c
  | .segmentBlock _ r => r.wf
  | .segmentUnblock _ r => r.wf
  | .querySegment _ i => isHalf i
  | .registerCarrier _ c k => isHalf c && isByte k
  | .deregisterCarrier _ c => isHalf c
  | .setClass _ a => a.wf
  | .recoverCarrier _ c => isHalf c
  | .releaseFrozen _ c => isHalf c
  | .clearEmergency _ c => isHalf c
  | .queryCarrier _ c => isHalf c
  | .setCrane _ k sel g o => isHalf k && isByte sel && decide (sel ≠ 1) && g.wf && o.wf
  | .setCraneOperating _ k o => isHalf k && o.wf
  | .clearCrane _ k => isHalf k
  | .queryCrane _ k => isHalf k
  | .setRadio _ a => a.wf
  | .flushRouting _ => true
  | .broadcastConfig _ a => a.wf
  | .broadcastTrigger _ => true
  | .queryBroadcast _ => true
  | .setCopyRule _ a => a.wf
  | .activate _ t => isByte t
  | .enterConfig _ => true
  | .saveSettings _ => true
  | .saveWriteCompletion _ => true
  | .positionReport _ a => a.wf
  | .carrierEvent _ a => a.wf
  | .modemHeartbeat _ => true
  | .radioUnusableFrame _ kind payload => isByte kind && isPayload payload
  | .radioLinkTimeout _ => true
  | .radioTransmitComplete _ => true
  | .learningEntryExpiry c => isCarrier c
  | .flushVisit => true
  | .supervisionTimerExpiry c => isCarrier c
  | .graceExpiry c => isCarrier c
  | .pendingExpired c => isCarrier c
  | .craneReport _ a => a.wf
  | .lowerRequest _ t => isByte t
  | .slotRelease _ => true
  | .gantryRequest _ b => isByte b
  | .craneUnusableFrame _ kind payload => isByte kind && isPayload payload
  | .claimLapsed _ => true
  | .craneLinkDown _ => true
  | .craneTransmitComplete _ => true
  | .periodTimerExpiry => true

/-- A command is well formed when every operand fits the field that carries it. -/
abbrev Instr.WellFormed (i : Instr) : Prop := i.wf = true

end Sys2Proof
end

