-- ==== Sys2Proof/Decode.lean ====
section
/-! DEFINITION. Reading a command from a frame and writing a frame from a command, by the layouts of R172 to R175,
and the host's `decodeTableWord`. spec/opcode_table.json gives no row any bits, so no word spells a command. -/

namespace Sys2Proof

/-- A 2-byte field, high byte first (R172). -/
def half (hi lo : Byte) : Nat := hi.toNat * 256 + lo.toNat

/-- The bytes of a 1-byte field. -/
def byteOf (n : Nat) : List Byte := [BitVec.ofNat 8 n]

/-- The bytes of a 2-byte field, high byte first (R172). -/
def bytesOf (n : Nat) : List Byte := [BitVec.ofNat 8 (n / 256), BitVec.ofNat 8 n]

/-- The 2-byte ids of a list, read in order. -/
def halves : List Byte → List Nat
  | hi :: lo :: rest => half hi lo :: halves rest
  | _ => []

/-- What a link makes of a frame's kind and payload: a command, a kind it does not take, or a payload of the wrong
length for the kind (R147, R173). -/
inductive FrameReading where
  | command (i : Instr)
  | badKind
  | badLength
  deriving DecidableEq, Repr

/-- The kind codes of the dispatch requests (R175). -/
def isRequestKind (kind : Nat) : Bool := decide (0x20 ≤ kind ∧ kind ≤ 0x3F)

/-- SET_CRANE read from its 22 payload bytes; selector 1 is OPERATING, under which the geometry bytes are not read
(R175). -/
def readSetCrane (l : DLink) (crane sel : Nat) (g : GeometryArgs) (o : OperatingArgs) : Instr :=
  if sel = 1 then .setCraneOperating l crane o else .setCrane l crane sel g o

/-- The payload of a dispatch request, read by the layouts of R175; none is a payload of the wrong length. -/
def readRequest (l : DLink) (kind : Nat) (p : List Byte) : Option Instr :=
  match kind, p with
  | 0x20, [_, _, _, _] => some (.heartbeat l)
  | 0x21, [a1, a0, b1, b0] => some (.setDispatch l (half a1 a0) (half b1 b0))
  | 0x22, [s, _, _, _] => some (.queryLink l s.toNat)
  | 0x23, [x, y, _, _] => some (.setGrid l x.toNat y.toNat)
  | 0x24, [f1, f0, n, u, k, l1, l0, v1, v0, x, c] =>
    some (.setSegment l ⟨half f1 f0, n.toNat, u.toNat, k.toNat, half l1 l0, half v1 v0, x.toNat, c.toNat⟩)
  | 0x25, [_, _, _, _] => some (.queryGrid l)
  | 0x26, c1 :: c0 :: s1 :: s0 :: q :: e1 :: e0 :: t1 :: t0 :: n :: ids =>
    if ids.length = 2 * n.toNat then
      some (.routeRequest l ⟨half c1 c0, half s1 s0, q.toNat, half e1 e0, half t1 t0, halves ids⟩)
    else none
  | 0x27, c1 :: c0 :: s1 :: s0 :: n :: ids =>
    if ids.length = 2 * n.toNat then some (.routeExtend l (half c1 c0) (half s1 s0) (halves ids)) else none
  | 0x28, [c1, c0, _, _] => some (.routeCancel l (half c1 c0))
  | 0x29, [c1, c0, _, _] => some (.pendingCancel l (half c1 c0))
  | 0x2A, [a, b, c, d] => some (.segmentBlock l ⟨a.toNat, b.toNat, c.toNat, d.toNat⟩)
  | 0x2B, [a, b, c, d] => some (.segmentUnblock l ⟨a.toNat, b.toNat, c.toNat, d.toNat⟩)
  | 0x2C, [s1, s0, _, _] => some (.querySegment l (half s1 s0))
  | 0x2D, [c1, c0, k, _] => some (.registerCarrier l (half c1 c0) k.toNat)
  | 0x2E, [c1, c0, _, _] => some (.deregisterCarrier l (half c1 c0))
  | 0x2F, [k, v1, v0, a1, a0, m1, m0, t1, t0, p1, p0, w, g1, g0, e, o, s] =>
    some (.setClass l ⟨k.toNat, half v1 v0, half a1 a0, half m1 m0, half t1 t0, half p1 p0, w.toNat, half g1 g0,
      e.toNat, o.toNat, s.toNat⟩)
  | 0x30, [c1, c0, _, _] => some (.recoverCarrier l (half c1 c0))
  | 0x31, [c1, c0, _, _] => some (.releaseFrozen l (half c1 c0))
  | 0x32, [c1, c0, _, _] => some (.clearEmergency l (half c1 c0))
  | 0x33, [c1, c0, _, _] => some (.queryCarrier l (half c1 c0))
  | 0x34, [k1, k0, sel, pr, n, a, b, c, d, ws, ls, en, h1, h0, x1, x0, f, w, fp, cs, t1, t0] =>
    some (readSetCrane l (half k1 k0) sel.toNat
      ⟨pr.toNat, n.toNat, a.toNat, b.toNat, c.toNat, d.toNat, ws.toNat, ls.toNat⟩
      ⟨en.toNat, half h1 h0, half x1 x0, f.toNat, w.toNat, fp.toNat, cs.toNat, half t1 t0⟩)
  | 0x35, [k1, k0, _, _] => some (.clearCrane l (half k1 k0))
  | 0x36, [k1, k0, _, _] => some (.queryCrane l (half k1 k0))
  | 0x37, [a, c0, t01, t00, c1, t11, t10, c2, t21, t20, c3, t31, t30] =>
    some (.setRadio l ⟨a.toNat, ⟨c0.toNat, half t01 t00⟩, ⟨c1.toNat, half t11 t10⟩, ⟨c2.toNat, half t21 t20⟩,
      ⟨c3.toNat, half t31 t30⟩⟩)
  | 0x38, [_, _, _, _] => some (.flushRouting l)
  | 0x39, [a, b, c, d, m, p1, p0, n] =>
    some (.broadcastConfig l ⟨a.toNat, b.toNat, c.toNat, d.toNat, m.toNat, half p1 p0, n.toNat⟩)
  | 0x3A, [_, _, _, _] => some (.broadcastTrigger l)
  | 0x3B, [_, _, _, _] => some (.queryBroadcast l)
  | 0x3C, [r, e, k, v, m, f, t] =>
    some (.setCopyRule l ⟨r.toNat, e.toNat, k.toNat, v.toNat, m.toNat, f.toNat, t.toNat⟩)
  | 0x3D, [t, _, _, _] => some (.activate l t.toNat)
  | 0x3E, [_, _, _, _] => some (.enterConfig l)
  | 0x3F, [_, _, _, _] => some (.saveSettings l)
  | _, _ => none

/-- A frame on a dispatch link (R147 steps 3 and 4). -/
def decodeDispatch (l : DLink) (kind : Nat) (p : List Byte) : FrameReading :=
  if isRequestKind kind then
    match readRequest l kind p with
    | some i => .command i
    | none => .badLength
  else .badKind

/-- A frame on a radio link (R122): the three kinds that carriers and modems send. -/
def decodeRadio (r : Fin 4) (kind : Nat) (p : List Byte) : FrameReading :=
  match kind, p with
  | 0x01, [c1, c0, s, f1, f0, m1, m0, r1, r0, v1, v0, fl] =>
    .command (.positionReport r ⟨half c1 c0, s.toNat, half f1 f0, half m1 m0, half r1 r0, half v1 v0, fl.toNat⟩)
  | 0x01, _ => .badLength
  | 0x02, c1 :: c0 :: s :: e :: n :: bytes =>
    if bytes.length = n.toNat ∧ n.toNat ≤ 32 then .command (.carrierEvent r ⟨half c1 c0, s.toNat, e.toNat, bytes⟩)
    else .badLength
  | 0x02, _ => .badLength
  | 0x03, [_, _, _, _] => .command (.modemHeartbeat r)
  | 0x03, _ => .badLength
  | _, _ => .badKind

/-- A frame on a crane link (R98, R154): the four kinds that a crane sends. -/
def decodeCrane (k : Fin 8) (kind : Nat) (p : List Byte) : FrameReading :=
  match kind, p with
  | 0x10, [s, b, t, h1, h0, f] => .command (.craneReport k ⟨s.toNat, b.toNat, t.toNat, half h1 h0, f.toNat⟩)
  | 0x10, _ => .badLength
  | 0x11, [t, _, _, _] => .command (.lowerRequest k t.toNat)
  | 0x11, _ => .badLength
  | 0x12, [_, _, _, _] => .command (.slotRelease k)
  | 0x12, _ => .badLength
  | 0x13, [b, _, _, _] => .command (.gantryRequest k b.toNat)
  | 0x13, _ => .badLength
  | _, _ => .badKind

/-- Padding with zero bytes up to 4 (R172). -/
def pad4 (p : List Byte) : List Byte := p ++ List.replicate (4 - p.length) 0

/-- The operating bytes of SET_CRANE. -/
def OperatingArgs.bytes (o : OperatingArgs) : List Byte :=
  byteOf o.enable ++ bytesOf o.clearance ++ bytesOf o.ceiling ++ byteOf o.filter ++ byteOf o.window ++ byteOf o.fault
    ++ byteOf o.crossing ++ bytesOf o.timeout

/-- The geometry bytes of SET_CRANE. -/
def GeometryArgs.bytes (g : GeometryArgs) : List Byte :=
  byteOf g.present ++ byteOf g.slotCount ++ byteOf g.lane0 ++ byteOf g.lane1 ++ byteOf g.lane2 ++ byteOf g.lane3
    ++ byteOf g.waterside ++ byteOf g.landside

/-- One link's bytes in SET_RADIO. -/
def RadioSetting.bytes (a : RadioSetting) : List Byte := byteOf a.configured ++ bytesOf a.timeout

/-- The payload of POSITION_REPORT (R174). -/
def ReportArgs.bytes (a : ReportArgs) : List Byte :=
  bytesOf a.carrier ++ byteOf a.seq ++ bytesOf a.front ++ bytesOf a.frontRem ++ bytesOf a.rear ++ bytesOf a.speed
    ++ byteOf a.flags

/-- The payload of CARRIER_EVENT (R175). -/
def EventArgs.payload (a : EventArgs) : List Byte :=
  bytesOf a.carrier ++ byteOf a.seq ++ byteOf a.code ++ byteOf a.bytes.length ++ a.bytes

/-- The frame a far end sends for a command, as kind and payload (R174, R175); none for the part's own events. -/
def encode : Instr → Option (Nat × List Byte)
  | .heartbeat _ => some (0x20, pad4 [])
  | .setDispatch _ a b => some (0x21, bytesOf a ++ bytesOf b)
  | .queryLink _ sel => some (0x22, pad4 (byteOf sel))
  | .setGrid _ lanes bays => some (0x23, pad4 (byteOf lanes ++ byteOf bays))
  | .setSegment _ a => some (0x24, bytesOf a.first ++ byteOf a.count ++ byteOf a.usable ++ byteOf a.kind
      ++ bytesOf a.length ++ bytesOf a.limit ++ byteOf a.crossNext ++ byteOf a.closure)
  | .queryGrid _ => some (0x25, pad4 [])
  | .routeRequest _ a => some (0x26, bytesOf a.carrier ++ bytesOf a.stop ++ byteOf a.queueFlag ++ bytesOf a.expiry
      ++ bytesOf a.tag ++ byteOf a.ids.length ++ a.ids.flatMap bytesOf)
  | .routeExtend _ c stop ids => some (0x27, bytesOf c ++ bytesOf stop ++ byteOf ids.length ++ ids.flatMap bytesOf)
  | .routeCancel _ c => some (0x28, pad4 (bytesOf c))
  | .pendingCancel _ c => some (0x29, pad4 (bytesOf c))
  | .segmentBlock _ r => some (0x2A, byteOf r.lane ++ byteOf r.lanes ++ byteOf r.bay ++ byteOf r.bays)
  | .segmentUnblock _ r => some (0x2B, byteOf r.lane ++ byteOf r.lanes ++ byteOf r.bay ++ byteOf r.bays)
  | .querySegment _ i => some (0x2C, pad4 (bytesOf i))
  | .registerCarrier _ c k => some (0x2D, pad4 (bytesOf c ++ byteOf k))
  | .deregisterCarrier _ c => some (0x2E, pad4 (bytesOf c))
  | .setClass _ a => some (0x2F, byteOf a.cls ++ bytesOf a.maxSpeed ++ bytesOf a.decel ++ bytesOf a.margin
      ++ bytesOf a.latency ++ bytesOf a.period ++ byteOf a.window ++ bytesOf a.grace ++ byteOf a.early
      ++ byteOf a.overTol ++ byteOf a.stopTol)
  | .recoverCarrier _ c => some (0x30, pad4 (bytesOf c))
  | .releaseFrozen _ c => some (0x31, pad4 (bytesOf c))
  | .clearEmergency _ c => some (0x32, pad4 (bytesOf c))
  | .queryCarrier _ c => some (0x33, pad4 (bytesOf c))
  | .setCrane _ k sel g o => some (0x34, bytesOf k ++ byteOf sel ++ g.bytes ++ o.bytes)
  | .setCraneOperating _ k o => some (0x34, bytesOf k ++ byteOf 1 ++ List.replicate 8 0 ++ o.bytes)
  | .clearCrane _ k => some (0x35, pad4 (bytesOf k))
  | .queryCrane _ k => some (0x36, pad4 (bytesOf k))
  | .setRadio _ a => some (0x37, byteOf a.aging ++ a.link0.bytes ++ a.link1.bytes ++ a.link2.bytes ++ a.link3.bytes)
  | .flushRouting _ => some (0x38, pad4 [])
  | .broadcastConfig _ a => some (0x39, byteOf a.lane ++ byteOf a.lanes ++ byteOf a.bay ++ byteOf a.bays
      ++ byteOf a.mode ++ bytesOf a.period ++ byteOf a.notice)
  | .broadcastTrigger _ => some (0x3A, pad4 [])
  | .queryBroadcast _ => some (0x3B, pad4 [])
  | .setCopyRule _ a => some (0x3C, byteOf a.rule ++ byteOf a.enable ++ byteOf a.frameKind ++ byteOf a.value
      ++ byteOf a.mask ++ byteOf a.flag ++ byteOf a.target)
  | .activate _ t => some (0x3D, pad4 (byteOf t))
  | .enterConfig _ => some (0x3E, pad4 [])
  | .saveSettings _ => some (0x3F, pad4 [])
  | .positionReport _ a => some (0x01, a.bytes)
  | .carrierEvent _ a => some (0x02, a.payload)
  | .modemHeartbeat _ => some (0x03, pad4 [])
  | .craneReport _ a => some (0x10, byteOf a.seq ++ byteOf a.bay ++ byteOf a.trolley ++ bytesOf a.height
      ++ byteOf a.flags)
  | .lowerRequest _ t => some (0x11, pad4 (byteOf t))
  | .slotRelease _ => some (0x12, pad4 [])
  | .gantryRequest _ b => some (0x13, pad4 (byteOf b))
  | .dispatchFrame _ kind payload => some (kind, payload)
  | .radioUnusableFrame _ kind payload => some (kind, payload)
  | .craneUnusableFrame _ kind payload => some (kind, payload)
  | .reset | .badFrame _ _ | .dispatchLinkTimeout _ | .dispatchTransmitComplete _ | .saveWriteCompletion _
  | .radioLinkTimeout _ | .radioTransmitComplete _ | .learningEntryExpiry _ | .flushVisit
  | .supervisionTimerExpiry _ | .graceExpiry _ | .pendingExpired _ | .claimLapsed _ | .craneLinkDown _
  | .craneTransmitComplete _ | .periodTimerExpiry => none

/-- The link a command's frame arrives on; none for the part's own events. -/
def Instr.link : Instr → Option Link
  | .dispatchFrame l _ _ | .heartbeat l | .setDispatch l _ _ | .queryLink l _ | .setGrid l _ _ | .setSegment l _
  | .queryGrid l | .routeRequest l _ | .routeExtend l _ _ _ | .routeCancel l _ | .pendingCancel l _
  | .segmentBlock l _ | .segmentUnblock l _ | .querySegment l _ | .registerCarrier l _ _ | .deregisterCarrier l _
  | .setClass l _ | .recoverCarrier l _ | .releaseFrozen l _ | .clearEmergency l _ | .queryCarrier l _
  | .setCrane l _ _ _ _ | .setCraneOperating l _ _ | .clearCrane l _ | .queryCrane l _ | .setRadio l _
  | .flushRouting l | .broadcastConfig l _ | .broadcastTrigger l | .queryBroadcast l | .setCopyRule l _
  | .activate l _ | .enterConfig l | .saveSettings l => some (.dispatch l)
  | .positionReport r _ | .carrierEvent r _ | .modemHeartbeat r | .radioUnusableFrame r _ _ => some (.radio r)
  | .craneReport k _ | .lowerRequest k _ | .slotRelease k | .gantryRequest k _ | .craneUnusableFrame k _ _ =>
    some (.crane k)
  | .badFrame link _ => some link
  | .reset | .dispatchLinkTimeout _ | .dispatchTransmitComplete _ | .saveWriteCompletion _
  | .radioLinkTimeout _ | .radioTransmitComplete _ | .learningEntryExpiry _ | .flushVisit
  | .supervisionTimerExpiry _ | .graceExpiry _ | .pendingExpired _ | .claimLapsed _ | .craneLinkDown _
  | .craneTransmitComplete _ | .periodTimerExpiry => none

/-- The command a frame of this kind and payload is on this link (R122, R147, R173). -/
def decodeFrame (link : Link) (kind : Nat) (p : List Byte) : FrameReading :=
  match link with
  | .dispatch l => decodeDispatch l kind p
  | .radio r => decodeRadio r kind p
  | .crane k => decodeCrane k kind p

/-- The command that a word spells by the bits of spec/opcode_table.json: the table gives no row any bits, so no
word spells one (log entry 36). -/
def decodeTableWord (_nbits _w : Nat) : Option Instr := none

end Sys2Proof
end

