-- ==== Sys2Proof/Machine/State.lean ====
section
/-! DEFINITION. Everything the manual gives the part to hold, block by block, the queue of waiting commands, and the
part as it stands right after reset. -/

namespace Sys2Proof

/-- The same value under each of the first `n` keys. -/
def Table.filled {α : Type} (n : Nat) (v : α) : Table α := ⟨(List.range n).map (fun i => (i, v))⟩

/-- A table with no rows. -/
def Table.empty {α : Type} : Table α := ⟨[]⟩

end Sys2Proof

namespace Sys2Proof.Machine

/-! ## Modes, grid and configuration -/

/-- The part mode (R164). -/
inductive PartMode where
  | config
  | recovery
  | active
  deriving DecidableEq, Repr

/-- The kind of a segment (R2). -/
inductive SegKind where
  | lane
  | gate
  deriving DecidableEq, Repr

/-- The static segment record (R2); the closure set is the pair `dlc`, `rlc`. -/
structure SegStatic where
  usable : Bool
  kind : SegKind
  length : Nat
  limit : Nat
  crossNext : Bool
  dlc : Bool
  rlc : Bool
  deriving DecidableEq, Repr

/-- The default static record (R2). -/
def SegStatic.default : SegStatic := ⟨false, .lane, 1000, 300, false, false, false⟩

/-- The Track Table's content: the dimensions and one static record per cell (R1, R2). -/
structure Grid where
  lanes : Nat
  bays : Nat
  cells : Table SegStatic
  deriving DecidableEq, Repr

/-- The grid of a part that found no valid image: 1 lane, 1 bay, the default record (R15). -/
def Grid.default : Grid := ⟨1, 1, ⟨[(0, SegStatic.default)]⟩⟩

/-- The early policy of a class (R49). -/
inductive EarlyPolicy where
  | drop
  | fault
  deriving DecidableEq, Repr

/-- A carrier class record (R49). -/
structure ClassVals where
  maxSpeed : Nat
  decel : Nat
  margin : Nat
  latency : Nat
  period : Nat
  window : Nat
  grace : Nat
  early : EarlyPolicy
  overTol : Nat
  stopTol : Nat
  deriving DecidableEq, Repr

/-- The default class record (R49). -/
def ClassVals.default : ClassVals := ⟨600, 150, 300, 400, 500, 50, 1000, .drop, 30, 50⟩

/-- The fault policy of a crane (R93). -/
inductive FaultPolicy where
  | slot
  | all
  deriving DecidableEq, Repr

/-- The crossing notification select of a crane (R93). -/
inductive CrossSelect where
  | nothing
  | down
  | up
  | both
  deriving DecidableEq, Repr

/-- A crane configuration record (R93); `enable` has bit t for slot index t, the claim window is in seconds. -/
structure CraneConfig where
  present : Bool
  slotLanes : List Nat
  waterside : Nat
  landside : Nat
  enable : BitVec 4
  clearance : Nat
  ceiling : Nat
  filter : Nat
  window : Nat
  fault : FaultPolicy
  crossing : CrossSelect
  timeout : Nat
  deriving DecidableEq, Repr

/-- The default crane configuration (R93). -/
def CraneConfig.default : CraneConfig := ⟨false, [1], 0, 2, 1, 6000, 50000, 4, 20, .slot, .nothing, 500⟩

/-- What the Radio Router is configured with for one link (R118). -/
structure RadioConfig where
  configured : Bool
  timeout : Nat
  deriving DecidableEq, Repr

/-- The default configuration of a radio link (R118). -/
def RadioConfig.default : RadioConfig := ⟨true, 300⟩

/-- The broadcast modes (R133). -/
inductive BroadcastMode where
  | off
  | continuous
  | onChange
  | oneShot
  deriving DecidableEq, Repr

/-- The broadcast configuration (R133). -/
structure BroadcastConfig where
  lane : Nat
  lanes : Nat
  bay : Nat
  bays : Nat
  mode : BroadcastMode
  period : Nat
  notice : Bool
  deriving DecidableEq, Repr

/-- The default broadcast configuration (R133). -/
def BroadcastConfig.default : BroadcastConfig := ⟨0, 16, 0, 64, .off, 1000, false⟩

/-- The frame kinds a copy rule selects (R160). -/
inductive CopyKind where
  | report
  | any
  deriving DecidableEq, Repr

/-- The flag match of a copy rule (R160). -/
inductive FlagMatch where
  | nothing
  | fault
  | laden
  deriving DecidableEq, Repr

/-- A copy rule (R160). -/
structure CopyRule where
  enable : Bool
  kind : CopyKind
  value : Nat
  mask : Nat
  flag : FlagMatch
  target : DLink
  deriving DecidableEq, Repr

/-- The default copy rule (R160). -/
def CopyRule.default : CopyRule := ⟨false, .report, 0, 0, .nothing, .a⟩

/-- The configuration of the part: exactly what the settings image holds (R168). The aging period and the recovery
time are in seconds, the link timeouts in ms; the roster gives each registered carrier its class. -/
structure Settings where
  grid : Grid
  classes : Table ClassVals
  roster : Table Nat
  cranes : Table CraneConfig
  aging : Nat
  radios : Table RadioConfig
  timeoutA : Nat
  timeoutB : Nat
  broadcast : BroadcastConfig
  copyRules : Table CopyRule
  recoveryTime : Nat
  deriving DecidableEq, Repr

/-- The defaults of each owning chapter, recovery time 10 s (R168). -/
def Settings.default : Settings where
  grid := Grid.default
  classes := Table.filled 4 ClassVals.default
  roster := Table.empty
  cranes := Table.filled 8 CraneConfig.default
  aging := 4
  radios := Table.filled 4 RadioConfig.default
  timeoutA := 1000
  timeoutB := 1000
  broadcast := BroadcastConfig.default
  copyRules := Table.filled 4 CopyRule.default
  recoveryTime := 10

/-- The nonvolatile settings image (R168): its content and whether its checksum matches it. -/
structure Image where
  valid : Bool
  content : Settings
  deriving DecidableEq, Repr

/-- A save in progress (R169): the part time of acceptance and the snapshot. -/
structure Save where
  accepted : Time
  snapshot : Settings
  deriving DecidableEq, Repr

/-! ## The Reservation Unit -/

/-- A party that can hold or intrude (R17). -/
inductive Party where
  | carrier (id : Nat)
  | crane (id : Nat)
  deriving DecidableEq, Repr

/-- The hold kinds (R17). -/
inductive HoldKind where
  | route
  | standing
  | leg
  | travel
  deriving DecidableEq, Repr

/-- The condition of a segment with the holder and hold kind that are present under HELD and FROZEN (R17). -/
inductive Hold where
  | free
  | held (party : Party) (kind : HoldKind)
  | frozen (party : Party) (kind : HoldKind)
  deriving DecidableEq, Repr

/-- A reason set of a hoist lock entry (R17). -/
structure Reasons where
  claim : Bool
  violation : Bool
  fault : Bool
  link : Bool
  deriving DecidableEq, Repr

/-- An out-of-service set (R17). -/
structure OutOfService where
  block : Bool
  dlc : Bool
  rlc : Bool
  deriving DecidableEq, Repr

/-- The dynamic segment record (R17); the hoist lock is present when its table has an entry. -/
structure SegDyn where
  hold : Hold
  lock : Table Reasons
  oos : OutOfService
  intruder : Option Party
  deriving DecidableEq, Repr

/-- The reset value of a dynamic record (R20). -/
def SegDyn.fresh : SegDyn := ⟨.free, Table.empty, ⟨false, false, false⟩, none⟩

/-- A route record (R22). -/
structure Route where
  list : List Nat
  stop : Nat
  front : Nat
  rear : Nat
  version : Nat
  tag : Nat
  origin : DLink
  deriving DecidableEq, Repr

/-- An entry of the pending route list (R26). -/
structure PendingEntry where
  carrier : Nat
  list : List Nat
  stop : Nat
  tag : Nat
  origin : DLink
  arrival : Time
  expiry : Time
  lastBlock : Nat
  deriving DecidableEq, Repr

/-! ## The Carrier Supervisor and the Authority Calculator -/

/-- The carrier states (R52). -/
inductive CarrierState where
  | offline
  | away
  | idle
  | authorized
  | emergency
  | missing
  | lost
  deriving DecidableEq, Repr

/-- The causes of EMERGENCY (R69). -/
inductive EmergencyCause where
  | overspeed
  | deviation
  | movedUnderLoad
  | hoistViolation
  | gantryViolation
  | earlyReport
  | carrierFault
  deriving DecidableEq, Repr

/-- The flags of a carrier report (R52). -/
structure CarrierFlags where
  parked : Bool
  fault : Bool
  laden : Bool
  deriving DecidableEq, Repr

/-- The reasons of a blocked entry (R62). -/
inductive EntryReason where
  | carrierFault
  | badSegment
  | notGate
  | moving
  | conflict
  deriving DecidableEq, Repr

/-- The entry-block note (R63): the reason and segment of the last ENTRY_BLOCKED notified. -/
structure EntryNote where
  reason : EntryReason
  segment : Option Nat
  deriving DecidableEq, Repr

/-- The last sighting of a LOST carrier (R52, R68). -/
structure Sighting where
  front : Option Nat
  frontRem : Nat
  rear : Option Nat
  speed : Nat
  flags : CarrierFlags
  time : Time
  deriving DecidableEq, Repr

/-- The commands of an AUTHORITY frame (R77). -/
inductive Command where
  | proceed
  | hold
  | stopNow
  | emergency
  deriving DecidableEq, Repr

/-- A pending lower check cap Cp with its effective time Te and the part time at which Te was last set (R78, R88). -/
structure PendingCap where
  cap : Nat
  effective : Time
  set : Time
  deriving DecidableEq, Repr

/-- The authority fields of a carrier record (R78). -/
structure AuthorityFields where
  command : Option Command
  endSeg : Option Nat
  endOff : Nat
  endPos : Option Nat
  lastCap : Nat
  checkCap : Nat
  pendingCap : Option PendingCap
  overspeeds : Nat
  deriving DecidableEq, Repr

/-- The authority fields of a new record (R78). -/
def AuthorityFields.fresh : AuthorityFields := ⟨none, none, 0, none, 0, 0, none, 0⟩

/-- A carrier record (R52); the class stands in the roster. Option in `front` and `rear` is the id NONE, in `timer`
a stopped timer, elsewhere an absent value. -/
structure Carrier where
  state : CarrierState
  prior : Option CarrierState
  lastSeq : Option Nat
  timer : Option Nat
  front : Option Nat
  frontRem : Nat
  rear : Option Nat
  speed : Nat
  flags : CarrierFlags
  lastTime : Option Time
  lostSince : Option Time
  sighting : Option Sighting
  cause : Option EmergencyCause
  earlyCount : Nat
  earlyRun : Bool
  note : Option EntryNote
  applied : ClassVals
  auth : AuthorityFields
  deriving DecidableEq, Repr

/-- A new carrier record (R52) for a carrier of the class with these values (log entry 15). -/
def Carrier.fresh (applied : ClassVals) : Carrier where
  state := .offline
  prior := none
  lastSeq := none
  timer := none
  front := none
  frontRem := 0
  rear := none
  speed := 0
  flags := ⟨false, false, false⟩
  lastTime := none
  lostSince := none
  sighting := none
  cause := none
  earlyCount := 0
  earlyRun := false
  note := none
  applied := applied
  auth := AuthorityFields.fresh

/-! ## The Slot Monitor -/

/-- The crane states (R96). -/
inductive CraneState where
  | offline
  | standing
  | travelling
  | halted
  | linkLost
  deriving DecidableEq, Repr

/-- The flags of a crane report (R96). -/
structure CraneFlags where
  stopped : Bool
  sensorFault : Bool
  deriving DecidableEq, Repr

/-- A class of the hoist filter (R96, R100): `unknown` is a filtered class only. -/
inductive HoistClass where
  | unknown
  | up
  | down (slot : Nat)
  deriving DecidableEq, Repr

/-- The phases of a claim (R96). -/
inductive ClaimPhase where
  | granted
  | inUse
  | raised
  deriving DecidableEq, Repr

/-- A claim (R96) with the claim window, in ms, that was in force when its phase began (R95). -/
structure Claim where
  slot : Nat
  phase : ClaimPhase
  start : Time
  window : Nat
  void : Bool
  deriving DecidableEq, Repr

/-- A crane record (R96). -/
structure Crane where
  state : CraneState
  before : Option CraneState
  bay : Option Nat
  target : Option Nat
  lastSeq : Option Nat
  trolley : Option Nat
  height : Nat
  flags : CraneFlags
  candidate : Option HoistClass
  count : Nat
  filtered : HoistClass
  claim : Option Claim
  episode : Bool
  faultRun : Nat
  timer : Option Nat
  frames : Nat
  repeats : Nat
  implausible : Nat
  deriving DecidableEq, Repr

/-- The reset value of a crane record (R96), with its three counters. -/
def Crane.fresh (frames repeats implausible : Nat) : Crane where
  state := .offline
  before := none
  bay := none
  target := none
  lastSeq := none
  trolley := none
  height := 0
  flags := ⟨false, false⟩
  candidate := none
  count := 0
  filtered := .unknown
  claim := none
  episode := false
  faultRun := 0
  timer := none
  frames := frames
  repeats := repeats
  implausible := implausible

/-! ## Replies, notifications and frames -/

/-- The statuses of a reply (R148). -/
inductive Status where
  | granted
  | accepted
  | queued
  | refused
  | busy
  deriving DecidableEq, Repr

/-- The reasons of a reply (R174), in the order of their codes. -/
inductive Reason where
  | none_ | badMode | badKind | badLength | badValue | badSegment
  | unknownCarrier | unknownCrane | badClass | alreadyRegistered | badCarrierState | badCraneState
  | routeActive | noRoute | notAtStart | notAdjacent | repeated | tooLong
  | locked | conflict | outOfService | intruded | queueFull | notPending
  | noSighting | moving | invalid | tooEarly | busyApron
  | inTransit | claimActive | badSlot | slotDisabled | noClaim | hoistDown | badBay | sameBay
  | faultActive | sweep | cycle | save
  deriving DecidableEq, Repr

/-- One value of a detail with its width on the line (R174): 1, 2 or 4 bytes, an absent value of a width, the name
of a request field by its place in the layout of R175, or raw bytes of a copied frame. -/
inductive Val where
  | byte (n : Nat)
  | half (n : Nat)
  | word (n : Nat)
  | absent (width : Nat)
  | field (place : Nat)
  | raw (bytes : List Byte)
  deriving DecidableEq, Repr

/-- A reply (R148). -/
structure Reply where
  kind : Nat
  status : Status
  reason : Reason
  clamped : Bool
  detail : List Val
  deriving DecidableEq, Repr

/-- The notification kinds (R157), in the order of their codes (R172). -/
inductive NotifKind where
  | carrierState | unknownCarrier | earlyReport | carrierMissing | carrierLost | overspeed | intrusion
  | entryBlocked | pendingGranted | pendingExpired | pendingStale | pendingDropped | replaced | claimLapsed
  | hoistViolation | gantryViolation | craneFault | hoistCrossing | travelDone | craneLinkDown | craneLinkUp
  | radioDown | radioUp | dispatchLost | dispatchRegained | broadcastDone | flushDone | saveDone | saveFailed
  | mode | dropped | copy
  deriving DecidableEq, Repr

/-- The subject of a notification (R157); a link is named by its QUERY_LINK selector code (R172). -/
inductive Subject where
  | nothing
  | carrier (id : Nat)
  | crane (id : Nat)
  | segment (id : Nat)
  | link (selector : Nat)
  deriving DecidableEq, Repr

/-- A notification entry (R157). -/
structure Notif where
  kind : NotifKind
  time : Time
  subject : Subject
  detail : List Val
  deriving DecidableEq, Repr

/-- An AUTHORITY frame (R77). -/
structure Authority where
  carrier : Nat
  echo : Option Nat
  version : Nat
  command : Command
  endSeg : Option Nat
  endOff : Nat
  code : Nat
  upcoming : List (Option Nat)
  deriving DecidableEq, Repr

/-- The picture codes (R18), in the order of their codes (R174). -/
inductive PictureCode where
  | free
  | held
  | locked
  | closed
  deriving DecidableEq, Repr

/-- A picture row (R137); the count is the length of `codes`. -/
structure PictureRow where
  cycle : Nat
  lane : Nat
  bay : Nat
  codes : List PictureCode
  deriving DecidableEq, Repr

/-- A frame on a radio link's normal queue or transmitter (R128, R129). -/
inductive RadioFrame where
  | authority (a : Authority)
  | row (r : PictureRow)
  deriving DecidableEq, Repr

/-- A frame on a crane link (R108): a reply or one of the three commands with the last sequence. -/
inductive CraneFrame where
  | reply (r : Reply)
  | hoistStop (seq : Option Nat)
  | gantryStop (seq : Option Nat)
  | lowerRevoked (seq : Option Nat) (slot : Nat)
  deriving DecidableEq, Repr

/-! ## Links -/

/-- The states of a link receiver (R171). -/
inductive RxState where
  | hunt
  | header
  | body
  deriving DecidableEq, Repr

/-- A link receiver (R171) with the bytes it has taken since the sync byte. -/
structure Receiver where
  state : RxState
  taken : List Byte
  deriving DecidableEq, Repr

/-- A receiver in HUNT (R171). -/
def Receiver.hunting : Receiver := ⟨.hunt, []⟩

/-- What a dispatch transmitter sends (R149, R158): nothing (IDLE), a reply that has left its queue, or the
notification at the head of its queue. -/
inductive DispatchTx where
  | idle
  | reply (r : Reply)
  | notification
  deriving DecidableEq, Repr

/-- A dispatch link with its reply queue, notification queue, transmitter and counters (R144 to R149, R154, R156,
R159). -/
structure DispatchLink where
  up : Bool
  timer : Option Nat
  rx : Receiver
  replies : List Reply
  tx : DispatchTx
  notifs : List Notif
  dropCount : Nat
  firstDrop : Option Time
  good : Nat
  crcErrors : Nat
  badKinds : Nat
  overruns : Nat
  discarded : Nat
  deriving DecidableEq, Repr

/-- The reset value of a dispatch link (R155, R162). -/
def DispatchLink.fresh : DispatchLink where
  up := false
  timer := none
  rx := Receiver.hunting
  replies := []
  tx := .idle
  notifs := []
  dropCount := 0
  firstDrop := none
  good := 0
  crcErrors := 0
  badKinds := 0
  overruns := 0
  discarded := 0

/-- The states of a radio link (R119). -/
inductive RadioState where
  | down
  | up
  | unconfigured
  deriving DecidableEq, Repr

/-- A radio link (R119, R128, R129, R131); `sending = none` is a transmitter that is IDLE. -/
structure RadioLink where
  state : RadioState
  timer : Option Nat
  rx : Receiver
  urgent : List Authority
  normal : List RadioFrame
  sending : Option RadioFrame
  good : Nat
  crcErrors : Nat
  duplicates : Nat
  unusable : Nat
  deriving DecidableEq, Repr

/-- The reset value of a radio link in a state (R132). -/
def RadioLink.fresh (state : RadioState) : RadioLink where
  state := state
  timer := none
  rx := Receiver.hunting
  urgent := []
  normal := []
  sending := none
  good := 0
  crcErrors := 0
  duplicates := 0
  unusable := 0

/-- A crane link (R108, R154); `sending = none` is a transmitter that is IDLE. -/
structure CraneLink where
  rx : Receiver
  queue : List CraneFrame
  sending : Option CraneFrame
  crcErrors : Nat
  unusable : Nat
  deriving DecidableEq, Repr

/-- The reset value of a crane link (R108, R155). -/
def CraneLink.fresh : CraneLink := ⟨Receiver.hunting, [], none, 0, 0⟩

/-- A learning entry (R125) with the part time at which it was set. -/
structure LearnEntry where
  link : Nat
  set : Time
  expiry : Time
  deriving DecidableEq, Repr

/-- A flush sweep that is running (R130). -/
structure Flush where
  start : Time
  next : Nat
  removed : Nat
  deriving DecidableEq, Repr

/-- The cycle state of the Picture Broadcaster (R136): BUSY while `since`, the cycle start time, is present. -/
structure Cycle where
  since : Option Time
  number : Nat
  rerun : Bool
  outstanding : Nat
  rows : Nat
  sent : Nat
  dropped : Nat
  timer : Option Nat
  skipped : Nat
  completed : Nat
  deriving DecidableEq, Repr

/-- The cycle state at reset (R136). -/
def Cycle.fresh : Cycle := ⟨none, 0, false, 0, 0, 0, 0, none, 0, 0⟩

/-! ## The part -/

/-- The whole part, and the queue of the commands that wait for it. -/
structure State where
  /-- The commands that are waiting, first in, first out (the model's own field). -/
  pending : List Instr
  /-- Part time (R163). -/
  now : Time
  /-- Part mode (R164). -/
  mode : PartMode
  /-- Recovery start (R164). -/
  recoveryStart : Option Time
  /-- The working configuration of every block (R168). -/
  cfg : Settings
  /-- The nonvolatile settings image (R168). -/
  image : Image
  /-- The save state: WRITING while present (R169). -/
  save : Option Save
  /-- The dynamic segment records (R17). -/
  segs : Table SegDyn
  /-- The route records (R22). -/
  routes : Table Route
  /-- The route version counters (R22). -/
  versions : Table Nat
  /-- The pending route list, oldest first (R34). -/
  waiting : List PendingEntry
  /-- Dispatch-loss closure is in force (R39). -/
  dlcClosed : Bool
  /-- Radio-loss closure is in force (R40). -/
  rlcClosed : Bool
  /-- The carrier records (R52). -/
  carriers : Table Carrier
  /-- The unregistered-report counter (R54). -/
  unregistered : Nat
  /-- The part time of the last UNKNOWN_CARRIER per id 0 to 95; key 96 is shared by the ids above (R54). -/
  unknownTimes : Table Time
  /-- The crane records (R96). -/
  cranes : Table Crane
  /-- The crane links (R108). -/
  craneLinks : Table CraneLink
  /-- The radio links (R119). -/
  radios : Table RadioLink
  /-- The learning table (R125). -/
  learning : Table LearnEntry
  /-- The last event sequence per carrier (R124). -/
  eventSeqs : Table Nat
  /-- The flush sweep (R130). -/
  flush : Option Flush
  /-- The cycle state of the Picture Broadcaster (R136). -/
  cycle : Cycle
  /-- The dispatch links, A under key 0 and B under key 1 (R144). -/
  dispatch : Table DispatchLink
  /-- The part time at which dispatch loss began, present while it is in force (R152, R153). -/
  lossSince : Option Time
  deriving DecidableEq, Repr

/-- No command of the part faults: a frame that is wrong is counted, discarded or refused by a reply, and every event
is taken or has no effect, so this type has no constructor (safe: nothing is stopped). -/
inductive Fault where
  deriving DecidableEq, Repr

/-- Why a step has no meaning. -/
inductive Refusal where
  /-- Raised only by an arm of exec for a command that has no meaning yet; no arm raises it (safe). -/
  | notModelled (mnemonic : String)
  deriving DecidableEq, Repr

/-- The image of a part that was never saved: its checksum does not match (log entry 4). -/
def Image.blank : Image := ⟨false, Settings.default⟩

/-- The part right after reset with an image that is not valid (R168): CONFIG mode, defaults of every block, all links
DOWN, and both closures in force by the first link state and dispatch-loss reports (R120, R155); the one segment of
the default grid takes part in neither closure. -/
def State.reset : State where
  pending := []
  now := 0
  mode := .config
  recoveryStart := none
  cfg := Settings.default
  image := Image.blank
  save := none
  segs := Table.filled 1 SegDyn.fresh
  routes := Table.empty
  versions := Table.empty
  waiting := []
  dlcClosed := true
  rlcClosed := true
  carriers := Table.empty
  unregistered := 0
  unknownTimes := Table.empty
  cranes := Table.filled 8 (Crane.fresh 0 0 0)
  craneLinks := Table.filled 8 CraneLink.fresh
  radios := Table.filled 4 (RadioLink.fresh .down)
  learning := Table.empty
  eventSeqs := Table.empty
  flush := none
  cycle := Cycle.fresh
  dispatch := Table.filled 2 DispatchLink.fresh
  lossSince := some 0

end Sys2Proof.Machine
end

