-- ==== Sys2Proof/Machine/Ops.lean ====
section
/-! DEFINITION. The named operations the meanings share: keyed tables, part time, saturating counters, and the reads
and updates of each block's records. -/

namespace Sys2Proof

/-- The value of the first row under a key. -/
def findRow {α : Type} (k : Nat) : List (Nat × α) → Option α
  | [] => none
  | (j, v) :: rest => if j = k then some v else findRow k rest

/-- The rows with a value put under a key, in place or before the first higher key. -/
def putRow {α : Type} (k : Nat) (v : α) : List (Nat × α) → List (Nat × α)
  | [] => [(k, v)]
  | (j, u) :: rest =>
    if k < j then (k, v) :: (j, u) :: rest
    else if k = j then (k, v) :: rest
    else (j, u) :: putRow k v rest

/-- The value under a key, if there is one. -/
def Table.get? {α : Type} (t : Table α) (k : Nat) : Option α := findRow k t.rows

/-- The value under a key, or `d` where there is none. -/
def Table.get {α : Type} (t : Table α) (k : Nat) (d : α) : α := (t.get? k).getD d

/-- The table with a value put under a key. -/
def Table.put {α : Type} (t : Table α) (k : Nat) (v : α) : Table α := ⟨putRow k v t.rows⟩

/-- The table without a key. -/
def Table.del {α : Type} (t : Table α) (k : Nat) : Table α := ⟨t.rows.filter (fun p => p.1 ≠ k)⟩

/-- Whether a key has a row. -/
def Table.has {α : Type} (t : Table α) (k : Nat) : Bool := (t.get? k).isSome

/-- The keys in rising order. -/
def Table.keys {α : Type} (t : Table α) : List Nat := t.rows.map (fun p => p.1)

/-- The keys whose value passes a test, in rising order. -/
def Table.keysWhere {α : Type} (t : Table α) (p : α → Bool) : List Nat :=
  (t.rows.filter (fun r => p r.2)).map (fun r => r.1)

/-- The number of rows whose value passes a test. -/
def Table.countWhere {α : Type} (t : Table α) (p : α → Bool) : Nat := (t.rows.filter (fun r => p r.2)).length

/-- The table with every value replaced. -/
def Table.mapVals {α β : Type} (t : Table α) (f : α → β) : Table β := ⟨t.rows.map (fun r => (r.1, f r.2))⟩

/-- The rows that pass a test. -/
def Table.filter {α : Type} (t : Table α) (p : Nat → α → Bool) : Table α := ⟨t.rows.filter (fun r => p r.1 r.2)⟩

/-- The canonical form of a table: strictly rising keys, so that equal tables are equal data. -/
abbrev Table.Sorted {α : Type} (t : Table α) : Prop := t.rows.Pairwise (fun a b => a.1 < b.1)

/-- The key of a dispatch link, which is its QUERY_LINK selector code too (R172). -/
def DLink.key : DLink → Nat
  | .a => 0
  | .b => 1

/-- The other dispatch link. -/
def DLink.other : DLink → DLink
  | .a => .b
  | .b => .a

end Sys2Proof

namespace Sys2Proof.Machine

/-! ## Arithmetic -/

/-- The ms elapsed since a part time, modulo the wrap (R163). -/
def elapsed (now since : Time) : Nat := (now - since).toNat

/-- A deadline is reached when at least as much time has passed since it was set as it allows (R163). -/
def reached (now set deadline : Time) : Bool := decide (elapsed now set ≥ elapsed deadline set)

/-- A part time some ms later (R163). -/
def later (t : Time) (ms : Nat) : Time := t + BitVec.ofNat 32 ms

/-- A counter that saturates at 65 535 (00_scope, Counters). -/
def bump16 (n : Nat) : Nat := min (n + 1) 65535

/-- A counter that wraps from 255 to 0 (R22, R136). -/
def wrap8 (n : Nat) : Nat := (n + 1) % 256

/-- A value replaced by the nearest limit of its range (00_scope, Clamped). -/
def clampTo (lo hi n : Nat) : Nat := max lo (min n hi)

/-- A quotient rounded up (R84, R88, R91). -/
def ceilDiv (a b : Nat) : Nat := (a + b - 1) / b

/-- One binary place of a square root: keep the place when its square still fits. -/
def sqrtBits (n : Nat) : Nat → Nat → Nat
  | 0, r => r
  | i + 1, r => sqrtBits n i (if (r + 2 ^ i) * (r + 2 ^ i) ≤ n then r + 2 ^ i else r)

/-- The square root rounded down, for numbers below 2^40; R85's product is at most 75 000 000. -/
def isqrt (n : Nat) : Nat := sqrtBits n 20 0

/-- The least element a test accepts, with its place, counted from `i`. -/
def firstWhere {α : Type} (p : α → Bool) : List α → Nat → Option (Nat × α)
  | [], _ => none
  | a :: rest, i => if p a then some (i, a) else firstWhere p rest (i + 1)

/-- The entry of a list at a place, or a default. -/
def nth {α : Type} (l : List α) (i : Nat) (d : α) : α := l.getD i d

/-- The place of an id in a list. -/
def placeOf (l : List Nat) (x : Nat) : Option Nat := (firstWhere (fun y => decide (y = x)) l 0).map (fun p => p.1)

/-! ## The Track Table (R1, R4, R5) -/

/-- The cell count (R1). -/
def Grid.cellCount (g : Grid) : Nat := g.lanes * g.bays

/-- The static record of an id (R2). -/
def Grid.record (g : Grid) (i : Nat) : SegStatic := g.cells.get i SegStatic.default

/-- An id is inside the grid when it is less than the cell count (R1). -/
def Grid.inside (g : Grid) (i : Nat) : Bool := decide (i < g.cellCount)

/-- The lane of an id (R1). -/
def Grid.laneOf (g : Grid) (i : Nat) : Nat := i / g.bays

/-- The bay of an id (R1). -/
def Grid.bayOf (g : Grid) (i : Nat) : Nat := i - g.bays * (i / g.bays)

/-- The id at a lane and bay (R1). -/
def Grid.idAt (g : Grid) (lane bay : Nat) : Nat := lane * g.bays + bay

/-- The answer to "Usable?" (R5). -/
def Grid.usable (g : Grid) (i : Nat) : Bool := g.inside i && (g.record i).usable

/-- The answer to "Kind?" (R5). -/
def Grid.kindOf (g : Grid) (i : Nat) : SegKind := if g.inside i then (g.record i).kind else .lane

/-- A usable GATE (R3, R60, R62). -/
def Grid.isGate (g : Grid) (i : Nat) : Bool := g.usable i && decide (g.kindOf i = .gate)

/-- The answer to "Length?" (R5). -/
def Grid.lengthOf (g : Grid) (i : Nat) : Nat := (g.record i).length

/-- The answer to "Speed limit?" (R5). -/
def Grid.limitOf (g : Grid) (i : Nat) : Nat := (g.record i).limit

/-- Adjacency from a lower to a higher place (R4): along a lane, or across lanes by the lower lane's cross-next. -/
def Grid.adjacentUp (g : Grid) (i j : Nat) : Bool :=
  (decide (g.laneOf i = g.laneOf j) && decide (g.bayOf i + 1 = g.bayOf j))
    || (decide (g.bayOf i = g.bayOf j) && decide (g.laneOf i + 1 = g.laneOf j) && (g.record i).crossNext)

/-- Two segments are adjacent (R4). -/
def Grid.adjacent (g : Grid) (i j : Nat) : Bool :=
  g.usable i && g.usable j && (g.adjacentUp i j || g.adjacentUp j i)

/-- A segment lies on an edge of the grid (R13). -/
def Grid.onEdge (g : Grid) (i : Nat) : Bool :=
  decide (g.laneOf i = 0) || decide (g.laneOf i + 1 = g.lanes) || decide (g.bayOf i = 0)
    || decide (g.bayOf i + 1 = g.bays)

/-- The ids of a grid in ascending order. -/
def Grid.ids (g : Grid) : List Nat := List.range g.cellCount

/-! ## Reads and updates of the records -/

/-- The grid in force. -/
def State.grid (s : State) : Grid := s.cfg.grid

/-- The dynamic record of a segment (R17). -/
def State.seg (s : State) (i : Nat) : SegDyn := s.segs.get i SegDyn.fresh

/-- Write a dynamic record. -/
def State.putSeg (s : State) (i : Nat) (r : SegDyn) : State := { s with segs := s.segs.put i r }

/-- The record of a registered carrier (R52). -/
def State.carrier? (s : State) (c : Nat) : Option Carrier := s.carriers.get? c

/-- A carrier is registered (R47). -/
def State.registered (s : State) (c : Nat) : Bool := s.carriers.has c

/-- Write a carrier record. -/
def State.putCarrier (s : State) (c : Nat) (r : Carrier) : State := { s with carriers := s.carriers.put c r }

/-- Change a carrier record, where there is one. -/
def State.onCarrier (s : State) (c : Nat) (f : Carrier → Carrier) : State :=
  match s.carrier? c with
  | some r => s.putCarrier c (f r)
  | none => s

/-- A carrier is registered and in a state. -/
def State.carrierIs (s : State) (c : Nat) (st : CarrierState) : Bool :=
  match s.carrier? c with
  | some r => decide (r.state = st)
  | none => false

/-- The class of a registered carrier (R47). -/
def State.classOf (s : State) (c : Nat) : Nat := s.cfg.roster.get c 0

/-- The class record of a class number (R49). -/
def State.classVals (s : State) (k : Nat) : ClassVals := s.cfg.classes.get k ClassVals.default

/-- The route record of a carrier (R22). -/
def State.route? (s : State) (c : Nat) : Option Route := s.routes.get? c

/-- The route version counter of a carrier (R22). -/
def State.version (s : State) (c : Nat) : Nat := s.versions.get c 0

/-- The pending entry of a carrier (R34). -/
def State.entry? (s : State) (c : Nat) : Option PendingEntry := s.waiting.find? (fun e => decide (e.carrier = c))

/-- Remove the pending entry of a carrier; the younger entries close up (R29, R34). -/
def State.dropEntry (s : State) (c : Nat) : State :=
  { s with waiting := s.waiting.filter (fun e => decide (e.carrier ≠ c)) }

/-- The configuration of a crane (R93). -/
def State.craneCfg (s : State) (k : Nat) : CraneConfig := s.cfg.cranes.get k CraneConfig.default

/-- The record of a crane (R96). -/
def State.crane (s : State) (k : Nat) : Crane := s.cranes.get k (Crane.fresh 0 0 0)

/-- Change the record of a crane. -/
def State.onCrane (s : State) (k : Nat) (f : Crane → Crane) : State :=
  { s with cranes := s.cranes.put k (f (s.crane k)) }

/-- A crane link (R108). -/
def State.craneLink (s : State) (k : Nat) : CraneLink := s.craneLinks.get k CraneLink.fresh

/-- Change a crane link. -/
def State.onCraneLink (s : State) (k : Nat) (f : CraneLink → CraneLink) : State :=
  { s with craneLinks := s.craneLinks.put k (f (s.craneLink k)) }

/-- The configuration of a radio link (R118). -/
def State.radioCfg (s : State) (r : Nat) : RadioConfig := s.cfg.radios.get r RadioConfig.default

/-- A radio link (R119). -/
def State.radio (s : State) (r : Nat) : RadioLink := s.radios.get r (RadioLink.fresh .unconfigured)

/-- Change a radio link. -/
def State.onRadio (s : State) (r : Nat) (f : RadioLink → RadioLink) : State :=
  { s with radios := s.radios.put r (f (s.radio r)) }

/-- A dispatch link (R144). -/
def State.dlink (s : State) (l : DLink) : DispatchLink := s.dispatch.get l.key DispatchLink.fresh

/-- Change a dispatch link. -/
def State.onDlink (s : State) (l : DLink) (f : DispatchLink → DispatchLink) : State :=
  { s with dispatch := s.dispatch.put l.key (f (s.dlink l)) }

/-- The configured timeout of a dispatch link (R145). -/
def State.dtimeout (s : State) : DLink → Nat
  | .a => s.cfg.timeoutA
  | .b => s.cfg.timeoutB

/-- The QUERY_LINK selector code of a radio link (R172). -/
def radioSelector (r : Nat) : Nat := r + 2

/-- The radio links that are UP, in ascending order (R127). -/
def State.upLinks (s : State) : List Nat := (List.range 4).filter (fun r => decide ((s.radio r).state = .up))

end Sys2Proof.Machine
end

