-- ==== Sys2Proof/Machine/Operands.lean ====
section
/-! DEFINITION. How operands are read (R172): enumerations, yes and no, ids with NONE, flag bits, rectangles clamped to
the grid; and the codes and values that replies and notifications carry (R148, R172, R174). -/

namespace Sys2Proof.Machine

/-! ## Reading fields -/

/-- The wire value of NONE in a 2-byte id field (R172). -/
def noneId : Nat := 65535

/-- A 2-byte id field, where 65535 is NONE (R172). -/
def idOf (n : Nat) : Option Nat := if n = noneId then none else some n

/-- Yes is 1 and no is 0; any other value is outside the enumeration (R172). -/
def readYesNo : Nat → Option Bool
  | 0 => some false
  | 1 => some true
  | _ => none

/-- The kind field of SET_SEGMENT (R175). -/
def readSegKind : Nat → Option SegKind
  | 0 => some .lane
  | 1 => some .gate
  | _ => none

/-- The closure set of SET_SEGMENT: bit 0 DLC, bit 1 RLC, any other bit refused (R8, R172). -/
def readClosure (n : Nat) : Option (Bool × Bool) :=
  if n < 4 then some (n.testBit 0, n.testBit 1) else none

/-- The early policy field (R175). -/
def readEarly : Nat → Option EarlyPolicy
  | 0 => some .drop
  | 1 => some .fault
  | _ => none

/-- The fault policy field (R175). -/
def readFaultPolicy : Nat → Option FaultPolicy
  | 0 => some .slot
  | 1 => some .all
  | _ => none

/-- The crossing select field (R175). -/
def readCrossing : Nat → Option CrossSelect
  | 0 => some .nothing
  | 1 => some .down
  | 2 => some .up
  | 3 => some .both
  | _ => none

/-- The broadcast mode field (R175). -/
def readBroadcastMode : Nat → Option BroadcastMode
  | 0 => some .off
  | 1 => some .continuous
  | 2 => some .onChange
  | 3 => some .oneShot
  | _ => none

/-- The frame kind field of a copy rule (R175). -/
def readCopyKind : Nat → Option CopyKind
  | 0 => some .report
  | 1 => some .any
  | _ => none

/-- The flag match field of a copy rule (R175). -/
def readFlagMatch : Nat → Option FlagMatch
  | 0 => some .nothing
  | 1 => some .fault
  | 2 => some .laden
  | _ => none

/-- The target link field of a copy rule (R175). -/
def readTarget : Nat → Option DLink
  | 0 => some .a
  | 1 => some .b
  | _ => none

/-- The flags byte of a carrier report: bits 0 to 2 are named, the others ignored (R172, R174). -/
def readCarrierFlags (n : Nat) : CarrierFlags := ⟨n.testBit 0, n.testBit 1, n.testBit 2⟩

/-- The flags byte of a crane report: bits 0 and 1 are named, the others ignored (R172, R174). -/
def readCraneFlags (n : Nat) : CraneFlags := ⟨n.testBit 0, n.testBit 1⟩

/-- The trolley slot byte of a crane report: 255 is NONE (R174), any other value a number (R172), which the record keeps
(log entry 68). -/
def readTrolley (n : Nat) : Option Nat := if n = 255 then none else some n

/-- The largest of 1, 2, 4 and 8 not above a filter length, and 1 below 1 (R94). -/
def filterLength (n : Nat) : Nat := if n ≥ 8 then 8 else if n ≥ 4 then 4 else if n ≥ 2 then 2 else 1

/-- The largest acceptance window not above a value, and 25 below 25 (R50). -/
def windowStep (n : Nat) : Nat := if n ≥ 100 then 100 else if n ≥ 75 then 75 else if n ≥ 50 then 50 else 25

/-- The members of a slot enable set that index a list of this length (R94). -/
def enableWithin (length : Nat) (set : BitVec 4) : BitVec 4 := set &&& BitVec.ofNat 4 (2 ^ length - 1)

/-- A first place and a count, clamped to an extent as SEGMENT_BLOCK does: the first into the extent, the count to what
is left of it (R38). -/
def clampSpan (extent first count : Nat) : Nat × Nat :=
  let f := clampTo 0 (extent - 1) first
  (f, clampTo 1 (extent - f) count)

/-- A rectangle clamped to the grid (R38). -/
def clampRect (g : Grid) (r : Rect) : Rect :=
  let l := clampSpan g.lanes r.lane r.lanes
  let b := clampSpan g.bays r.bay r.bays
  ⟨l.1, l.2, b.1, b.2⟩

/-- The ids of a rectangle inside the grid, lane by lane in ascending order. -/
def rectIds (g : Grid) (r : Rect) : List Nat :=
  (List.range r.lanes).flatMap (fun l => (List.range r.bays).map (fun b => g.idAt (r.lane + l) (r.bay + b)))

/-! ## Codes (R172, R174) -/

/-- The code of a status (R174). -/
def Status.code : Status → Nat
  | .granted => 0 | .accepted => 1 | .queued => 2 | .refused => 3 | .busy => 4

/-- The code of a reason (R174). -/
def Reason.code : Reason → Nat
  | .none_ => 0 | .badMode => 1 | .badKind => 2 | .badLength => 3 | .badValue => 4 | .badSegment => 5
  | .unknownCarrier => 6 | .unknownCrane => 7 | .badClass => 8 | .alreadyRegistered => 9 | .badCarrierState => 10
  | .badCraneState => 11 | .routeActive => 12 | .noRoute => 13 | .notAtStart => 14 | .notAdjacent => 15
  | .repeated => 16 | .tooLong => 17 | .locked => 18 | .conflict => 19 | .outOfService => 20 | .intruded => 21
  | .queueFull => 22 | .notPending => 23 | .noSighting => 24 | .moving => 25 | .invalid => 26 | .tooEarly => 27
  | .busyApron => 28 | .inTransit => 29 | .claimActive => 30 | .badSlot => 31 | .slotDisabled => 32 | .noClaim => 33
  | .hoistDown => 34 | .badBay => 35 | .sameBay => 36 | .faultActive => 37 | .sweep => 38 | .cycle => 39 | .save => 40

/-- The code of a notification kind (R172). -/
def NotifKind.code : NotifKind → Nat
  | .carrierState => 0 | .unknownCarrier => 1 | .earlyReport => 2 | .carrierMissing => 3 | .carrierLost => 4
  | .overspeed => 5 | .intrusion => 6 | .entryBlocked => 7 | .pendingGranted => 8 | .pendingExpired => 9
  | .pendingStale => 10 | .pendingDropped => 11 | .replaced => 12 | .claimLapsed => 13 | .hoistViolation => 14
  | .gantryViolation => 15 | .craneFault => 16 | .hoistCrossing => 17 | .travelDone => 18 | .craneLinkDown => 19
  | .craneLinkUp => 20 | .radioDown => 21 | .radioUp => 22 | .dispatchLost => 23 | .dispatchRegained => 24
  | .broadcastDone => 25 | .flushDone => 26 | .saveDone => 27 | .saveFailed => 28 | .mode => 29 | .dropped => 30
  | .copy => 31

/-- The code of a part mode (R172). -/
def PartMode.code : PartMode → Nat
  | .config => 0 | .recovery => 1 | .active => 2

/-- The code of a carrier state (R172). -/
def CarrierState.code : CarrierState → Nat
  | .offline => 0 | .away => 1 | .idle => 2 | .authorized => 3 | .emergency => 4 | .missing => 5 | .lost => 6

/-- The code of a carrier state where there is no record (R172). -/
def noState : Nat := 255

/-- The code of an emergency cause (R172). -/
def EmergencyCause.code : EmergencyCause → Nat
  | .overspeed => 0 | .deviation => 1 | .movedUnderLoad => 2 | .hoistViolation => 3 | .gantryViolation => 4
  | .earlyReport => 5 | .carrierFault => 6

/-- The code of an entry-block reason (R172). -/
def EntryReason.code : EntryReason → Nat
  | .carrierFault => 0 | .badSegment => 1 | .notGate => 2 | .moving => 3 | .conflict => 4

/-- The code of a crane state (R172). -/
def CraneState.code : CraneState → Nat
  | .offline => 0 | .standing => 1 | .travelling => 2 | .halted => 3 | .linkLost => 4

/-- The code of a claim phase (R172). -/
def ClaimPhase.code : ClaimPhase → Nat
  | .granted => 0 | .inUse => 1 | .raised => 2

/-- The code of a filtered or sample class (R172). -/
def HoistClass.code : HoistClass → Nat
  | .unknown => 0 | .up => 1 | .down t => 2 + t

/-- The code of a segment kind (R175). -/
def SegKind.code : SegKind → Nat
  | .lane => 0 | .gate => 1

/-- The code of a hold kind (R172). -/
def HoldKind.code : HoldKind → Nat
  | .route => 0 | .standing => 1 | .leg => 2 | .travel => 3

/-- The code of a segment condition (R172). -/
def Hold.code : Hold → Nat
  | .free => 0 | .held _ _ => 1 | .frozen _ _ => 2

/-- The code of a picture code (R174). -/
def PictureCode.code : PictureCode → Nat
  | .free => 0 | .held => 1 | .locked => 2 | .closed => 3

/-- The code of a command (R174). -/
def Command.code : Command → Nat
  | .proceed => 0 | .hold => 1 | .stopNow => 2 | .emergency => 3

/-- The code of a radio link state (R172). -/
def RadioState.code : RadioState → Nat
  | .down => 0 | .up => 1 | .unconfigured => 2

/-- The code of a broadcast mode (R175). -/
def BroadcastMode.code : BroadcastMode → Nat
  | .off => 0 | .continuous => 1 | .onChange => 2 | .oneShot => 3

/-- The code of an early policy (R175). -/
def EarlyPolicy.code : EarlyPolicy → Nat
  | .drop => 0 | .fault => 1

/-- The code of a fault policy (R175). -/
def FaultPolicy.code : FaultPolicy → Nat
  | .slot => 0 | .all => 1

/-- The code of a crossing select (R175). -/
def CrossSelect.code : CrossSelect → Nat
  | .nothing => 0 | .down => 1 | .up => 2 | .both => 3

/-- The code of a copy rule's frame kind (R175). -/
def CopyKind.code : CopyKind → Nat
  | .report => 0 | .any => 1

/-- The code of a copy rule's flag match (R175). -/
def FlagMatch.code : FlagMatch → Nat
  | .nothing => 0 | .fault => 1 | .laden => 2

/-- The code of a yes or no, or of a bit that is set or clear (R172). -/
def bitCode (b : Bool) : Nat := if b then 1 else 0

/-- A hoist lock reason set as its bits (R172). -/
def Reasons.code (r : Reasons) : Nat :=
  bitCode r.claim + 2 * bitCode r.violation + 4 * bitCode r.fault + 8 * bitCode r.link

/-- An out-of-service set as its bits (R172). -/
def OutOfService.code (o : OutOfService) : Nat := bitCode o.block + 2 * bitCode o.dlc + 4 * bitCode o.rlc

/-- Carrier flags as their bits (R174). -/
def CarrierFlags.code (f : CarrierFlags) : Nat := bitCode f.parked + 2 * bitCode f.fault + 4 * bitCode f.laden

/-- Crane flags as their bits (R174). -/
def CraneFlags.code (f : CraneFlags) : Nat := bitCode f.stopped + 2 * bitCode f.sensorFault

/-! ## Values of details -/

/-- An id field, NONE as 65535 (R172). -/
def idVal (i : Option Nat) : Val := .half (i.getD noneId)

/-- A part time (R172). -/
def timeVal (t : Time) : Val := .word t.toNat

/-- A part time that may be absent. -/
def timeVal? : Option Time → Val
  | some t => timeVal t
  | none => .absent 4

/-- A remaining time that may be stopped. -/
def timerVal? : Option Nat → Val
  | some t => .word t
  | none => .absent 4

/-- A 1-byte value that may be absent. -/
def byteVal? : Option Nat → Val
  | some n => .byte n
  | none => .absent 1

/-- A 2-byte value that may be absent. -/
def halfVal? : Option Nat → Val
  | some n => .half n
  | none => .absent 2

/-- A yes or no. -/
def boolVal (b : Bool) : Val := .byte (bitCode b)

/-- A holder, intruder or other party: a type byte and an id (R172). -/
def partyVals : Option Party → List Val
  | none => [.byte 0, .half noneId]
  | some (.carrier c) => [.byte 1, .half c]
  | some (.crane k) => [.byte 2, .half k]

/-- A list in a detail: a 1-byte count and its values (R174). -/
def listVals (n : Nat) (vs : List Val) : List Val := .byte n :: vs

/-- The cranes of a hoist lock, in ascending order of id (log entry 66). -/
def lockCranes (t : Table Reasons) : List Val := listVals t.keys.length (t.keys.map Val.half)

/-- A hoist lock with each crane and its reasons, in ascending order of the crane id (log entry 66). -/
def lockVals (t : Table Reasons) : List Val :=
  listVals t.keys.length (t.rows.flatMap (fun r => [.half r.1, .byte r.2.code]))

/-- A refusal with a detail (R148). -/
def refuse (kind : Nat) (reason : Reason) (detail : List Val) : Reply := ⟨kind, .refused, reason, false, detail⟩

/-- A refusal BAD_VALUE that names the field in this place of the request's layout (R172). -/
def refuseField (kind place : Nat) : Reply := refuse kind .badValue [.field place]

/-- An ACCEPTED reply with a detail (R148). -/
def accept (kind : Nat) (clamped : Bool) (detail : List Val) : Reply := ⟨kind, .accepted, .none_, clamped, detail⟩

/-- A BUSY reply with the operation in progress (R148). -/
def busyReply (kind : Nat) (operation : Reason) (detail : List Val) : Reply := ⟨kind, .busy, operation, false, detail⟩

end Sys2Proof.Machine
end

