-- ==== Sys2Proof/Machine/Flags.lean ====
section
/-! DEFINITION. The conditions the part derives from its records: who holds a segment, its picture code, whether it is
an obstacle or available, the effective broadcast mode and window, and the validation of the berth. -/

namespace Sys2Proof.Machine

/-! ## Conditions of a dynamic segment record -/

/-- The holder of a segment, present when it is HELD or FROZEN (R17). -/
def SegDyn.holder (r : SegDyn) : Option Party :=
  match r.hold with
  | .free => none
  | .held p _ => some p
  | .frozen p _ => some p

/-- The segment is FREE (R17). -/
def SegDyn.isFree (r : SegDyn) : Bool := decide (r.hold = .free)

/-- The segment is HELD by a party under any kind. -/
def SegDyn.heldBy (r : SegDyn) (p : Party) : Bool :=
  match r.hold with
  | .held q _ => decide (q = p)
  | _ => false

/-- The segment is FROZEN under a party. -/
def SegDyn.frozenBy (r : SegDyn) (p : Party) : Bool :=
  match r.hold with
  | .frozen q _ => decide (q = p)
  | _ => false

/-- The segment is HELD by a party or FROZEN under it. -/
def SegDyn.ownedBy (r : SegDyn) (p : Party) : Bool := decide (r.holder = some p)

/-- The segment is one of a carrier's STANDING segments. -/
def SegDyn.standingOf (r : SegDyn) (c : Nat) : Bool := decide (r.hold = .held (.carrier c) .standing)

/-- The out-of-service set is empty (R17). -/
def OutOfService.inService (o : OutOfService) : Bool := !o.block && !o.dlc && !o.rlc

/-- The segment is in service (R17). -/
def SegDyn.inService (r : SegDyn) : Bool := r.oos.inService

/-- The segment carries a hoist lock (R17). -/
def SegDyn.isLocked (r : SegDyn) : Bool := !r.lock.rows.isEmpty

/-- The picture condition code (R18). -/
def SegDyn.picture (r : SegDyn) : PictureCode :=
  if !r.inService || (match r.hold with | .frozen _ _ => true | _ => false) || r.intruder.isSome then .closed
  else if r.isLocked then .locked
  else match r.hold with
    | .held _ _ => .held
    | _ => .free

/-- The segment has an intruder other than a carrier (R19). -/
def SegDyn.intrudedFor (r : SegDyn) (c : Nat) : Bool :=
  match r.intruder with
  | some p => decide (p ≠ .carrier c)
  | none => false

/-- The segment is an obstacle to a carrier (R19). -/
def SegDyn.obstacle (r : SegDyn) (c : Nat) : Bool := !r.inService || r.intrudedFor c || r.isLocked

/-- The first cause, in the order held, out of service, locked, intruded, for which a segment is not available (R19);
none when it is available. -/
def SegDyn.blockCause (r : SegDyn) : Option Reason :=
  if !r.isFree then some .conflict
  else if !r.inService then some .outOfService
  else if r.isLocked then some .locked
  else if r.intruder.isSome then some .intruded
  else none

/-- A change of a record that calls for re-examination of the pending list (R21): it became FREE, its out-of-service
set became empty, its hoist lock was removed, or its intruder was cleared. -/
def SegDyn.callsFor (old new : SegDyn) : Bool :=
  (!old.isFree && new.isFree) || (!old.inService && new.inService) || (old.isLocked && !new.isLocked)
    || (old.intruder.isSome && new.intruder.isNone)

/-- The segments HELD by a party, ascending. -/
def State.heldBy (s : State) (p : Party) : List Nat := s.segs.keysWhere (fun r => r.heldBy p)

/-- The segments FROZEN under a party, ascending. -/
def State.frozenBy (s : State) (p : Party) : List Nat := s.segs.keysWhere (fun r => r.frozenBy p)

/-- The segments HELD by a party or FROZEN under it, ascending. -/
def State.ownedBy (s : State) (p : Party) : List Nat := s.segs.keysWhere (fun r => r.ownedBy p)

/-- The STANDING segments of a carrier, its front first and the others ascending (log entry 25). -/
def State.standing (s : State) (c : Nat) : List Nat :=
  let all := s.segs.keysWhere (fun r => r.standingOf c)
  match (s.carrier? c).bind (fun r => r.front) with
  | some f => if all.contains f then f :: all.erase f else all
  | none => all

/-- The first STANDING segment of a carrier that carries a hoist lock (R24 check 10, R34 step 1). -/
def State.lockedStanding (s : State) (c : Nat) : Option Nat := (s.standing c).find? (fun i => (s.seg i).isLocked)

/-- The first segment of a list that is neither the carrier's own standing segment nor available, with the cause
(R25, R34). -/
def State.firstUnavailable (s : State) (c : Nat) (list : List Nat) : Option (Nat × Reason) :=
  list.findSome? (fun i =>
    let r := s.seg i
    if r.standingOf c then none else r.blockCause.map (fun why => (i, why)))

/-! ## The picture -/

/-- The effective broadcast mode (R142). -/
def State.effectiveMode (s : State) : BroadcastMode :=
  if s.mode = .active then s.cfg.broadcast.mode else .off

/-- A stored first place and count clamped to an extent, the first reduced so that the window fits (R134). -/
def windowSpan (extent first count : Nat) : Nat × Nat :=
  let n := clampTo 1 extent count
  (clampTo 0 (extent - n) first, n)

/-- The effective window of a stored configuration on a grid (R134). -/
def BroadcastConfig.windowOn (b : BroadcastConfig) (g : Grid) : Rect :=
  let l := windowSpan g.lanes b.lane b.lanes
  let c := windowSpan g.bays b.bay b.bays
  ⟨l.1, l.2, c.1, c.2⟩

/-- The effective window (R134). -/
def State.window (s : State) : Rect := s.cfg.broadcast.windowOn s.grid

/-- A segment is inside a window (R134). -/
def inWindow (r : Rect) (g : Grid) (i : Nat) : Bool :=
  decide (r.lane ≤ g.laneOf i) && decide (g.laneOf i < r.lane + r.lanes)
    && decide (r.bay ≤ g.bayOf i) && decide (g.bayOf i < r.bay + r.bays)

/-! ## Validation (R12 to R14) -/

/-- The items of the validation (R13, R14). -/
inductive ValidationItem where
  | noUsableSegment
  | gateNotOnEdge
  | legLaneOutside
  | legLanesOrder
  | slotOutsideLegs
  | slotLaneRepeated
  | legLanesDiffer
  deriving DecidableEq, Repr

/-- The item codes (R172). -/
def ValidationItem.code : ValidationItem → Nat
  | .noUsableSegment => 1 | .gateNotOnEdge => 2 | .legLaneOutside => 3 | .legLanesOrder => 4 | .slotOutsideLegs => 5
  | .slotLaneRepeated => 6 | .legLanesDiffer => 7

/-- A failing item with its subject and index (R12). -/
structure Failure where
  item : ValidationItem
  subject : Option Nat
  index : Nat
  deriving DecidableEq, Repr

/-- The grid items in their order (R13). -/
def Grid.failure (g : Grid) : Option Failure :=
  if g.ids.all (fun i => !(g.usable i)) then some ⟨.noUsableSegment, none, 255⟩
  else match g.ids.find? (fun i => g.isGate i && !(g.onEdge i)) with
    | some i => some ⟨.gateNotOnEdge, some i, 255⟩
    | none => none

/-- The lowest slot index whose lane equals the lane of a lower index (R14). -/
def repeatedSlot : List Nat → List Nat → Nat → Option Nat
  | _, [], _ => none
  | seen, l :: rest, i => if seen.contains l then some i else repeatedSlot (l :: seen) rest (i + 1)

/-- The crane items of one present crane, against the leg lanes of the lowest-numbered present crane (R14). -/
def CraneConfig.failure (c : CraneConfig) (k lanes : Nat) (ref : Nat × Nat) : Option Failure :=
  if c.waterside ≥ lanes then some ⟨.legLaneOutside, some k, 0⟩
  else if c.landside ≥ lanes then some ⟨.legLaneOutside, some k, 1⟩
  else if c.waterside ≥ c.landside then some ⟨.legLanesOrder, some k, 255⟩
  else match firstWhere (fun l => !(decide (c.waterside < l) && decide (l < c.landside))) c.slotLanes 0 with
    | some (t, _) => some ⟨.slotOutsideLegs, some k, t⟩
    | none => match repeatedSlot [] c.slotLanes 0 with
      | some t => some ⟨.slotLaneRepeated, some k, t⟩
      | none => if (c.waterside, c.landside) ≠ ref then some ⟨.legLanesDiffer, some k, 255⟩ else none

/-- The ids of the present cranes, ascending (R12). -/
def Settings.presentCranes (c : Settings) : List Nat :=
  (List.range 8).filter (fun k => (c.cranes.get k CraneConfig.default).present)

/-- The validation: the first failing item, or none for PASS (R12). -/
def Settings.validate (c : Settings) : Option Failure :=
  match c.grid.failure with
  | some f => some f
  | none =>
    let cfg := fun k => c.cranes.get k CraneConfig.default
    let ref := match c.presentCranes with
      | k :: _ => ((cfg k).waterside, (cfg k).landside)
      | [] => (0, 0)
    c.presentCranes.findSome? (fun k => (cfg k).failure k c.grid.lanes ref)

/-- A validation result as values: the code, and for a failing item its subject and index (R11, R12). -/
def resultVals : Option Failure → List Val
  | none => [.byte 0]
  | some f => [.byte f.item.code, idVal f.subject, .byte f.index]

end Sys2Proof.Machine
end

