-- ==== Sys2Proof/Machine/Notify.lean ====
section
/-! DEFINITION. The Notification Unit and the dispatch transmitters: posting, overflow, delivery, copies, and the
replies of the dispatch links (R147 to R149, R156 to R161). -/

namespace Sys2Proof.Machine

/-- Offer an entry to a notification queue: it joins a queue of fewer than 64 entries, and is dropped and counted by a
full one (R159). -/
def DispatchLink.offer (now : Time) (e : Notif) (d : DispatchLink) : DispatchLink :=
  if d.notifs.length < Config.notificationCapacity then { d with notifs := d.notifs ++ [e] }
  else { d with dropCount := bump16 d.dropCount, firstDrop := if d.dropCount = 0 then some now else d.firstDrop }

/-- Offer an entry to the queue of one link. -/
def State.offer (s : State) (l : DLink) (e : Notif) : State := s.onDlink l (DispatchLink.offer s.now e)

/-- Post a notification of an event to both queues, A and then B (R156). -/
def State.post (s : State) (kind : NotifKind) (subject : Subject) (detail : List Val) : State :=
  (s.offer .a ⟨kind, s.now, subject, detail⟩).offer .b ⟨kind, s.now, subject, detail⟩

/-- The DROPPED entry that joins after a completed notification, when entries were turned away (R159). -/
def DispatchLink.reportDrops (now : Time) (key : Nat) (d : DispatchLink) : DispatchLink :=
  if d.dropCount = 0 then d
  else { d with
    notifs := d.notifs ++ [⟨.dropped, now, .link key, [.half d.dropCount, timeVal? d.firstDrop]⟩]
    dropCount := 0
    firstDrop := none }

/-- An IDLE transmitter of an UP link takes the head of the reply queue, otherwise the head of the notification queue,
which stays in its queue while it is sent (R149, R158). -/
def DispatchLink.transmit (d : DispatchLink) : DispatchLink :=
  if d.up && decide (d.tx = .idle) then
    match d.replies with
    | r :: rest => { d with tx := .reply r, replies := rest }
    | [] => if d.notifs.isEmpty then d else { d with tx := .notification }
  else d

/-- Both dispatch transmitters look for a frame. They do so once a step has queued all it queues, so that the reply to
a frame goes before the notifications of the same step, as the worked sequence of Chapter 8 shows (log entry 5). -/
def State.pump (s : State) : State := (s.onDlink .a DispatchLink.transmit).onDlink .b DispatchLink.transmit

/-- A transmission completes (R149, R158): a notification leaves its queue, and the drop count is reported. -/
def DispatchLink.complete (now : Time) (key : Nat) (d : DispatchLink) : DispatchLink :=
  match d.tx with
  | .idle => d
  | .reply _ => { d with tx := .idle }
  | .notification => DispatchLink.reportDrops now key { d with tx := .idle, notifs := d.notifs.drop 1 }

/-- The link goes DOWN (R144): its replies, and a reply in transmission, are discarded and counted; a notification in
transmission stays at the head of its queue (R158); a partial frame is discarded (R171). -/
def DispatchLink.lose (d : DispatchLink) : DispatchLink :=
  let sending := match d.tx with | .reply _ => 1 | _ => 0
  { d with
    up := false
    timer := none
    rx := Receiver.hunting
    replies := []
    tx := .idle
    discarded := min (d.discarded + d.replies.length + sending) 65535 }

/-- A reply joins the reply queue at the end (R147 step 5). -/
def DispatchLink.enqueue (r : Reply) (d : DispatchLink) : DispatchLink := { d with replies := d.replies ++ [r] }

/-! ## Copies (R160, R161) -/

/-- How a carrier frame was taken, for its copies (R161). -/
inductive Disposition where
  | accepted
  | early
  | entry
  | sighting
  | addressing
  | event
  deriving DecidableEq, Repr

/-- The code of a disposition (R172). -/
def Disposition.code : Disposition → Nat
  | .accepted => 0 | .early => 1 | .entry => 2 | .sighting => 3 | .addressing => 4 | .event => 5

/-- A carrier frame as the copy rules see it: its carrier, its flags as prepared (none for an event), its disposition
and the bytes received, kind byte first. -/
structure CopyFrame where
  carrier : Nat
  flags : Option CarrierFlags
  disposition : Disposition
  bytes : List Byte
  deriving DecidableEq, Repr

/-- A carrier id has the value's digit in every binary place in which the mask has a one (R160). -/
def CopyRule.selects (r : CopyRule) (c : Nat) : Bool := decide (c &&& r.mask = r.value &&& r.mask)

/-- The flag test of a copy rule (R161). -/
def CopyRule.flagPasses (r : CopyRule) (flags : Option CarrierFlags) : Bool :=
  match r.flag, flags with
  | .nothing, _ => true
  | _, none => false
  | .fault, some f => f.fault
  | .laden, some f => f.laden

/-- A frame matches a rule (R161). -/
def CopyRule.matchesFrame (r : CopyRule) (f : CopyFrame) : Bool :=
  r.enable && (decide (r.kind = .any) || f.flags.isSome) && r.selects f.carrier && r.flagPasses f.flags

/-- The copy rules that a frame matches and that name a target link (R161), in ascending order (log entry 64). -/
def State.copyRulesFor (s : State) (f : CopyFrame) (l : DLink) : List Nat :=
  s.cfg.copyRules.keysWhere (fun r => r.matchesFrame f && decide (r.target = l))

/-- Offer a frame that arrived on a radio link to the copy rules: one COPY entry for each target link (R161), laid out as
log entry 52 says. -/
def State.copyTo (s : State) (radio : Nat) (f : CopyFrame) (l : DLink) : State :=
  let rules := s.copyRulesFor f l
  if rules.isEmpty then s
  else s.offer l ⟨.copy, s.now, .carrier f.carrier,
    [.byte (radioSelector radio), .byte f.disposition.code] ++ listVals rules.length (rules.map Val.byte)
      ++ [.raw f.bytes]⟩

/-- Offer a frame to the copy rules of both targets. -/
def State.copyFrame (s : State) (radio : Nat) (f : CopyFrame) : State := (s.copyTo radio f .a).copyTo radio f .b

end Sys2Proof.Machine
end

