-- ==== Sys2Proof/Machine/Radio.lean ====
section
/-! DEFINITION. The outbound side of the Radio Router: routing, the urgent and normal queues with their coalescing, and
the transmitters (R127 to R129); the learning table (R125). -/

namespace Sys2Proof.Machine

/-- A command that stands in the urgent queue (R87, R128). -/
def Command.urgent : Command → Bool
  | .stopNow => true
  | .emergency => true
  | .proceed => false
  | .hold => false

/-- A radio frame is an authority for this carrier. -/
def RadioFrame.isFor (c : Nat) : RadioFrame → Bool
  | .authority a => decide (a.carrier = c)
  | .row _ => false

/-- A radio frame is a picture row of this lane. -/
def RadioFrame.isRow (lane : Nat) : RadioFrame → Bool
  | .authority _ => false
  | .row r => decide (r.lane = lane)

/-- Replace the first entry that passes a test, keeping its position; otherwise join at the end (R128). -/
def joinQueue {α : Type} (p : α → Bool) (x : α) : List α → List α
  | [] => [x]
  | y :: rest => if p y then x :: rest else y :: joinQueue p x rest

/-- An authority joins a link's queues (R128): an urgent one also removes the carrier's normal one. -/
def RadioLink.join (a : Authority) (l : RadioLink) : RadioLink :=
  if a.command.urgent then
    { l with
      urgent := joinQueue (fun b => decide (b.carrier = a.carrier)) a l.urgent
      normal := l.normal.filter (fun f => !f.isFor a.carrier) }
  else { l with normal := joinQueue (RadioFrame.isFor a.carrier) (.authority a) l.normal }

/-- An IDLE transmitter of an UP link takes the head of the urgent queue, otherwise the head of the normal queue
(R129). -/
def RadioLink.transmit (l : RadioLink) : RadioLink :=
  if decide (l.state = .up) && l.sending.isNone then
    match l.urgent, l.normal with
    | a :: rest, _ => { l with urgent := rest, sending := some (.authority a) }
    | [], f :: rest => { l with normal := rest, sending := some f }
    | [], [] => l
  else l

/-- Queue an authority on one link, whose transmitter then looks for a frame (R128, R129). -/
def State.offerAuthority (s : State) (r : Nat) (a : Authority) : State :=
  s.onRadio r (fun l => (l.join a).transmit)

/-- The links an authority is routed to (R127): every UP link for an urgent authority of a MISSING or LOST carrier and
for a carrier without a learning entry, otherwise the link of the entry. -/
def State.authorityLinks (s : State) (a : Authority) (state : CarrierState) : List Nat :=
  if a.command.urgent && (decide (state = .missing) || decide (state = .lost)) then s.upLinks
  else match s.learning.get? a.carrier with
    | some e => s.upLinks.filter (fun r => decide (r = e.link))
    | none => s.upLinks

/-- Route an authority, with the carrier's state (R127). -/
def State.routeAuthority (s : State) (a : Authority) (state : CarrierState) : State :=
  (s.authorityLinks a state).foldl (fun s r => s.offerAuthority r a) s

/-- The fate of a queuing of a row of the cycle in progress: one more row sent or dropped, one less outstanding; a
report that would take the count below 0 changes nothing (R138). -/
def Cycle.fate (c : Cycle) (row : PictureRow) (wasSent : Bool) : Cycle :=
  if c.since.isSome && decide (row.cycle = c.number) && decide (0 < c.outstanding) then
    if wasSent then { c with sent := c.sent + 1, outstanding := c.outstanding - 1 }
    else { c with dropped := c.dropped + 1, outstanding := c.outstanding - 1 }
  else c

/-- The row of a lane that stands in a normal queue. -/
def RadioLink.rowOf (l : RadioLink) (lane : Nat) : Option PictureRow :=
  match l.normal.find? (RadioFrame.isRow lane) with
  | some (.row r) => some r
  | _ => none

/-- Queue a picture row on one link (R128): a row of the same lane gives up its place and is reported as dropped. -/
def State.offerRow (s : State) (r : Nat) (row : PictureRow) : State :=
  let s1 : State := match (s.radio r).rowOf row.lane with
    | some old => { s with cycle := s.cycle.fate old false }
    | none => s
  s1.onRadio r (fun l => RadioLink.transmit { l with normal := joinQueue (RadioFrame.isRow row.lane) (.row row) l.normal })

/-- Hand a picture row to the Radio Router (R127, R137 step 4): queued on every UP link and counted as outstanding, or
reported dropped when no link is UP. -/
def State.handRow (s : State) (row : PictureRow) : State :=
  let links := s.upLinks
  let s1 := links.foldl (fun s r => s.offerRow r row) s
  if links.isEmpty then { s1 with cycle := { s1.cycle with dropped := s1.cycle.dropped + 1 } }
  else { s1 with cycle := { s1.cycle with outstanding := s1.cycle.outstanding + links.length } }

/-- Set a carrier's learning entry to the link of a report that set its sequence (R125). -/
def State.learn (s : State) (c radio : Nat) : State :=
  { s with learning := s.learning.put c ⟨radio, s.now, later s.now (1000 * s.cfg.aging)⟩ }

end Sys2Proof.Machine
end

