-- ==== Sys2Proof/Machine/Picture.lean ====
section
/-! DEFINITION. The Picture Broadcaster: the cycle with its snapshot, rows and end, the rerun, and the changes of the
effective mode (R137 to R142). -/

namespace Sys2Proof.Machine

/-- The picture row of one lane of a window, from the records as they stand (R137). -/
def State.pictureRow (s : State) (w : Rect) (lane : Nat) : PictureRow :=
  ⟨s.cycle.number, lane, w.bay, (List.range w.bays).map (fun b => (s.seg (s.grid.idAt lane (w.bay + b))).picture)⟩

/-- Steps 1 to 4 of a cycle start (R137): the snapshot of the effective window, and its rows handed out. -/
def State.beginCycle (s : State) : State :=
  let w := s.window
  let rows := (List.range w.lanes).map (fun l => s.pictureRow w (w.lane + l))
  let s1 : State := { s with cycle :=
    { s.cycle with since := some s.now, rows := w.lanes, outstanding := 0, sent := 0, dropped := 0 } }
  rows.foldl State.handRow s1

/-- Steps 1 and 2 of a cycle end (R138): BROADCAST_DONE under the completion notice, the counts, and IDLE; the cycle number
takes 1 byte in a detail (log entry 9). -/
def State.closeCycle (s : State) : State :=
  let c := s.cycle
  let s1 := if s.cfg.broadcast.notice then
      s.post .broadcastDone .nothing
        [.byte c.number, .byte c.rows, .byte c.sent, .byte c.dropped, .word (elapsed s.now (c.since.getD s.now))]
    else s
  { s1 with cycle := { s1.cycle with
    since := none, completed := bump16 s1.cycle.completed, number := wrap8 s1.cycle.number } }

/-- A cycle whose rows have all met their fate ends (R138 steps 1 and 2). -/
def State.closeIfDone (s : State) : State :=
  if s.cycle.since.isSome && decide (s.cycle.outstanding = 0) then s.closeCycle else s

/-- Step 3 of a cycle end (R138): the rerun flag is cleared, and in ON_CHANGE a new cycle starts, which ends at once
when no row was queued. -/
def State.rerunCycle (s : State) : State :=
  if s.cycle.rerun then
    let s1 : State := { s with cycle := { s.cycle with rerun := false } }
    if s.effectiveMode = .onChange then s1.beginCycle.closeIfDone else s1
  else s

/-- A BUSY cycle with no outstanding row ends, and its rerun follows (R138). -/
def State.settleCycle (s : State) : State :=
  if s.cycle.since.isSome && decide (s.cycle.outstanding = 0) then s.closeCycle.rerunCycle else s

/-- A cycle starts (R137), and ends within the start when every row was queued on no link. -/
def State.startCycle (s : State) : State := s.beginCycle.settleCycle

/-- The Radio Router reports the fate of a queuing of a row (R138). -/
def State.rowFate (s : State) (row : PictureRow) (wasSent : Bool) : State :=
  State.settleCycle { s with cycle := s.cycle.fate row wasSent }

/-- A start in CONTINUOUS (R139): a cycle starts when IDLE, and the period is skipped and counted when BUSY. -/
def State.startOrSkip (s : State) : State :=
  if s.cycle.since.isSome then { s with cycle := { s.cycle with skipped := bump16 s.cycle.skipped } }
  else s.startCycle

/-- A start in ON_CHANGE (R140): a cycle starts when IDLE, and the rerun flag is set when BUSY. -/
def State.startOrRerun (s : State) : State :=
  if s.cycle.since.isSome then { s with cycle := { s.cycle with rerun := true } } else s.startCycle

/-- The Reservation Unit's report of the segments whose picture code changed (R140). -/
def State.pictureChange (s : State) (changed : List Nat) : State :=
  if s.effectiveMode = .onChange && changed.any (fun i => inWindow s.window s.grid i) then s.startOrRerun else s

/-- The effective mode has become `new` (R142). -/
def State.enterMode (s : State) (new : BroadcastMode) : State :=
  match new with
  | .continuous =>
    State.startOrSkip { s with cycle := { s.cycle with timer := some s.cfg.broadcast.period } }
  | .onChange => State.startOrRerun { s with cycle := { s.cycle with timer := none } }
  | .oneShot => { s with cycle := { s.cycle with timer := none, rerun := false } }
  | .off => { s with cycle := { s.cycle with timer := none, rerun := false } }

/-- Follow a change of the effective mode from what it was (R142). -/
def State.followMode (s : State) (old : BroadcastMode) : State :=
  if s.effectiveMode = old then s else s.enterMode s.effectiveMode

end Sys2Proof.Machine
end

