-- ==== Sys2Proof/Machine/Work.lean ====
section
/-! DEFINITION. A request while it is being taken (R21): the part as the request has left it so far, and what the end of
the request must act on. -/

namespace Sys2Proof.Machine

/-- A request in progress. -/
structure Work where
  /-- The part as the request has left it so far. -/
  s : State
  /-- The dynamic records as the request found them, for the code changes of R21. -/
  before : Table SegDyn
  /-- The segments whose record the request changed. -/
  touched : List Nat
  /-- The request made a change that calls for re-examination (R21). -/
  reexam : Bool
  /-- The carriers that the request concerns by their state, route or report (R75). -/
  runs : List Nat
  /-- The carriers whose route version the request itself incremented by a grant, extension or cancel (R83). -/
  bumped : List Nat
  /-- The carriers that entered IDLE from OFFLINE, AWAY or LOST (R90). -/
  settled : List Nat
  /-- The carrier whose report started the request (R76). -/
  report : Option Nat
  deriving DecidableEq, Repr

/-- A request as it begins. -/
def Work.start (s : State) (report : Option Nat) : Work := ⟨s, s.segs, [], false, [], [], [], report⟩

/-- Apply a change of the part that touches no segment record. -/
def Work.on (w : Work) (f : State → State) : Work := { w with s := f w.s }

/-- Post a notification within the request (R156). -/
def Work.post (w : Work) (kind : NotifKind) (subject : Subject) (detail : List Val) : Work :=
  w.on (fun s => s.post kind subject detail)

/-- Name a carrier for an authority run at the end of the request (R75). -/
def Work.concern (w : Work) (c : Nat) : Work := { w with runs := c :: w.runs }

/-- Change a carrier record within the request. -/
def Work.onCarrier (w : Work) (c : Nat) (f : Carrier → Carrier) : Work := w.on (fun s => s.onCarrier c f)

/-- Write a dynamic record (R21): a record that differs is remembered as changed, and may call for re-examination. -/
def Work.setSeg (w : Work) (i : Nat) (r : SegDyn) : Work :=
  let old := w.s.seg i
  if r = old then w
  else { w with
    s := w.s.putSeg i r
    touched := i :: w.touched
    reexam := w.reexam || SegDyn.callsFor old r }

/-- Change one dynamic record. -/
def Work.onSeg (w : Work) (i : Nat) (f : SegDyn → SegDyn) : Work := w.setSeg i (f (w.s.seg i))

/-- Change the dynamic records of a list of segments, in order. -/
def Work.onSegs (w : Work) (ids : List Nat) (f : SegDyn → SegDyn) : Work := ids.foldl (fun w i => w.onSeg i f) w

/-- A segment is granted to a holder with a kind (R17). -/
def SegDyn.hold_ (p : Party) (k : HoldKind) (r : SegDyn) : SegDyn := { r with hold := .held p k }

/-- A segment is released: holder and kind go, the other three fields stand (R17). -/
def SegDyn.release (r : SegDyn) : SegDyn := { r with hold := .free }

/-- A held segment is frozen, keeping holder and kind (R17, R44). -/
def SegDyn.freeze (r : SegDyn) : SegDyn :=
  match r.hold with
  | .held p k => { r with hold := .frozen p k }
  | _ => r

/-- Release a list of segments (R17). -/
def Work.release (w : Work) (ids : List Nat) : Work := w.onSegs ids SegDyn.release

end Sys2Proof.Machine
end

