-- ==== Sys2Proof/Machine/Supervise.lean ====
section
/-! DEFINITION. Changes of a carrier's state as the Carrier Supervisor makes them: notified, handed to the Authority
Calculator, and followed by the removal of a stale pending entry (R36, R53), and entry to EMERGENCY (R69). -/

namespace Sys2Proof.Machine

/-- The causes of PENDING_STALE (R36, R172). -/
inductive StaleCause where
  | leftIdle
  | frontMoved
  | deregistered
  deriving DecidableEq, Repr

/-- The code of a stale cause (R172). -/
def StaleCause.code : StaleCause → Nat
  | .leftIdle => 0 | .frontMoved => 1 | .deregistered => 2

/-- Remove a carrier's pending entry, if it has one, as PENDING_STALE with the tag and the cause (R36). -/
def Work.dropStale (w : Work) (c : Nat) (cause : StaleCause) : Work :=
  match w.s.entry? c with
  | some e => (w.on (fun s => s.dropEntry c)).post .pendingStale (.carrier c) [.half e.tag, .byte cause.code]
  | none => w

/-- Notify a change of state as CARRIER_STATE: the previous state, the new state and what else the rule names (R53). -/
def Work.notifyState (w : Work) (c old new : Nat) (extra : List Val) : Work :=
  w.post .carrierState (.carrier c) ([.byte old, .byte new] ++ extra)

/-- A state in which the supervision timer is stopped (R52). -/
def CarrierState.timerStops : CarrierState → Bool
  | .offline => true
  | .away => true
  | .lost => true
  | .idle => false
  | .authorized => false
  | .emergency => false
  | .missing => false

/-- Change the state of a carrier (R53): the record, CARRIER_STATE, the run, and a pending entry made stale when the
carrier leaves IDLE other than by a grant (R36). -/
def Work.changeState (w : Work) (c : Nat) (new : CarrierState) (extra : List Val) : Work :=
  match w.s.carrier? c with
  | none => w
  | some r =>
    let w1 := (w.onCarrier c (fun r => { r with
      state := new, timer := if new.timerStops then none else r.timer })).notifyState c r.state.code new.code extra
    let w2 := w1.concern c
    if r.state = .idle && !(decide (new = .idle) || decide (new = .authorized)) then w2.dropStale c .leftIdle else w2

/-- The detail of an emergency: the cause and, for a hoist lock, the reasons being added (R41, R53). -/
def causeVals (cause : EmergencyCause) (lock : Option Reasons) : List Val :=
  .byte cause.code :: match lock with
    | some r => [.byte r.code]
    | none => []

/-- A request for entry to EMERGENCY with a cause, taken according to the carrier's state (R69). -/
def Work.enterEmergency (w : Work) (c : Nat) (cause : EmergencyCause) (lock : Option Reasons) : Work :=
  match w.s.carrier? c with
  | none => w
  | some r =>
    match r.state with
    | .idle | .authorized =>
      (w.onCarrier c (fun r => { r with cause := some cause })).changeState c .emergency (causeVals cause lock)
    | .emergency =>
      w.notifyState c CarrierState.emergency.code CarrierState.emergency.code (causeVals cause lock)
    | .missing =>
      (w.onCarrier c (fun r => { r with prior := some .emergency, cause := some cause })).notifyState c
        CarrierState.missing.code CarrierState.missing.code (causeVals cause lock)
    | .lost | .offline | .away => w

/-- Copy the applied class values from the carrier's class (R51). -/
def Work.applyClass (w : Work) (c : Nat) : Work :=
  let v := w.s.classVals (w.s.classOf c)
  w.onCarrier c (fun r => { r with applied := v })

end Sys2Proof.Machine
end

