-- ==== Sys2Proof/Machine/Reserve.lean ====
section
/-! DEFINITION. The Reservation Unit's changes of its records: locks, crane holds, intruder marks, route versions,
grants, the re-examination of the pending list, and closures (R22, R25, R33, R34, R39 to R45). -/

namespace Sys2Proof.Machine

/-! ## Hoist locks (R41) -/

/-- No reason. -/
def Reasons.none_ : Reasons := ⟨false, false, false, false⟩

/-- The single reasons. -/
def Reasons.ofClaim : Reasons := ⟨true, false, false, false⟩
/-- The reason VIOLATION. -/
def Reasons.ofViolation : Reasons := ⟨false, true, false, false⟩
/-- The reason FAULT. -/
def Reasons.ofFault : Reasons := ⟨false, false, true, false⟩
/-- The reason LINK. -/
def Reasons.ofLink : Reasons := ⟨false, false, false, true⟩
/-- Every reason. -/
def Reasons.all : Reasons := ⟨true, true, true, true⟩

/-- Two reason sets together. -/
def Reasons.join (a b : Reasons) : Reasons :=
  ⟨a.claim || b.claim, a.violation || b.violation, a.fault || b.fault, a.link || b.link⟩

/-- A reason set without the reasons of another. -/
def Reasons.without (a b : Reasons) : Reasons :=
  ⟨a.claim && !b.claim, a.violation && !b.violation, a.fault && !b.fault, a.link && !b.link⟩

/-- Two reason sets share a reason. -/
def Reasons.meets (a b : Reasons) : Bool :=
  (a.claim && b.claim) || (a.violation && b.violation) || (a.fault && b.fault) || (a.link && b.link)

/-- The reasons of a crane in a record's hoist lock. -/
def SegDyn.reasonsOf (r : SegDyn) (k : Nat) : Reasons := r.lock.get k Reasons.none_

/-- Reasons join the entry of a crane, which is added when the lock has none (R41). -/
def SegDyn.addLock (k : Nat) (rs : Reasons) (r : SegDyn) : SegDyn :=
  { r with lock := r.lock.put k ((r.reasonsOf k).join rs) }

/-- Reasons leave the entry of a crane, which goes when its set becomes empty (R41). -/
def SegDyn.removeLock (k : Nat) (rs : Reasons) (r : SegDyn) : SegDyn :=
  let left := (r.reasonsOf k).without rs
  { r with lock := if left = Reasons.none_ then r.lock.del k else r.lock.put k left }

/-- Add lock reasons of a crane to a segment (R41): an AUTHORIZED carrier that holds it enters EMERGENCY with cause
HOIST_VIOLATION first, within the same request. -/
def Work.addLock (w : Work) (k i : Nat) (rs : Reasons) : Work :=
  let w1 := match (w.s.seg i).hold with
    | .held (.carrier c) _ =>
      if w.s.carrierIs c .authorized then w.enterEmergency c .hoistViolation (some rs) else w
    | _ => w
  w1.onSeg i (SegDyn.addLock k rs)

/-- Remove lock reasons of a crane from a segment (R41). -/
def Work.removeLock (w : Work) (k i : Nat) (rs : Reasons) : Work := w.onSeg i (SegDyn.removeLock k rs)

/-- The segments whose lock carries one of these reasons of a crane. -/
def State.lockedWith (s : State) (k : Nat) (rs : Reasons) : List Nat :=
  s.segs.keysWhere (fun r => (r.reasonsOf k).meets rs)

/-- Remove lock reasons of a crane from every segment that carries them (R97). -/
def Work.removeLocks (w : Work) (k : Nat) (rs : Reasons) : Work :=
  w.onSegs (w.s.lockedWith k rs) (SegDyn.removeLock k rs)

/-! ## Intruder marks (R43) -/

/-- Mark a segment with a party that stands in it: nothing changes when the party holds it or another mark stands. -/
def SegDyn.mark (p : Party) (r : SegDyn) : SegDyn :=
  if r.heldBy p || r.intruder.isSome then r else { r with intruder := some p }

/-- Mark a segment with a party (R43). -/
def Work.mark (w : Work) (p : Party) (i : Nat) : Work := w.onSeg i (SegDyn.mark p)

/-- Remove the intruder of every segment whose intruder is a party (R43). -/
def Work.clearMarks (w : Work) (p : Party) : Work :=
  w.onSegs (w.s.segs.keysWhere (fun r => decide (r.intruder = some p))) (fun r => { r with intruder := none })

/-! ## Carrier holds -/

/-- Place standing holds on segments (R33). -/
def Work.placeStanding (w : Work) (c : Nat) (ids : List Nat) : Work :=
  w.onSegs ids (SegDyn.hold_ (.carrier c) .standing)

/-- Place standing holds, and release every other segment the carrier holds, HELD or FROZEN (R33, R45). -/
def Work.settleStanding (w : Work) (c : Nat) (ids : List Nat) : Work :=
  let others := (w.s.ownedBy (.carrier c)).filter (fun i => !(ids.contains i))
  (w.placeStanding c ids).release others

/-- The segment, with its holder, that keeps a carrier from standing on a list of segments: the first that a test does
not pass. -/
def State.firstHeldAgainst (s : State) (ids : List Nat) (may : SegDyn → Bool) : Option (Nat × Option Party) :=
  (ids.find? (fun i => !(may (s.seg i)))).map (fun i => (i, (s.seg i).holder))

/-- The front and rear of a report as one list without repeats, front first; an id that is NONE is left out. -/
def groundOf (front rear : Option Nat) : List Nat :=
  match front, rear with
  | some f, some r => if f = r then [f] else [f, r]
  | some f, none => [f]
  | none, some r => [r]
  | none, none => []

/-! ## Routes -/

/-- Increment a carrier's route version counter; the route record takes the new value (R22). -/
def Work.bumpVersion (w : Work) (c : Nat) : Work :=
  let v := wrap8 (w.s.version c)
  w.on (fun s => { s with
    versions := s.versions.put c v
    routes := match s.route? c with
      | some r => s.routes.put c { r with version := v }
      | none => s.routes })

/-- Delete a carrier's route record; its last end position becomes absent (R78). -/
def Work.deleteRoute (w : Work) (c : Nat) : Work :=
  match w.s.route? c with
  | none => w
  | some _ =>
    ((w.on (fun s => { s with routes := s.routes.del c })).onCarrier c
      (fun r => { r with auth := { r.auth with endPos := none } })).concern c

/-- Grant a route whole (R25 steps 1 to 3): the holds, the record with the rear placed ahead where it differs from the
front, the version, and the carrier AUTHORIZED. A STANDING segment that the carrier has left becomes ROUTE with the
others and stays outside the list (log entry 40). Where a queued list names the segment that has since become the
rear, that segment stands in the route list twice (log entry 46). -/
def Work.grant (w : Work) (c : Nat) (list : List Nat) (stop tag : Nat) (origin : DLink) : Work :=
  match w.s.carrier? c with
  | none => w
  | some r =>
    let ahead := match r.rear, r.front with
      | some b, some f => if b = f then [] else [b]
      | _, _ => []
    let standing := w.s.standing c
    let gained := list.filter (fun i => !(standing.contains i))
    let w1 := w.onSegs (standing ++ gained) (SegDyn.hold_ (.carrier c) .route)
    let w2 := w1.on (fun s => { s with
      routes := s.routes.put c ⟨ahead ++ list, stop, ahead.length, 0, s.version c, tag, origin⟩ })
    let w3 := (w2.bumpVersion c).changeState c .authorized []
    { w3 with bumped := c :: w3.bumped }

/-- Post a notification of a pending entry that replaces, grants or removes it, with its tag. -/
def Work.replaceEntry (w : Work) (e : PendingEntry) : Work := w.post .replaced (.carrier e.carrier) [.half e.tag]

/-- Remember the first failing segment of an entry (R34 step 4). -/
def State.blockEntry (s : State) (c i : Nat) : State :=
  { s with waiting := s.waiting.map (fun e => if e.carrier = c then { e with lastBlock := i } else e) }

/-- Try one pending entry (R34): granted as a direct request, or left with its last blocking segment. -/
def Work.tryEntry (w : Work) (e : PendingEntry) : Work :=
  match w.s.lockedStanding e.carrier with
  | some i => w.on (fun s => s.blockEntry e.carrier i)
  | none =>
    match w.s.firstUnavailable e.carrier e.list with
    | some (i, _) => w.on (fun s => s.blockEntry e.carrier i)
    | none =>
      let w1 := (w.grant e.carrier e.list e.stop e.tag e.origin).on (fun s => s.dropEntry e.carrier)
      w1.post .pendingGranted (.carrier e.carrier)
        [.half e.tag, .byte (w1.s.version e.carrier), .byte e.origin.key]

/-- Re-examine the pending route list, oldest first (R34). -/
def Work.reexamine (w : Work) : Work := w.s.waiting.foldl Work.tryEntry w

/-! ## Crane holds (R42) -/

/-- The leg cells at a bay: waterside, then landside (R97). -/
def State.legCells (s : State) (k bay : Nat) : List Nat :=
  [s.grid.idAt (s.craneCfg k).waterside bay, s.grid.idAt (s.craneCfg k).landside bay]

/-- The bays from one to another inclusive, in the order of travel. -/
def baysFrom (a b : Nat) : List Nat :=
  if a ≤ b then (List.range (b - a + 1)).map (fun i => a + i)
  else (List.range (a - b + 1)).map (fun i => a - i)

/-- The first of some leg cells that is neither FREE nor held by the crane, with its holder (R42 Take legs). -/
def State.legConflict (s : State) (k : Nat) (cells : List Nat) : Option (Nat × Option Party) :=
  s.firstHeldAgainst cells (fun r => r.isFree || r.heldBy (.crane k))

/-- Each named cell becomes HELD by the crane with kind LEG (R42 Take legs). -/
def Work.takeLegs (w : Work) (k : Nat) (cells : List Nat) : Work := w.onSegs cells (SegDyn.hold_ (.crane k) .leg)

/-- Each named cell becomes HELD by the crane with kind TRAVEL (R42 Take travel). -/
def Work.takeTravel (w : Work) (k : Nat) (cells : List Nat) : Work := w.onSegs cells (SegDyn.hold_ (.crane k) .travel)

/-- The named cells held by the crane with kind TRAVEL change to LEG (R42 Settle at bay). -/
def Work.settleAt (w : Work) (k : Nat) (cells : List Nat) : Work :=
  w.onSegs cells (fun r => if r.hold = .held (.crane k) .travel then { r with hold := .held (.crane k) .leg } else r)

/-- The named cells held by the crane become FREE (R42 Release). -/
def Work.releaseLegs (w : Work) (k : Nat) (cells : List Nat) : Work :=
  w.onSegs cells (fun r => if r.heldBy (.crane k) then r.release else r)

/-- One cell of a halt take (R42): FREE becomes LEG, an own hold stays, any other holder gets this crane as intruder. -/
def SegDyn.haltTake (k : Nat) (r : SegDyn) : SegDyn :=
  if r.isFree then r.hold_ (.crane k) .leg
  else if r.heldBy (.crane k) then r
  else r.mark (.crane k)

/-- The carrier among a segment's parties, if its holder is one. -/
def SegDyn.holdingCarrier (r : SegDyn) : Option Nat :=
  match r.holder with
  | some (.carrier c) => some c
  | _ => none

/-- A halt take of some cells with what follows from it (R99, R111 steps 2 and 3): each carrier that holds such a cell
is asked into EMERGENCY with cause GANTRY_VIOLATION, and INTRUSION is notified for each cell held by another party. The
carriers and the cells come in the order of the cells (log entry 56). -/
def Work.haltTake (w : Work) (k : Nat) (cells : List Nat) : Work :=
  let foreign := cells.filter (fun i => !((w.s.seg i).isFree || (w.s.seg i).heldBy (.crane k)))
  let holders := (foreign.filterMap (fun i => (w.s.seg i).holdingCarrier)).eraseDups
  let w1 := w.onSegs cells (SegDyn.haltTake k)
  let w2 := holders.foldl (fun w c => w.enterEmergency c .gantryViolation none) w1
  foreign.foldl (fun w i =>
    w.post .intrusion (.segment i) (partyVals (some (.crane k)) ++ partyVals (w.s.seg i).holder)) w2

/-! ## Closures (R38 to R40) -/

/-- Bring DLC and RLC of a record into line with the closures in force and its static closure set (R9, R39, R40). -/
def SegDyn.alignClosures (dlc rlc : Bool) (st : SegStatic) (r : SegDyn) : SegDyn :=
  { r with oos := { r.oos with dlc := dlc && st.dlc, rlc := rlc && st.rlc } }

/-- Align the records of a list of segments with the closures in force. -/
def Work.alignClosures (w : Work) (ids : List Nat) : Work :=
  ids.foldl (fun w i => w.onSeg i (SegDyn.alignClosures w.s.dlcClosed w.s.rlcClosed (w.s.grid.record i))) w

/-- Fresh dynamic records for a grid, with the closures in force applied (R7, R20). -/
def State.freshSegs (s : State) : Table SegDyn :=
  ⟨s.grid.ids.map (fun i => (i, SegDyn.alignClosures s.dlcClosed s.rlcClosed (s.grid.record i) SegDyn.fresh))⟩

/-- Reset the dynamic records, the pending list and the route records (R20); the version counters are kept. -/
def State.resetSegs (s : State) : State := { s with segs := s.freshSegs, routes := Table.empty, waiting := [] }

end Sys2Proof.Machine
end

