-- ==== Sys2Proof/Machine/Authority.lean ====
section
/-! DEFINITION. The Authority Calculator: route positions, the end of authority, the permitted speed, the command, the
AUTHORITY frame, the check cap with its lag, the overspeed test, and the stopping distance (R23, R75 to R91). -/

namespace Sys2Proof.Machine

/-! ## Positions (R23, R79) -/

/-- The route position at which entry k begins: the sum of the lengths of the entries before it (R23). -/
def routePos (g : Grid) (list : List Nat) (k : Nat) : Nat := ((list.take k).map g.lengthOf).sum

/-- The entry of a route that contains a position; a position at or beyond the end lies in the last entry (R23). -/
def entryAt (g : Grid) : List Nat → Nat → Nat
  | [], _ => 0
  | [_], _ => 0
  | i :: rest, p => if p < g.lengthOf i then 0 else 1 + entryAt g rest (p - g.lengthOf i)

/-- The front offset: the length of the front segment less the front remaining, which is at most that length (R79). -/
def frontOffset (g : Grid) (front rem : Nat) : Nat := g.lengthOf front - min rem (g.lengthOf front)

/-- The front position on a route (R79). -/
def frontPos (g : Grid) (r : Route) (rem : Nat) : Nat :=
  routePos g r.list r.front + frontOffset g (nth r.list r.front 0) rem

/-- The stop position of a route: the beginning of its last entry plus the stop offset (R23). -/
def stopPos (g : Grid) (r : Route) : Nat := routePos g r.list (r.list.length - 1) + r.stop

/-- The reaction term v × T / 1000, rounded up (R84, R91). -/
def reactionTerm (v latency : Nat) : Nat := ceilDiv (v * latency) 1000

/-- The stopping distance (R91). -/
def stoppingDistance (v : Nat) (c : ClassVals) : Nat :=
  ceilDiv (v * v) (2 * c.decel) + reactionTerm v c.latency + c.margin

/-! ## The end of authority (R80, R81) -/

/-- An end of authority: the end segment and offset, for an AUTHORIZED carrier the route position and the index of the
entry it lies in, and whether the carrier stands in an obstacle (R80 case 3). -/
structure EndPoint where
  seg : Option Nat
  off : Nat
  pos : Option Nat
  entry : Nat
  blocked : Bool
  deriving DecidableEq, Repr

/-- Some entry from index `a` to index `b` is an obstacle to the carrier. -/
def State.obstacleBetween (s : State) (c : Nat) (list : List Nat) (a b : Nat) : Bool :=
  ((list.take (b + 1)).drop a).any (fun i => (s.seg i).obstacle c)

/-- The end of authority of an AUTHORIZED carrier (R80). -/
def State.routeEnd (s : State) (c : Nat) (rem : Nat) (r : Route) : EndPoint :=
  let g := s.grid
  if s.obstacleBetween c r.list r.rear r.front then
    let f := nth r.list r.front 0
    ⟨some f, frontOffset g f rem, some (frontPos g r rem), r.front, true⟩
  else
    match firstWhere (fun i => (s.seg i).obstacle c) (r.list.drop (r.front + 1)) (r.front + 1) with
    | some (k, _) =>
      let e := nth r.list (k - 1) 0
      ⟨some e, g.lengthOf e, some (routePos g r.list k), k - 1, false⟩
    | none =>
      let last := r.list.length - 1
      ⟨some (nth r.list last 0), r.stop, some (stopPos g r), last, false⟩

/-- The end at a front or, failing it, at offset 0 of the rear, where a test passes for the segment (R81). -/
def State.standEnd (s : State) (r : Carrier) (may : Nat → Bool) : EndPoint :=
  let atRear : EndPoint := match r.rear with
    | some b => if may b then ⟨some b, 0, none, 0, false⟩ else ⟨none, 0, none, 0, false⟩
    | none => ⟨none, 0, none, 0, false⟩
  match r.front with
  | some f => if may f then ⟨some f, frontOffset s.grid f r.frontRem, none, 0, false⟩ else atRear
  | none => atRear

/-- The end of authority of a carrier (R80, R81); `leaving` is an IDLE carrier being deregistered. -/
def State.endPoint (s : State) (c : Nat) (r : Carrier) (leaving : Bool) : EndPoint :=
  match r.state with
  | .authorized =>
    match s.route? c with
    | some route => s.routeEnd c r.frontRem route
    | none => ⟨none, 0, none, 0, false⟩
  | .idle =>
    if leaving then s.standEnd r (fun i => (s.seg i).ownedBy (.carrier c)) else s.standEnd r (fun _ => true)
  | .emergency | .missing | .lost => s.standEnd r (fun i => (s.seg i).ownedBy (.carrier c))
  | .offline | .away => ⟨none, 0, none, 0, false⟩

/-! ## Permitted speed (R84, R85) -/

/-- The effective distance D_eff = D − M − the reaction term (R84). -/
def effectiveDistance (endAt frontAt v : Nat) (c : ClassVals) : Int :=
  (endAt : Int) - frontAt - c.margin - reactionTerm v c.latency

/-- The geometric cap V_g (R85 step 1). -/
def geometricCap (dEff : Int) (decel : Nat) : Nat := if dEff ≤ 0 then 0 else isqrt (2 * decel * dEff.toNat)

/-- The ground limit: the lowest speed limit from the rear index through the end entry (R85 step 2), that of an unusable
rear segment among them (log entry 39). -/
def groundLimit (g : Grid) (list : List Nat) (rear last : Nat) : Option Nat :=
  (((list.take (last + 1)).drop rear).map g.limitOf).min?

/-- The speed code of an AUTHORIZED carrier (R85). -/
def State.speedCode (s : State) (r : Carrier) (route : Route) (e : EndPoint) : Nat :=
  let d := effectiveDistance (e.pos.getD 0) (frontPos s.grid route r.frontRem) r.speed r.applied
  let v := min (geometricCap d r.applied.decel) r.applied.maxSpeed
  (match groundLimit s.grid route.list route.rear e.entry with
    | some l => min v l
    | none => v) / 10

/-! ## The command and the frame (R77, R82, R86) -/

/-- The command and speed code of a frame (R86). -/
def State.commandOf (s : State) (c : Nat) (r : Carrier) (leaving : Bool) (e : EndPoint) : Command × Nat :=
  match r.state with
  | .emergency => (.emergency, 0)
  | state =>
    if leaving then (.stopNow, 0)
    else if s.mode ≠ .active then (.stopNow, 0)
    else match state with
      | .idle => if (s.standing c).any (fun i => (s.seg i).obstacle c) then (.stopNow, 0) else (.hold, 0)
      | .authorized =>
        if e.blocked then (.stopNow, 0)
        else match s.route? c with
          | some route =>
            let code := s.speedCode r route e
            if code = 0 then (.hold, 0) else (.proceed, code)
          | none => (.hold, 0)
      | _ => (.stopNow, 0)

/-- The upcoming segments of a frame (R82). -/
def State.upcomingOf (s : State) (c : Nat) (r : Carrier) (cmd : Command) (e : EndPoint) : List (Option Nat) :=
  match r.state, s.route? c with
  | .authorized, some route =>
    if cmd.urgent then [e.seg]
    else (((route.list.take (e.entry + 1)).drop route.front).take 8).map some
  | _, _ => [e.seg]

/-! ## The check cap (R88 to R90) -/

/-- A pending lower cap is due when part time has reached its effective time (R88). -/
def PendingCap.due (now : Time) (p : PendingCap) : Bool := reached now p.set p.effective

/-- Promote a pending lower cap that is due (R89). -/
def AuthorityFields.promote (now : Time) (a : AuthorityFields) : AuthorityFields :=
  match a.pendingCap with
  | some p => if p.due now then { a with checkCap := p.cap, pendingCap := none } else a
  | none => a

/-- The lag of a fall of the check cap, in ms (R88). -/
def capLag (c : ClassVals) (checkCap new : Nat) : Nat := c.latency + ceilDiv (1000 * (checkCap - new)) c.decel

/-- The ms that an effective time still lies ahead, 0 when it is absent or due (R88). -/
def AuthorityFields.lagLeft (now : Time) (a : AuthorityFields) : Nat :=
  match a.pendingCap with
  | some p => if p.due now then 0 else elapsed p.effective now
  | none => 0

/-- Bring the check cap into line with the cap sent (R88). -/
def AuthorityFields.follow (now : Time) (c : ClassVals) (new : Nat) (a : AuthorityFields) : AuthorityFields :=
  if new = a.lastCap then a
  else if new ≥ a.checkCap then { a with checkCap := new, pendingCap := none, lastCap := new }
  else
    let lag := max (a.lagLeft now) (capLag c a.checkCap new)
    { a with pendingCap := some ⟨new, later now lag, now⟩, lastCap := new }

/-- The check cap set directly from the first frame in IDLE (R90). -/
def AuthorityFields.setCap (new : Nat) (a : AuthorityFields) : AuthorityFields :=
  { a with checkCap := new, pendingCap := none, lastCap := new }

/-! ## The run (R76) -/

/-- Step 1 of a run started by a report (R76, R89): promotion, and the overspeed test of a carrier in IDLE or
AUTHORIZED. -/
def Work.testSpeed (w : Work) (c : Nat) : Work :=
  let w1 := w.onCarrier c (fun r => { r with auth := r.auth.promote w.s.now })
  match w1.s.carrier? c with
  | none => w1
  | some r =>
    if (decide (r.state = .idle) || decide (r.state = .authorized))
        && decide (r.speed > r.auth.checkCap + r.applied.overTol) then
      ((w1.onCarrier c (fun r => { r with auth := { r.auth with overspeeds := bump16 r.auth.overspeeds } })).post
        .overspeed (.carrier c) [.half r.speed, .half r.auth.checkCap, .byte r.applied.overTol]).enterEmergency c
        .overspeed none
    else w1

/-- Step 3 of a run (R83): an end that falls on the same route increments the version, unless the request has done so
itself. -/
def Work.cutBack (w : Work) (c : Nat) (r : Carrier) (e : EndPoint) : Work :=
  match r.state, e.pos, r.auth.endPos with
  | .authorized, some new, some old => if new < old && !(w.bumped.contains c) then w.bumpVersion c else w
  | _, _, _ => w

/-- The AUTHORITY frame of a run (R77). -/
def State.authorityFrame (s : State) (c : Nat) (r : Carrier) (leaving : Bool) (e : EndPoint) : Authority :=
  let cmd := s.commandOf c r leaving e
  ⟨c, r.lastSeq, s.version c, cmd.1, e.seg, e.off, cmd.2, s.upcomingOf c r cmd.1 e⟩

/-- Step 5 of a run (R76, R78): the authority fields from the frame sent. -/
def AuthorityFields.record (now : Time) (applied : ClassVals) (direct : Bool) (f : Authority) (pos : Option Nat)
    (a : AuthorityFields) : AuthorityFields :=
  let a1 := { a with
    command := some f.command
    endSeg := f.endSeg
    endOff := f.endOff
    endPos := if pos.isSome then pos else a.endPos }
  if direct then a1.setCap (10 * f.code) else a1.follow now applied (10 * f.code)

/-- One run of the Authority Calculator for a carrier (R76): one AUTHORITY frame, routed with the carrier's state. -/
def Work.authorityRun (w : Work) (c : Nat) (leaving : Bool) : Work :=
  let w1 := if w.report = some c then w.testSpeed c else w
  match w1.s.carrier? c with
  | none => w1
  | some r =>
    let e := w1.s.endPoint c r leaving
    let w2 := w1.cutBack c r e
    let f := w2.s.authorityFrame c r leaving e
    (w2.on (fun s => s.routeAuthority f r.state)).onCarrier c
      (fun r => { r with auth := r.auth.record w2.s.now r.applied (w2.settled.contains c) f e.pos })

end Sys2Proof.Machine
end

