-- ==== Sys2Proof/Machine/Request.lean ====
section
/-! DEFINITION. The end of a request (R21): re-examination, the report to the Picture Broadcaster, and one authority for
each carrier the request concerns; and the frame of a dispatch request (R144, R147, R152, R153). -/

namespace Sys2Proof.Machine

/-- A carrier is concerned by a request (R21, R75): it is named, or it holds a changed segment or intrudes on one. -/
def Work.concerns (w : Work) (c : Nat) : Bool :=
  w.runs.contains c || w.touched.any (fun i =>
    (w.s.seg i).ownedBy (.carrier c) || decide ((w.s.seg i).intruder = some (.carrier c)))

/-- The segments whose picture code the request changed (R18, R21). -/
def Work.codeChanges (w : Work) : List Nat :=
  w.touched.filter (fun i => decide ((w.before.get i SegDyn.fresh).picture ≠ (w.s.seg i).picture))

/-- The end of a request (R21, R34, R75): the re-examination that it calls for, the code changes to the Picture
Broadcaster, then one run per concerned carrier in ascending id (log entry 7). -/
def Work.finish (w : Work) : State :=
  let w1 := if w.reexam then w.reexamine else w
  let w2 := w1.on (fun s => s.pictureChange w1.codeChanges)
  ((w2.s.carriers.keys.filter w2.concerns).foldl (fun w c => w.authorityRun c false) w2).s

/-- Take a request whole. -/
def State.request (s : State) (body : Work → Work) : State := (body (Work.start s none)).finish

/-! ## Closures (R39, R40) -/

/-- Bring dispatch-loss closure into force or out of force, as one request (R39). -/
def State.setDlc (s : State) (inForce : Bool) : State :=
  State.request { s with dlcClosed := inForce } (fun w => w.alignClosures w.s.grid.ids)

/-- Radio-loss closure is in force while a configured link is DOWN (R40). -/
def State.radioLoss (s : State) : Bool := (List.range 4).any (fun r => decide ((s.radio r).state = .down))

/-- A link state report (R40, R120): a report that leaves the closure as it was changes no record. -/
def State.linkReport (s : State) : State :=
  if s.radioLoss = s.rlcClosed then s
  else State.request { s with rlcClosed := s.radioLoss } (fun w => w.alignClosures w.s.grid.ids)

/-! ## Dispatch frames -/

/-- Remove every pending entry, oldest first, each notified as PENDING_DROPPED with a cause code and its tag (R37,
R167; that the tag goes with cause MODE too is log entry 53). -/
def State.dropWaiting (s : State) (cause : Nat) : State :=
  let s1 := s.waiting.foldl (fun s e => s.post .pendingDropped (.carrier e.carrier) [.byte cause, .half e.tag]) s
  { s1 with waiting := [] }

/-- The dispatch-loss report (R152): pending entries dropped, DLC closure, DISPATCH_LOST. -/
def State.loseDispatch (s : State) (l : DLink) : State :=
  let n := s.waiting.length
  let s1 := s.dropWaiting 2
  let s2 := State.setDlc { s1 with lossSince := some s.now } true
  s2.post .dispatchLost (.link l.key) [.byte n]

/-- The dispatch-regain report (R153): DLC closure out of force, DISPATCH_REGAINED with the duration of the loss. -/
def State.regainDispatch (s : State) (l : DLink) : State :=
  match s.lossSince with
  | none => s
  | some since =>
    let s1 := State.setDlc { s with lossSince := none } false
    s1.post .dispatchRegained (.link l.key) [.word (elapsed s.now since)]

/-- A valid frame arrives on a dispatch link (R144): a DOWN link comes UP, with the regain report when the other is
DOWN too, and the timer is started or restarted. -/
def State.dispatchArrival (s : State) (l : DLink) : State :=
  let wasUp := (s.dlink l).up
  let s1 := s.onDlink l (fun d => { d with up := true, timer := some (s.dtimeout l), rx := Receiver.hunting })
  if wasUp || (s.dlink l.other).up then s1 else s1.regainDispatch l

/-- The owner of a request: what the request does to the part, and the reply. -/
abbrev Owner := State → State × Reply

/-- A frame on a dispatch link that is handed to an owner (R147): an overrun when the reply queue is full, otherwise
counted, taken whole and answered. -/
def State.takeRequest (s : State) (l : DLink) (owner : Owner) : State :=
  let s1 := s.dispatchArrival l
  if (s1.dlink l).replies.length ≥ Config.replyCapacity then
    State.pump (s1.onDlink l (fun d => { d with overruns := bump16 d.overruns }))
  else
    let s2 := s1.onDlink l (fun d => { d with good := bump16 d.good })
    let out := owner s2
    State.pump (out.1.onDlink l (DispatchLink.enqueue out.2))

end Sys2Proof.Machine
end

