-- ==== Sys2Proof/Machine/BroadcastCmds.lean ====
section
/-! DEFINITION. BROADCAST_CONFIG, BROADCAST_TRIGGER, QUERY_BROADCAST, the period timer, and SET_COPY_RULE (R135, R139,
R141, R143, R160). -/

namespace Sys2Proof.Machine

/-! ## BROADCAST_CONFIG (R135) -/

/-- The stored configuration of a BROADCAST_CONFIG (R135). -/
def storedBroadcast (a : BroadcastArgs) (mode : BroadcastMode) (notice : Bool) : BroadcastConfig where
  lane := clampTo 0 15 a.lane
  lanes := clampTo 1 16 a.lanes
  bay := clampTo 0 63 a.bay
  bays := clampTo 1 64 a.bays
  mode := mode
  period := clampTo 100 5000 a.period
  notice := notice

/-- The stored window as a rectangle. -/
def BroadcastConfig.rect (b : BroadcastConfig) : Rect := ⟨b.lane, b.lanes, b.bay, b.bays⟩

/-- The stored configuration as values (R133). -/
def BroadcastConfig.vals (b : BroadcastConfig) : List Val :=
  [.byte b.lane, .byte b.lanes, .byte b.bay, .byte b.bays, .byte b.mode.code, .half b.period, boolVal b.notice]

/-- A rectangle as values. -/
def rectVals (r : Rect) : List Val := [.byte r.lane, .byte r.lanes, .byte r.bay, .byte r.bays]

/-- A BROADCAST_CONFIG is clamped: the period or a window field differs from what was requested, or the effective
window from the stored one (R135). -/
def broadcastClamped (a : BroadcastArgs) (b : BroadcastConfig) (window : Rect) : Bool :=
  decide (b.period ≠ a.period ∨ b.rect ≠ ⟨a.lane, a.lanes, a.bay, a.bays⟩ ∨ window ≠ b.rect)

/-- BROADCAST_CONFIG (R135, R142): where the mode and the completion notice both offend, the mode is named (log entry
38). -/
def ownBroadcastConfig (a : BroadcastArgs) : Owner := fun s =>
  match readBroadcastMode a.mode, readYesNo a.notice with
  | none, _ => (s, refuseField 0x39 4)
  | some _, none => (s, refuseField 0x39 6)
  | some mode, some notice =>
    let b := storedBroadcast a mode notice
    let s1 : State := { s with cfg := { s.cfg with broadcast := b } }
    let s2 := s1.followMode s.effectiveMode
    (s2, accept 0x39 (broadcastClamped a b s1.window)
      (b.vals ++ rectVals s1.window ++ [.byte s1.effectiveMode.code]))

/-- The meaning of BROADCAST_CONFIG. -/
def execBroadcastConfig (l : DLink) (a : BroadcastArgs) (s : State) : Host.Outcome State Fault Refusal :=
  .next (s.takeRequest l (ownBroadcastConfig a))

/-! ## BROADCAST_TRIGGER (R141) -/

/-- BROADCAST_TRIGGER (R141): the reply names the cycle started, even where it has ended within the start (log entry
51). -/
def ownBroadcastTrigger : Owner := fun s =>
  if s.mode ≠ .active then (s, refuse 0x3A .badMode [.byte s.mode.code])
  else if s.cfg.broadcast.mode ≠ .oneShot then (s, refuse 0x3A .badMode [.byte s.cfg.broadcast.mode.code])
  else if s.cycle.since.isSome then
    (s, busyReply 0x3A .cycle [.byte s.cycle.number, .byte s.cycle.outstanding])
  else (s.startCycle, accept 0x3A false [.byte s.cycle.number, .byte s.window.lanes])

/-- The meaning of BROADCAST_TRIGGER. -/
def execBroadcastTrigger (l : DLink) (s : State) : Host.Outcome State Fault Refusal :=
  .next (s.takeRequest l ownBroadcastTrigger)

/-! ## QUERY_BROADCAST (R143) -/

/-- The cycle state as values in the order of R136; the cycle number takes 1 byte (log entry 9). -/
def Cycle.vals (c : Cycle) : List Val :=
  [boolVal c.since.isSome, .byte c.number, boolVal c.rerun, .byte c.outstanding, .byte c.rows, .byte c.sent,
    .byte c.dropped, timeVal? c.since, timerVal? c.timer, .half c.skipped, .half c.completed]

/-- QUERY_BROADCAST (R143). -/
def ownQueryBroadcast : Owner := fun s =>
  (s, accept 0x3B false
    (s.cfg.broadcast.vals ++ rectVals s.window ++ [.byte s.effectiveMode.code] ++ s.cycle.vals))

/-- The meaning of QUERY_BROADCAST. -/
def execQueryBroadcast (l : DLink) (s : State) : Host.Outcome State Fault Refusal :=
  .next (s.takeRequest l ownQueryBroadcast)

/-! ## PERIOD_TIMER_EXPIRY (R139) -/

/-- PERIOD_TIMER_EXPIRY (R139): an expiry whose timer has not reached 0 is no event (log entry 3). -/
def State.expirePeriod (s : State) : State :=
  if s.cycle.timer = some 0 then
    State.startOrSkip { s with cycle := { s.cycle with timer := some s.cfg.broadcast.period } }
  else s

/-- The meaning of PERIOD_TIMER_EXPIRY. -/
def execPeriodTimerExpiry (s : State) : Host.Outcome State Fault Refusal := .next s.expirePeriod.pump

/-! ## SET_COPY_RULE (R160) -/

/-- The first field of SET_COPY_RULE that is refused, by its place in the layout (R160). -/
def badCopyField (a : CopyArgs) : Option Nat :=
  if a.rule ≥ 4 then some 0
  else if (readCopyKind a.frameKind).isNone then some 2
  else if (readFlagMatch a.flag).isNone then some 5
  else if (readTarget a.target).isNone then some 6
  else if (readYesNo a.enable).isNone then some 1
  else none

/-- The effective rule of a SET_COPY_RULE whose fields all have values (R160). -/
def effectiveRule (a : CopyArgs) : CopyRule where
  enable := (readYesNo a.enable).getD false
  kind := (readCopyKind a.frameKind).getD .report
  value := clampTo 0 127 a.value
  mask := clampTo 0 127 a.mask
  flag := (readFlagMatch a.flag).getD .nothing
  target := (readTarget a.target).getD .a

/-- A copy rule as values (R160). -/
def CopyRule.vals (r : CopyRule) : List Val :=
  [boolVal r.enable, .byte r.kind.code, .byte r.value, .byte r.mask, .byte r.flag.code, .byte r.target.key]

/-- SET_COPY_RULE (R160). -/
def ownSetCopyRule (a : CopyArgs) : Owner := fun s =>
  match badCopyField a with
  | some place => (s, refuseField 0x3C place)
  | none =>
    let r := effectiveRule a
    ({ s with cfg := { s.cfg with copyRules := s.cfg.copyRules.put a.rule r } },
      accept 0x3C (decide (r.value ≠ a.value ∨ r.mask ≠ a.mask)) r.vals)

/-- The meaning of SET_COPY_RULE. -/
def execSetCopyRule (l : DLink) (a : CopyArgs) (s : State) : Host.Outcome State Fault Refusal :=
  .next (s.takeRequest l (ownSetCopyRule a))

end Sys2Proof.Machine
end

