-- ==== Sys2Proof/Machine/Slots.lean ====
section
/-! DEFINITION. What the Slot Monitor shares: the slot map, the crane links, claims, hoist violations, and the arrival of
a crane frame (R97, R98, R104, R107, R108). -/

namespace Sys2Proof.Machine

/-! ## The slot map (R97) -/

/-- The segment of slot t of a crane at a bay (R97). -/
def State.slotCell (s : State) (k t bay : Nat) : Nat := s.grid.idAt (nth (s.craneCfg k).slotLanes t 0) bay

/-- The slot segments of a crane at a bay, in slot order. -/
def State.slotCells (s : State) (k bay : Nat) : List Nat :=
  (s.craneCfg k).slotLanes.map (fun lane => s.grid.idAt lane bay)

/-- The gantry bay of a crane that is placed. -/
def Crane.at (c : Crane) : Nat := c.bay.getD 0

/-- The segment of a claim: its slot at the gantry bay, which does not change while a claim stands (R96, R97). -/
def State.claimCell (s : State) (k : Nat) (claim : Claim) : Nat := s.slotCell k claim.slot (s.crane k).at

/-! ## The crane links (R108) -/

/-- Two crane frames are the same command, LOWER_REVOKED of the same slot (R108). -/
def CraneFrame.sameCommand : CraneFrame → CraneFrame → Bool
  | .hoistStop _, .hoistStop _ => true
  | .gantryStop _, .gantryStop _ => true
  | .lowerRevoked _ t, .lowerRevoked _ u => decide (t = u)
  | _, _ => false

/-- A frame is a reply. -/
def CraneFrame.isReply : CraneFrame → Bool
  | .reply _ => true
  | _ => false

/-- The replies that wait in a crane link's queue (R108). -/
def CraneLink.replies (l : CraneLink) : Nat := (l.queue.filter CraneFrame.isReply).length

/-- An IDLE transmitter takes the head of the queue (R108). -/
def CraneLink.transmit (l : CraneLink) : CraneLink :=
  match l.sending, l.queue with
  | none, f :: rest => { l with sending := some f, queue := rest }
  | _, _ => l

/-- A frame joins the queue of a crane link, in the place of the same command where that waits (R108). -/
def CraneLink.join (f : CraneFrame) (l : CraneLink) : CraneLink :=
  { l with queue := joinQueue f.sameCommand f l.queue }

/-- Send a frame to a crane (R108). -/
def State.craneSend (s : State) (k : Nat) (f : CraneFrame) : State :=
  s.onCraneLink k (fun l => (l.join f).transmit)

/-- Send HOIST_STOP with the crane's last sequence (R108). -/
def State.hoistStop (s : State) (k : Nat) : State := s.craneSend k (.hoistStop (s.crane k).lastSeq)

/-- Send GANTRY_STOP with the crane's last sequence (R108). -/
def State.gantryStop (s : State) (k : Nat) : State := s.craneSend k (.gantryStop (s.crane k).lastSeq)

/-- Send LOWER_REVOKED for a slot with the crane's last sequence (R108). -/
def State.lowerRevoked (s : State) (k t : Nat) : State := s.craneSend k (.lowerRevoked (s.crane k).lastSeq t)

/-- A state in which the crane's link timer runs (R96). -/
def CraneState.supervised : CraneState → Bool
  | .standing => true
  | .travelling => true
  | .halted => true
  | .offline => false
  | .linkLost => false

/-- A valid frame of a crane (R98): the frame counter, and for a present crane the restart of a running link timer; its
receiver is then in HUNT (R171). -/
def State.craneArrival (s : State) (k : Nat) : State :=
  let cfg := s.craneCfg k
  (s.onCraneLink k (fun l => { l with rx := Receiver.hunting })).onCrane k (fun c => { c with
    frames := bump16 c.frames
    timer := if cfg.present && c.state.supervised then some cfg.timeout else c.timer })

/-- A valid frame on a crane link, with what its taking does for a present crane (R98). -/
def State.takeCrane (s : State) (k : Nat) (taken : State → State) : State :=
  if (s.craneCfg k).present then taken (s.craneArrival k) else s.craneArrival k

/-- Count an unusable frame on a crane link (R108, R173). -/
def State.craneUnusable (s : State) (k : Nat) : State :=
  s.onCraneLink k (fun l => { l with unusable := bump16 l.unusable })

/-- A request frame of a crane (R98, R108): discarded when 16 replies wait, otherwise answered by one reply. -/
def State.craneRequest (s : State) (k : Nat) (owner : Owner) : State :=
  s.takeCrane k (fun s =>
    if (s.craneLink k).replies ≥ Config.replyCapacity then s.craneUnusable k
    else
      let out := owner s
      out.1.craneSend k (.reply out.2))

/-! ## Claims (R96, R104 to R107) -/

/-- The phases and causes of CLAIM_LAPSED (R172). -/
inductive LapseCause where
  | granted
  | raised
  | gantry
  | link
  | cleared
  deriving DecidableEq, Repr

/-- The code of a lapse (R172). -/
def LapseCause.code : LapseCause → Nat
  | .granted => 0 | .raised => 1 | .gantry => 2 | .link => 3 | .cleared => 4

/-- The claim is deleted. -/
def Crane.dropClaim (c : Crane) : Crane := { c with claim := none }

/-- Change a crane record within the request. -/
def Work.onCrane (w : Work) (k : Nat) (f : Crane → Crane) : Work := w.on (fun s => s.onCrane k f)

/-- CLAIM leaves the segment of a claim that is released, has reached its deadline or is cleared, which calls for
re-examination whatever other reason keeps the lock (R104 to R106, R112; log entry 27). -/
def Work.endClaim (w : Work) (k i : Nat) : Work :=
  let w1 := w.removeLock k i Reasons.ofClaim
  { w1 with reexam := true }

/-- The endings whose rule asks for re-examination when the reason goes: at a deadline (R104, R105) and by CLEAR_CRANE
(R112). -/
def LapseCause.reexamines : LapseCause → Bool
  | .granted => true
  | .raised => true
  | .gantry => false
  | .link => false
  | .cleared => true

/-- A claim ends without a release (R104, R105, R111, R112, R114): CLAIM leaves its segment, the claim is deleted,
LOWER_REVOKED is sent and CLAIM_LAPSED is notified with the slot, the segment and the phase or cause. -/
def Work.lapse (w : Work) (k : Nat) (claim : Claim) (cause : LapseCause) : Work :=
  let cell := w.s.claimCell k claim
  let w1 := if cause.reexamines then w.endClaim k cell else w.removeLock k cell Reasons.ofClaim
  let w2 := (w1.onCrane k Crane.dropClaim).on (fun s => s.lowerRevoked k claim.slot)
  w2.post .claimLapsed (.crane k) [.byte claim.slot, .half cell, .byte cause.code]

/-- A claim that counts for a crossing at slot t: on t and not void (R101, R113). -/
def Crane.claimOn (c : Crane) (t : Nat) : Option Claim :=
  match c.claim with
  | some claim => if claim.slot = t && !claim.void then some claim else none
  | none => none

/-- A hoist violation at slot t (R107). -/
def Work.hoistViolation (w : Work) (k t : Nat) : Work :=
  let c := w.s.crane k
  let cell := w.s.slotCell k t c.at
  let holder := (w.s.seg cell).holder
  let endangered := match (w.s.seg cell).hold with
    | .held (.carrier b) _ =>
      if w.s.carrierIs b .idle || w.s.carrierIs b .missing then some b else none
    | _ => none
  let w1 := w.addLock k cell Reasons.ofViolation
  let w2 := match endangered with
    | some b => w1.enterEmergency b .hoistViolation none
    | none => w1
  let w3 := (w2.on (fun s => s.hoistStop k)).post .hoistViolation (.crane k)
    ([.byte t, .half cell, .byte c.state.code] ++ partyVals holder)
  match c.claim with
  | some claim =>
    if claim.slot = t && (claim.void || !((w.s.craneCfg k).enable.getLsbD t)) then
      (w3.removeLock k cell Reasons.ofClaim).onCrane k Crane.dropClaim
    else w3
  | none => w3

end Sys2Proof.Machine
end

