-- ==== Sys2Proof/Machine/CraneCmds.lean ====
section
/-! DEFINITION. The Slot Monitor's commands: SET_CRANE, CLEAR_CRANE, QUERY_CRANE, the four crane frames, and its own
events (R94 to R116). -/

namespace Sys2Proof.Machine

/-! ## SET_CRANE (R94, R95) -/

/-- The slot lane bytes of SET_CRANE; those beyond the slot count are not read (R175). -/
def slotLaneBytes (g : GeometryArgs) : List Nat := [g.lane0, g.lane1, g.lane2, g.lane3].take g.slotCount

/-- The first field of the geometry that check 3 of SET_CRANE refuses, by its place in the layout (R94). -/
def badGeometry (g : GeometryArgs) : Option Nat :=
  if g.slotCount = 0 ∨ g.slotCount > 4 then some 3
  else match firstWhere (fun x => decide (x ≥ 16)) (slotLaneBytes g ++ [g.waterside, g.landside]) 0 with
    | some (i, _) => if i < g.slotCount then some (4 + i) else some (8 + (i - g.slotCount))
    | none => none

/-- The operating values made effective over a configuration with its slot lane list in force (R94). -/
def effectiveCrane (c : CraneConfig) (o : OperatingArgs) (fault : FaultPolicy) (crossing : CrossSelect) :
    CraneConfig :=
  let clearance := clampTo 1000 40000 o.clearance
  { c with
    enable := enableWithin c.slotLanes.length (BitVec.ofNat 4 o.enable)
    clearance := clearance
    ceiling := max (clampTo 1000 60000 o.ceiling) clearance
    filter := filterLength o.filter
    window := clampTo 1 60 o.window
    fault := fault
    crossing := crossing
    timeout := clampTo 100 2000 o.timeout }

/-- An effective operating value differs from the value requested (R94). -/
def craneClamped (o : OperatingArgs) (c : CraneConfig) : Bool :=
  decide (c.enable ≠ BitVec.ofNat 4 o.enable ∨ c.clearance ≠ o.clearance ∨ c.ceiling ≠ o.ceiling
    ∨ c.filter ≠ o.filter ∨ c.window ≠ o.window ∨ c.timeout ≠ o.timeout)

/-- The geometry fields as values (R93). -/
def CraneConfig.geometryVals (c : CraneConfig) : List Val :=
  [boolVal c.present] ++ listVals c.slotLanes.length (c.slotLanes.map Val.byte)
    ++ [.byte c.waterside, .byte c.landside]

/-- The operating fields as values (R93). -/
def CraneConfig.operatingVals (c : CraneConfig) : List Val :=
  [.byte c.enable.toNat, .half c.clearance, .half c.ceiling, .byte c.filter, .byte c.window, .byte c.fault.code,
    .byte c.crossing.code, .half c.timeout]

/-- Write a crane's configuration (R94, R95): a changed filter length sets the candidate count to 0. -/
def State.configureCrane (s : State) (k : Nat) (new : CraneConfig) : State :=
  let s1 : State := { s with cfg := { s.cfg with cranes := s.cfg.cranes.put k new } }
  if (s.craneCfg k).filter = new.filter then s1 else s1.onCrane k (fun c => { c with count := 0 })

/-- The operating part of SET_CRANE over a configuration with its geometry settled: check 4's fields, the first that
offends being named (log entry 38), then the effective values (R94). -/
def State.operateCrane (s : State) (k : Nat) (base : CraneConfig) (o : OperatingArgs) (all : Bool) : State × Reply :=
  match readFaultPolicy o.fault, readCrossing o.crossing with
  | none, _ => (s, refuseField 0x34 15)
  | some _, none => (s, refuseField 0x34 16)
  | some fault, some crossing =>
    let new := effectiveCrane base o fault crossing
    (s.configureCrane k new,
      accept 0x34 (craneClamped o new) ((if all then new.geometryVals else []) ++ new.operatingVals))

/-- SET_CRANE with the selector OPERATING (R94, R95). -/
def ownSetCraneOperating (k : Nat) (o : OperatingArgs) : Owner := fun s =>
  if k ≥ 8 then (s, refuse 0x34 .unknownCrane []) else s.operateCrane k (s.craneCfg k) o false

/-- SET_CRANE with the selector ALL (R94). -/
def ownSetCraneAll (k : Nat) (g : GeometryArgs) (o : OperatingArgs) : Owner := fun s =>
  if k ≥ 8 then (s, refuse 0x34 .unknownCrane [])
  else if s.mode ≠ .config then (s, refuse 0x34 .badMode [])
  else match badGeometry g, readYesNo g.present with
    | some place, _ => (s, refuseField 0x34 place)
    | none, none => (s, refuseField 0x34 2)
    | none, some present =>
      s.operateCrane k { s.craneCfg k with
        present := present, slotLanes := slotLaneBytes g, waterside := g.waterside, landside := g.landside } o true

/-- SET_CRANE (R94) by its selector: a selector that names neither part passes checks 1 to 3 and fails check 4. -/
def ownSetCrane (k selector : Nat) (g : GeometryArgs) (o : OperatingArgs) : Owner := fun s =>
  if selector = 0 then ownSetCraneAll k g o s
  else if selector = 1 then ownSetCraneOperating k o s
  else if k ≥ 8 then (s, refuse 0x34 .unknownCrane [])
  else (s, refuseField 0x34 1)

/-- The meaning of SET_CRANE. -/
def execSetCrane (l : DLink) (k selector : Nat) (g : GeometryArgs) (o : OperatingArgs) (s : State) :
    Host.Outcome State Fault Refusal :=
  .next (s.takeRequest l (ownSetCrane k selector g o))

/-- The meaning of SET_CRANE_OPERATING. -/
def execSetCraneOperating (l : DLink) (k : Nat) (o : OperatingArgs) (s : State) : Host.Outcome State Fault Refusal :=
  .next (s.takeRequest l (ownSetCraneOperating k o))

/-! ## CLEAR_CRANE (R112) -/

/-- The removals that every CLEAR_CRANE makes (R112): lock reasons of the crane from every segment and its intruder
marks; each reason removed calls for re-examination (log entry 27). -/
def Work.clearOf (w : Work) (k : Nat) (rs : Reasons) : Work :=
  let some_ := !(w.s.lockedWith k rs).isEmpty
  let w1 := (w.removeLocks k rs).clearMarks (.crane k)
  { w1 with reexam := w1.reexam || some_ }

/-- The other holds of a crane, which the reducing form of a release frees (R42). -/
def State.holdsBeyond (s : State) (k : Nat) (cells : List Nat) : List Nat :=
  (s.heldBy (.crane k)).filter (fun i => !cells.contains i)

/-- CLEAR_CRANE from TRAVELLING or HALTED, once its checks pass (R112); what TRAVEL_DONE carries is log entry 57. -/
def Work.clearHalted (w : Work) (k : Nat) : Work :=
  let c := w.s.crane k
  let legs := w.s.legCells k c.at
  let others := w.s.holdsBeyond k legs
  let w1 := (((w.takeLegs k legs).release others).clearOf k Reasons.ofViolation).onCrane k (fun c => { c with
    target := none, state := .standing })
  if c.state = .travelling then w1.post .travelDone (.crane k) [.byte c.at, .byte 1] else w1

/-- CLEAR_CRANE from LINK_LOST (R45, R112). -/
def Work.clearLost (w : Work) (k : Nat) : Work :=
  let w1 := w.release (w.s.ownedBy (.crane k))
  let w2 := match (w1.s.crane k).claim with
    | some claim => w1.lapse k claim .cleared
    | none => w1
  (w2.clearOf k Reasons.all).onCrane k (fun c => Crane.fresh c.frames c.repeats c.implausible)

/-- CLEAR_CRANE (R112). -/
def ownClearCrane (k : Nat) : Owner := fun s =>
  if s.mode = .config then (s, refuse 0x35 .badMode [])
  else if k ≥ 8 then (s, refuse 0x35 .unknownCrane [])
  else
    let c := s.crane k
    let answer := fun (n : Nat) (t : State) =>
      (t, accept 0x35 false [.byte (t.crane k).state.code, byteVal? (t.crane k).bay, .byte n])
    match c.state with
    | .offline => (s, refuse 0x35 .badCraneState [])
    | .standing =>
      if c.filtered ≠ .up then (s, refuse 0x35 .hoistDown [])
      else answer 0 (s.request (fun w => w.clearOf k Reasons.ofViolation))
    | .linkLost => answer (s.ownedBy (.crane k)).length (s.request (fun w => w.clearLost k))
    | .travelling | .halted =>
      if c.filtered ≠ .up then (s, refuse 0x35 .hoistDown [])
      else if !c.flags.stopped then (s, refuse 0x35 .moving [])
      else if c.episode then (s, refuse 0x35 .faultActive [])
      else match s.legConflict k (s.legCells k c.at) with
        | some (i, holder) => (s, refuse 0x35 .conflict (.half i :: partyVals holder))
        | none =>
          answer (s.holdsBeyond k (s.legCells k c.at)).length (s.request (fun w => w.clearHalted k))

/-- The meaning of CLEAR_CRANE. -/
def execClearCrane (l : DLink) (k : Nat) (s : State) : Host.Outcome State Fault Refusal :=
  .next (s.takeRequest l (ownClearCrane k))

/-! ## QUERY_CRANE (R116) -/

/-- The slots of a crane as values: the segment of each at g (NONE while there is no g), its picture code and its lock
reasons, those of each crane under its id (log entry 49). Without a g the code and the reasons keep their places, absent
(log entry 65). -/
def State.slotVals (s : State) (k : Nat) : List Val :=
  let lanes := (s.craneCfg k).slotLanes
  listVals lanes.length (lanes.flatMap (fun lane => match (s.crane k).bay with
    | some g =>
      let i := s.grid.idAt lane g
      [.half i, .byte (s.seg i).picture.code] ++ lockVals (s.seg i).lock
    | none => [idVal none, .absent 1, .absent 1]))

/-- The deadline of a claim: none in IN_USE and under void (R104, R105, R113). -/
def Claim.deadline (c : Claim) : Option Time :=
  if c.void || decide (c.phase = .inUse) then none else some (later c.start c.window)

/-- A claim as values; without one they keep their places, absent (log entry 65). -/
def claimVals : Option Claim → List Val
  | some c => [.byte c.slot, .byte c.phase.code, timeVal c.start, timeVal? c.deadline, boolVal c.void]
  | none => [.absent 1, .absent 1, .absent 4, .absent 4, .absent 1]

/-- The code of a filter candidate, 255 for none (R172). -/
def candidateCode : Option HoistClass → Nat
  | some c => c.code
  | none => 255

/-- The values of QUERY_CRANE for a crane (R116). -/
def State.craneVals (s : State) (k : Nat) : List Val :=
  let cfg := s.craneCfg k
  let c := s.crane k
  cfg.geometryVals ++ cfg.operatingVals
    ++ [.byte c.state.code, byteVal? (c.before.map CraneState.code), byteVal? c.bay, byteVal? c.target]
    ++ s.slotVals k
    ++ [byteVal? c.lastSeq, .byte (c.trolley.getD 255), .half c.height, .byte c.flags.code]
    ++ [.byte (candidateCode c.candidate), .byte c.count, .byte c.filtered.code]
    ++ claimVals c.claim
    ++ [boolVal c.episode, .byte c.faultRun, timerVal? c.timer, .half c.frames, .half c.repeats, .half c.implausible]

/-- The number of present cranes in each state (R116). -/
def State.craneSummary (s : State) : List Val :=
  [CraneState.offline, .standing, .travelling, .halted, .linkLost].map (fun st =>
    .byte (s.cfg.presentCranes.filter (fun k => decide ((s.crane k).state = st))).length)

/-- QUERY_CRANE (R116). -/
def ownQueryCrane (k : Nat) : Owner := fun s =>
  if k = noneId then (s, accept 0x36 false s.craneSummary)
  else if k ≥ 8 then (s, refuse 0x36 .unknownCrane [])
  else (s, accept 0x36 false (s.craneVals k))

/-- The meaning of QUERY_CRANE. -/
def execQueryCrane (l : DLink) (k : Nat) (s : State) : Host.Outcome State Fault Refusal :=
  .next (s.takeRequest l (ownQueryCrane k))

/-! ## CRANE_REPORT: the bay (R98, R99, R110, R111, R114) -/

/-- The first report of an OFFLINE crane (R99). -/
def Work.placeCrane (w : Work) (k b : Nat) : Work :=
  let timeout := (w.s.craneCfg k).timeout
  let legs := w.s.legCells k b
  let w1 := w.onCrane k (fun c => { c with
    bay := some b, filtered := .unknown, candidate := none, count := 0, timer := some timeout })
  let free := (w1.s.legConflict k legs).isNone
  let state := if free then CraneState.standing else .halted
  let w2 := (if free then w1.takeLegs k legs else w1.haltTake k legs).onCrane k (fun c => { c with state := state })
  w2.post .craneLinkUp (.crane k) [.byte b, .byte state.code]

/-- A leg cell at the bay of a returning crane (R45): the crane's legs stand in it unless another party has it. -/
def SegDyn.returnLeg (k : Nat) (r : SegDyn) : SegDyn :=
  if r.isFree || r.ownedBy (.crane k) then r.hold_ (.crane k) .leg else r

/-- Crane return (R45): every segment frozen under the crane becomes free except its leg cells at the bay, which pass to
HELD without having been free, and so call for no re-examination. -/
def Work.returnCells (w : Work) (k : Nat) (legs : List Nat) : Work :=
  (w.release ((w.s.frozenBy (.crane k)).filter (fun i => !legs.contains i))).onSegs legs (SegDyn.returnLeg k)

/-- The restoration of a crane lost while TRAVELLING (R114). -/
def Work.restoreTravel (w : Work) (k b : Nat) : Work :=
  let legs := w.s.legCells k b
  let w1 := (w.returnCells k legs).onCrane k (fun c => { c with bay := some b, target := none })
  if (w1.s.legConflict k legs).isNone then w1.onCrane k (fun c => { c with state := .standing })
  else ((w1.onCrane k (fun c => { c with state := .halted })).haltTake k legs).on (fun s => s.gantryStop k)

/-- The restoration of a crane lost while STANDING (R114). -/
def Work.restoreStanding (w : Work) (k : Nat) : Work :=
  let w1 := w.onCrane k (fun c => { c with state := .standing })
  match (w1.s.crane k).claim with
  | some claim => w1.lapse k claim .link
  | none => w1

/-- The first report after loss (R114). -/
def Work.restoreCrane (w : Work) (k b : Nat) : Work :=
  let timeout := (w.s.craneCfg k).timeout
  let w1 := match (w.s.crane k).before with
    | some .travelling => w.restoreTravel k b
    | some .halted => w.onCrane k (fun c => { c with state := .halted })
    | _ => w.restoreStanding k
  let w2 := w1.onCrane k (fun c => { c with before := none, timer := some timeout })
  w2.post .craneLinkUp (.crane k) [.byte b, .byte (w2.s.crane k).state.code]

/-- The leg cells of some bays (R97). -/
def State.legsOver (s : State) (k : Nat) (bays : List Nat) : List Nat := bays.flatMap (s.legCells k)

/-- A report in the travel range (R110); what TRAVEL_DONE carries is log entry 57. -/
def Work.travel (w : Work) (k b g' : Nat) (stopped : Bool) : Work :=
  let g := (w.s.crane k).at
  let w1 := if b = g then w
    else ((w.settleAt k (w.s.legCells k b)).releaseLegs k
        (w.s.legsOver k ((baysFrom g b).filter (fun x => decide (x ≠ b))))).onCrane k
      (fun c => { c with bay := some b })
  if b = g' && stopped then
    (w1.onCrane k (fun c => { c with target := none, state := .standing })).post .travelDone (.crane k)
      [.byte b, .byte 0]
  else w1

/-- A gantry violation to bay b (R111). -/
def Work.gantryViolation (w : Work) (k b : Nat) : Work :=
  let g := (w.s.crane k).at
  let cells := w.s.legsOver k (baysFrom g b)
  let marked := (cells.filter (fun i => !((w.s.seg i).isFree || (w.s.seg i).heldBy (.crane k)))).length
  let w1 := (w.on (fun s => s.gantryStop k)).haltTake k cells
  let w2 := match (w1.s.crane k).claim with
    | some claim => (w1.addLock k (w1.s.claimCell k claim) Reasons.ofViolation).lapse k claim .gantry
    | none => w1
  let w3 := w2.onCrane k (fun c => { c with bay := some b, target := none, state := .halted })
  w3.post .gantryViolation (.crane k) [.byte g, .byte b, .byte marked]

/-- Bay b lies in the travel range from g to g' (R110). -/
def inRange (g g' b : Nat) : Bool := decide (min g g' ≤ b ∧ b ≤ max g g')

/-- The reported bay against the crane's state (R98 step 3). -/
def Work.judgeBay (w : Work) (k b : Nat) (stopped : Bool) : Work :=
  let c := w.s.crane k
  match c.state, c.target with
  | .travelling, some g' => if inRange c.at g' b then w.travel k b g' stopped else w.gantryViolation k b
  | .standing, _ | .halted, _ => if b = c.at then w else w.gantryViolation k b
  | _, _ => w

/-! ## CRANE_REPORT: the hoist (R100 to R102) -/

/-- The causes of CRANE_FAULT (R172). -/
inductive FaultCause where
  | height
  | trolley
  | sensor
  | bay
  deriving DecidableEq, Repr

/-- The code of a crane fault cause (R172). -/
def FaultCause.code : FaultCause → Nat
  | .height => 0 | .trolley => 1 | .sensor => 2 | .bay => 3

/-- The code of the cause CLEARED (R172). -/
def clearedCode : Nat := 4

/-- The trolley slot names no slot of the list (R100). -/
def badTrolley (cfg : CraneConfig) (trolley : Option Nat) : Bool :=
  match trolley with
  | some t => decide (t ≥ cfg.slotLanes.length)
  | none => false

/-- Why a hoist sample is implausible, the first cause in the order of R102; none for a plausible one (R100). -/
def faultCause (cfg : CraneConfig) (c : Crane) (position : Bool) : Option FaultCause :=
  if c.height > cfg.ceiling then some .height
  else if badTrolley cfg c.trolley then some .trolley
  else if c.flags.sensorFault then some .sensor
  else if !position then some .bay
  else none

/-- The class of a plausible sample (R100). -/
def sampleClass (cfg : CraneConfig) (c : Crane) : HoistClass :=
  match c.trolley with
  | some t => if c.height < cfg.clearance then .down t else .up
  | none => .up

/-- The slots an implausible sample locks (R102). -/
def faultSlots (cfg : CraneConfig) (c : Crane) : List Nat :=
  match c.trolley with
  | some t => if t < cfg.slotLanes.length && decide (cfg.fault = .slot) then [t] else List.range cfg.slotLanes.length
  | none => List.range cfg.slotLanes.length

/-- An implausible sample (R100, R102); the slots are locked, and the carriers stopped, by slot index (log entry 56). -/
def Work.implausible (w : Work) (k : Nat) (cause : FaultCause) : Work :=
  let cfg := w.s.craneCfg k
  let c := w.s.crane k
  let slots := faultSlots cfg c
  let w1 := w.onCrane k (fun c => { c with
    implausible := bump16 c.implausible, candidate := none, count := 0, faultRun := 0, episode := true })
  let w2 := slots.foldl (fun w t => w.addLock k (w.s.slotCell k t c.at) Reasons.ofFault) w1
  if c.episode then w2
  else w2.post .craneFault (.crane k) (.byte cause.code :: listVals slots.length (slots.map Val.byte))

/-- The filter fed with a plausible sample (R100). -/
def Crane.feed (n : Nat) (cls : HoistClass) (c : Crane) : Crane :=
  let count := if c.candidate = some cls then min (c.count + 1) n else 1
  { c with candidate := some cls, count := count, filtered := if count ≥ n then cls else c.filtered }

/-- The fault run of a plausible sample (R102): the sample of class UP that makes the run N or more ends the episode
(log entry 45 for a run that a lowered N has overtaken), and CRANE_FAULT then carries its cause alone (log entry 57). -/
def Work.faultRun (w : Work) (k n : Nat) (cls : HoistClass) : Work :=
  let c := w.s.crane k
  if !c.episode then w
  else if cls ≠ .up then w.onCrane k (fun c => { c with faultRun := 0 })
  else if c.faultRun + 1 ≥ n then
    ((w.removeLocks k Reasons.ofFault).onCrane k (fun c => { c with faultRun := 0, episode := false })).post
      .craneFault (.crane k) [.byte clearedCode]
  else w.onCrane k (fun c => { c with faultRun := c.faultRun + 1 })

/-- A crossing: its slot, and whether it is a DOWN crossing (R101). -/
structure Crossing where
  slot : Nat
  down : Bool
  deriving DecidableEq, Repr

/-- The crossings of a change of the filtered class, in order (R101). -/
def crossingsOf (old new : HoistClass) : List Crossing :=
  match old, new with
  | .down t, .down u => if t = u then [] else [⟨t, false⟩, ⟨u, true⟩]
  | .down t, .up => [⟨t, false⟩]
  | _, .down u => [⟨u, true⟩]
  | _, _ => []

/-- The crossing select names a direction (R93, R101). -/
def CrossSelect.names (x : CrossSelect) (down : Bool) : Bool :=
  match x with
  | .nothing => false
  | .down => down
  | .up => !down
  | .both => true

/-- Notify a crossing whose direction is selected (R101). -/
def Work.notifyCrossing (w : Work) (k : Nat) (x : Crossing) : Work :=
  if (w.s.craneCfg k).crossing.names x.down then
    w.post .hoistCrossing (.crane k)
      [.byte x.slot, .half (w.s.slotCell k x.slot (w.s.crane k).at), .byte (if x.down then 0 else 1)]
  else w

/-- A new phase of the claim (R101, R104, R105). -/
def Crane.enterPhase (phase : ClaimPhase) (now : Time) (window : Nat) (c : Crane) : Crane :=
  { c with claim := c.claim.map (fun m => { m with phase := phase, start := now, window := window }) }

/-- The phase of the claim becomes IN_USE, which has no deadline (R101, R105); the phase start stays as it was (log
entry 44). -/
def Crane.useClaim (c : Crane) : Crane := { c with claim := c.claim.map (fun m => { m with phase := .inUse }) }

/-- An UP crossing at t (R101, R105). -/
def Work.crossUp (w : Work) (k t : Nat) : Work :=
  match (w.s.crane k).claimOn t with
  | some claim =>
    if claim.phase = .inUse then
      w.onCrane k (fun c => c.enterPhase .raised w.s.now (1000 * (w.s.craneCfg k).window))
    else w
  | none => w

/-- A DOWN crossing at t that the claim takes (R101), also one from UNKNOWN under a claim granted since the crane's return
(log entry 62). -/
def State.claimTakes (s : State) (k t : Nat) : Bool :=
  let c := s.crane k
  decide (c.state = .standing) && (s.craneCfg k).enable.getLsbD t && (match c.claimOn t with
    | some claim => decide (claim.phase = .granted) || decide (claim.phase = .raised)
    | none => false)

/-- A DOWN crossing at t (R101, R107). -/
def Work.crossDown (w : Work) (k t : Nat) : Work :=
  if w.s.claimTakes k t then w.onCrane k Crane.useClaim else w.hoistViolation k t

/-- A crossing is acted on (R101). -/
def Work.cross (w : Work) (k : Nat) (x : Crossing) : Work :=
  if x.down then w.crossDown k x.slot else w.crossUp k x.slot

/-- A change of the filtered class (R101): the crossings notified, then acted on, and a change to UP removes LINK. -/
def Work.filteredChange (w : Work) (k : Nat) (old new : HoistClass) : Work :=
  if old = new then w
  else
    let xs := crossingsOf old new
    let w1 := xs.foldl (fun w x => w.notifyCrossing k x) w
    let w2 := xs.foldl (fun w x => w.cross k x) w1
    if new = .up then w2.removeLocks k Reasons.ofLink else w2

/-- Steps 4 and 5 of a crane report (R98). -/
def Work.judgeHoist (w : Work) (k : Nat) (position : Bool) : Work :=
  let cfg := w.s.craneCfg k
  let c := w.s.crane k
  match faultCause cfg c position with
  | some cause => w.implausible k cause
  | none =>
    let cls := sampleClass cfg c
    let w1 := (w.onCrane k (Crane.feed cfg.filter cls)).faultRun k cfg.filter cls
    w1.filteredChange k c.filtered (w1.s.crane k).filtered

/-- A report outside CONFIG, whose fields the record has stored (R98, R99, R114). -/
def Work.craneReport (w : Work) (k b : Nat) (stopped : Bool) : Work :=
  let c := w.s.crane k
  if b < w.s.grid.bays then
    match c.state with
    | .offline => (w.placeCrane k b).judgeHoist k true
    | .linkLost => ((w.restoreCrane k b).judgeBay k b stopped).judgeHoist k true
    | _ => (w.judgeBay k b stopped).judgeHoist k true
  else if c.state = .offline then w.onCrane k (fun c => { c with implausible := bump16 c.implausible })
  else (w.on (fun s => s.gantryStop k)).judgeHoist k false

/-- CRANE_REPORT of a present crane (R98): a repeat is counted; any other report is stored and taken whole, as one request
of R21 with one report to the Picture Broadcaster (log entry 60).
DESIGN CHOICE: a trolley slot of 4 to 254 is stored as that number (log entry 68). -/
def State.takeCraneReport (s : State) (k : Nat) (a : CraneReportArgs) : State :=
  if (s.crane k).lastSeq = some a.seq then s.onCrane k (fun c => { c with repeats := bump16 c.repeats })
  else
    let s1 := s.onCrane k (fun c => { c with
      lastSeq := some a.seq, trolley := readTrolley a.trolley, height := a.height, flags := readCraneFlags a.flags })
    if s.mode = .config then s1.hoistStop k
    else s1.request (fun w => w.craneReport k a.bay (readCraneFlags a.flags).stopped)

/-- The meaning of CRANE_REPORT. -/
def execCraneReport (k : Fin 8) (a : CraneReportArgs) (s : State) : Host.Outcome State Fault Refusal :=
  .next (s.takeCrane k (fun s => s.takeCraneReport k a)).pump

/-! ## LOWER_REQUEST (R103) -/

/-- Check 6 of LOWER_REQUEST: FREE, or HELD STANDING by an IDLE carrier at rest (R103). -/
def State.lowerable (s : State) (i : Nat) : Bool :=
  match (s.seg i).hold with
  | .free => true
  | .held (.carrier c) .standing => match s.carrier? c with
    | some r => decide (r.state = .idle ∧ r.speed = 0)
    | none => false
  | _ => false

/-- The checks of LOWER_REQUEST: the refusal, or the slot segment (R103). -/
def State.lowerChecks (s : State) (k t : Nat) : Except Reply Nat :=
  let c := s.crane k
  let cfg := s.craneCfg k
  if s.mode ≠ .active then .error (refuse 0x11 .badMode [.byte s.mode.code])
  else if c.state = .travelling then .error (refuse 0x11 .inTransit [byteVal? c.target])
  else if c.state ≠ .standing then .error (refuse 0x11 .badCraneState [.byte c.state.code])
  else match c.claim with
  | some claim => .error (refuse 0x11 .claimActive [.byte claim.slot, .byte claim.phase.code])
  | none =>
    if t ≥ cfg.slotLanes.length then .error (refuse 0x11 .badSlot [.byte t])
    else if !(cfg.enable.getLsbD t) then .error (refuse 0x11 .slotDisabled [.byte t])
    else
      let i := s.slotCell k t c.at
      let r := s.seg i
      if !r.inService then .error (refuse 0x11 .outOfService [.half i])
      else if r.intruder.isSome then .error (refuse 0x11 .intruded [.half i])
      else if r.isLocked then .error (refuse 0x11 .locked (.half i :: lockCranes r.lock))
      else if !s.lowerable i then .error (refuse 0x11 .conflict (.half i :: partyVals r.holder))
      else .ok i

/-- LOWER_REQUEST (R103): CLAIM joins the lock of the slot segment and the claim is GRANTED. -/
def ownLower (k t : Nat) : Owner := fun s =>
  match s.lowerChecks k t with
  | .error reply => (s, reply)
  | .ok i =>
    let claim : Claim := ⟨t, .granted, s.now, 1000 * (s.craneCfg k).window, false⟩
    (s.request (fun w => (w.addLock k i Reasons.ofClaim).onCrane k (fun c => { c with claim := some claim })),
      ⟨0x11, .granted, .none_, false, [.byte t, .half i]⟩)

/-- The meaning of LOWER_REQUEST. -/
def execLowerRequest (k : Fin 8) (t : Nat) (s : State) : Host.Outcome State Fault Refusal :=
  .next (s.craneRequest k (ownLower k t)).pump

/-! ## SLOT_RELEASE (R106) -/

/-- SLOT_RELEASE (R106): outside ACTIVE it is refused BAD_MODE, and in LINK_LOST BAD_CRANE_STATE (R113, log entry
18). -/
def ownRelease (k : Nat) : Owner := fun s =>
  let c := s.crane k
  if s.mode ≠ .active then (s, refuse 0x12 .badMode [])
  else if c.state = .linkLost then (s, refuse 0x12 .badCraneState [])
  else match c.claim with
    | none => (s, refuse 0x12 .noClaim [])
    | some claim =>
      if claim.phase = .inUse then (s, refuse 0x12 .hoistDown [])
      else
        (s.request (fun w => (w.endClaim k (s.claimCell k claim)).onCrane k Crane.dropClaim),
          accept 0x12 false [.byte claim.slot])

/-- The meaning of SLOT_RELEASE. -/
def execSlotRelease (k : Fin 8) (s : State) : Host.Outcome State Fault Refusal :=
  .next (s.craneRequest k (ownRelease k)).pump

/-! ## GANTRY_REQUEST (R109) -/

/-- Why a leg cell cannot be taken for travel, in the order of R19 (R42, R109 check 8). -/
def SegDyn.travelCause (r : SegDyn) : Option Reason :=
  if !r.isFree then some .conflict
  else if !r.inService then some .outOfService
  else if r.intruder.isSome then some .intruded
  else none

/-- All the reasons of a hoist lock together. -/
def lockReasons (t : Table Reasons) : Reasons := t.rows.foldl (fun a r => a.join r.2) Reasons.none_

/-- The cells a travel takes: at each bay after g up to g', waterside before landside (R109). -/
def State.travelCells (s : State) (k g g' : Nat) : List Nat :=
  s.legsOver k ((baysFrom g g').filter (fun x => decide (x ≠ g)))

/-- The checks of GANTRY_REQUEST: the refusal, or the cells to take (R109). Check 7 looks at the slot segments of the bay
where the crane stands: its own FAULT lock at an earlier bay does not refuse travel (log entry 55). Of several locked
slot segments it names that of the lowest slot index (log entry 63). -/
def State.gantryChecks (s : State) (k b : Nat) : Except Reply (List Nat) :=
  let c := s.crane k
  if s.mode ≠ .active then .error (refuse 0x13 .badMode [])
  else if c.state ≠ .standing then .error (refuse 0x13 .badCraneState [.byte c.state.code])
  else if b ≥ s.grid.bays then .error (refuse 0x13 .badBay [])
  else if b = c.at then .error (refuse 0x13 .sameBay [])
  else if c.filtered ≠ .up then .error (refuse 0x13 .hoistDown [.byte c.filtered.code])
  else if c.claim.isSome then .error (refuse 0x13 .claimActive [])
  else match (s.slotCells k c.at).find? (fun i => (s.seg i).isLocked) with
  | some i => .error (refuse 0x13 .locked [.half i, .byte (lockReasons (s.seg i).lock).code])
  | none =>
    let cells := s.travelCells k c.at b
    match cells.find? (fun i => (s.seg i).travelCause.isSome) with
    | some i =>
      let why := (s.seg i).travelCause.getD .conflict
      .error (refuse 0x13 why ((if why = .conflict then partyVals (s.seg i).holder else []) ++ [.half i]))
    | none => .ok cells

/-- GANTRY_REQUEST (R109). -/
def ownGantry (k b : Nat) : Owner := fun s =>
  match s.gantryChecks k b with
  | .error reply => (s, reply)
  | .ok cells =>
    (s.request (fun w => (w.takeTravel k cells).onCrane k (fun c => { c with state := .travelling, target := some b })),
      ⟨0x13, .granted, .none_, false, [.byte b, .byte cells.length]⟩)

/-- The meaning of GANTRY_REQUEST. -/
def execGantryRequest (k : Fin 8) (b : Nat) (s : State) : Host.Outcome State Fault Refusal :=
  .next (s.craneRequest k (ownGantry k b)).pump

/-! ## The Slot Monitor's own events -/

/-- The cause a claim lapses for when its deadline is reached (R104, R105); none when it has not lapsed. -/
def Claim.lapseCause (now : Time) (c : Claim) : Option LapseCause :=
  if c.void || decide (elapsed now c.start < c.window) then none
  else match c.phase with
    | .granted => some .granted
    | .raised => some .raised
    | .inUse => none

/-- CLAIM_LAPSED (R104, R105): a claim whose deadline has not been reached stays (log entry 3). -/
def State.lapseClaim (s : State) (k : Nat) : State :=
  match (s.crane k).claim with
  | some claim => match claim.lapseCause s.now with
    | some cause => s.request (fun w => w.lapse k claim cause)
    | none => s
  | none => s

/-- The meaning of CLAIM_LAPSED. -/
def execClaimLapsed (k : Fin 8) (s : State) : Host.Outcome State Fault Refusal := .next (s.lapseClaim k).pump

/-- The record of a crane that enters LINK_LOST (R113): its claim, if any, is void. -/
def Crane.lost (c : Crane) : Crane :=
  { c with
    state := .linkLost
    before := some c.state
    timer := none
    filtered := .unknown
    candidate := none
    count := 0
    claim := c.claim.map (fun m => { m with void := true }) }

/-- The segments a crane holds with kind TRAVEL or LEG (R44). -/
def State.craneGround (s : State) (k : Nat) : List Nat :=
  s.segs.keysWhere (fun r => decide (r.hold = .held (.crane k) .leg) || decide (r.hold = .held (.crane k) .travel))

/-- Entry to LINK_LOST (R113); which values of the claim CRANE_LINK_DOWN carries, and that it is void by then, is log
entry 50, and that the slots are locked by slot index log entry 56. -/
def Work.loseCrane (w : Work) (k : Nat) : Work :=
  let c := w.s.crane k
  let w1 := w.onCrane k Crane.lost
  let w2 := (w1.s.slotCells k c.at).foldl (fun w i => w.addLock k i Reasons.ofLink) w1
  let w3 := if c.state = .travelling then w2.onSegs (w2.s.craneGround k) SegDyn.freeze else w2
  w3.post .craneLinkDown (.crane k) ([.byte c.state.code, .byte c.at] ++ claimVals (w3.s.crane k).claim)

/-- CRANE_LINK_DOWN (R113): an expiry whose timer has not reached 0 is no event (log entry 3); a partial frame on the
link is discarded (R171). -/
def State.expireCrane (s : State) (k : Nat) : State :=
  if (s.crane k).state.supervised && decide ((s.crane k).timer = some 0) then
    State.request (s.onCraneLink k (fun l => { l with rx := Receiver.hunting })) (fun w => w.loseCrane k)
  else s

/-- The meaning of CRANE_LINK_DOWN. -/
def execCraneLinkDown (k : Fin 8) (s : State) : Host.Outcome State Fault Refusal := .next (s.expireCrane k).pump

/-- The meaning of CRANE_TRANSMIT_COMPLETE (R108): the transmitter takes the head of the queue. -/
def execCraneTransmitComplete (k : Fin 8) (s : State) : Host.Outcome State Fault Refusal :=
  .next (State.pump (s.onCraneLink k (fun l => CraneLink.transmit { l with sending := none })))

end Sys2Proof.Machine
end

