-- ==== Sys2Proof/Machine/GridCmds.lean ====
section
/-! DEFINITION. SET_GRID, SET_SEGMENT, QUERY_GRID, SEGMENT_BLOCK, SEGMENT_UNBLOCK and QUERY_SEGMENT (R6 to R11, R38,
R46). -/

namespace Sys2Proof.Machine

/-- The effective dimensions of SET_GRID (R6): both clamped, then the bay count reduced to at most 512 cells. -/
def gridSize (lanes bays : Nat) : Nat × Nat :=
  let l := clampTo 1 16 lanes
  let b := clampTo 1 64 bays
  (l, if l * b > Config.maxCells then Config.maxCells / l else b)

/-- The default grid of some dimensions (R7). -/
def Grid.blank (lanes bays : Nat) : Grid := ⟨lanes, bays, Table.filled (lanes * bays) SegStatic.default⟩

/-- SET_GRID (R6, R7): in CONFIG the grid and its dynamic records are replaced as a whole. -/
def ownSetGrid (lanes bays : Nat) : Owner := fun s =>
  if s.mode ≠ .config then (s, refuse 0x23 .badMode [])
  else
    let d := gridSize lanes bays
    let s1 : State := { s with cfg := { s.cfg with grid := Grid.blank d.1 d.2 } }
    (s1.resetSegs,
      accept 0x23 (decide (d ≠ (lanes, bays))) [.byte d.1, .byte d.2, .half (d.1 * d.2)])

/-- The meaning of SET_GRID. -/
def execSetGrid (l : DLink) (lanes bays : Nat) (s : State) : Host.Outcome State Fault Refusal :=
  .next (s.takeRequest l (ownSetGrid lanes bays))

/-- The static record that SET_SEGMENT carries, or the place of the first field, in the order of the layout, that is
outside its enumeration (R8 check 3, log entry 38). -/
def readSegment (a : SegmentArgs) : Except Nat SegStatic :=
  match readYesNo a.usable, readSegKind a.kind, readYesNo a.crossNext, readClosure a.closure with
  | none, _, _, _ => .error 2
  | some _, none, _, _ => .error 3
  | some _, some _, none, _ => .error 6
  | some _, some _, some _, none => .error 7
  | some u, some k, some x, some (d, r) => .ok ⟨u, k, clampTo 100 5000 a.length, clampTo 50 800 a.limit, x, d, r⟩

/-- SET_SEGMENT (R8, R9): the record written into a run of ids, whose closures are brought into line. -/
def ownSetSegment (a : SegmentArgs) : Owner := fun s =>
  if s.mode ≠ .config then (s, refuse 0x24 .badMode [])
  else if !s.grid.inside a.first then (s, refuse 0x24 .badSegment [.half a.first])
  else match readSegment a with
    | .error place => (s, refuseField 0x24 place)
    | .ok rec =>
      let n := min (clampTo 1 64 a.count) (s.grid.cellCount - a.first)
      let ids := (List.range n).map (fun i => a.first + i)
      let cells := ids.foldl (fun t i => Table.put t i rec) s.grid.cells
      let s1 : State := { s with cfg := { s.cfg with grid := { s.cfg.grid with cells := cells } } }
      (s1.request (fun w => w.alignClosures ids),
        accept 0x24 (decide (n ≠ a.count ∨ rec.length ≠ a.length ∨ rec.limit ≠ a.limit))
          [.byte n, .half rec.length, .half rec.limit])

/-- The meaning of SET_SEGMENT. -/
def execSetSegment (l : DLink) (a : SegmentArgs) (s : State) : Host.Outcome State Fault Refusal :=
  .next (s.takeRequest l (ownSetSegment a))

/-- QUERY_GRID (R11). -/
def ownQueryGrid : Owner := fun s =>
  let g := s.grid
  (s, accept 0x25 false ([.byte g.lanes, .byte g.bays, .half g.cellCount,
    .half (g.ids.filter g.usable).length, .half (g.ids.filter g.isGate).length] ++ resultVals s.cfg.validate))

/-- The meaning of QUERY_GRID. -/
def execQueryGrid (l : DLink) (s : State) : Host.Outcome State Fault Refusal :=
  .next (s.takeRequest l ownQueryGrid)

/-- Set or clear BLOCK in the out-of-service set of every segment of a clamped rectangle (R38); the number of sets
that change is the number whose BLOCK changes. -/
def ownBlock (kind : Nat) (rect : Rect) (block : Bool) : Owner := fun s =>
  if s.mode = .config then (s, refuse kind .badMode [])
  else
    let r := clampRect s.grid rect
    let ids := rectIds s.grid r
    let changed := (ids.filter (fun i => decide ((s.seg i).oos.block ≠ block))).length
    (s.request (fun w => w.onSegs ids (fun d => { d with oos := { d.oos with block := block } })),
      accept kind (decide (r ≠ rect)) [.byte r.lane, .byte r.lanes, .byte r.bay, .byte r.bays, .half changed])

/-- The meaning of SEGMENT_BLOCK (R38). -/
def execSegmentBlock (l : DLink) (rect : Rect) (s : State) : Host.Outcome State Fault Refusal :=
  .next (s.takeRequest l (ownBlock 0x2A rect true))

/-- The meaning of SEGMENT_UNBLOCK (R38). -/
def execSegmentUnblock (l : DLink) (rect : Rect) (s : State) : Host.Outcome State Fault Refusal :=
  .next (s.takeRequest l (ownBlock 0x2B rect false))

/-- The static record of a segment as values (R46). -/
def SegStatic.vals (r : SegStatic) : List Val :=
  [boolVal r.usable, .byte r.kind.code, .half r.length, .half r.limit, boolVal r.crossNext,
    .byte (bitCode r.dlc + 2 * bitCode r.rlc)]

/-- The dynamic record of a segment as values (R46). -/
def SegDyn.vals (r : SegDyn) : List Val :=
  let kind : Val := match r.hold with
    | .free => .absent 1
    | .held _ k => .byte k.code
    | .frozen _ k => .byte k.code
  [.byte r.hold.code] ++ partyVals r.holder ++ [kind] ++ lockVals r.lock ++ [.byte r.oos.code] ++ partyVals r.intruder

/-- What QUERY_SEGMENT adds when the holder is a carrier with a route record (R46). The index of a segment that stands
outside the list (log entry 40) keeps its place and is absent (log entry 65). -/
def State.routeVals (s : State) (i : Nat) : List Val :=
  match (s.seg i).holdingCarrier with
  | some c => match s.route? c with
    | some r => [byteVal? (placeOf r.list i), .byte r.version, .half r.tag, .byte r.origin.key]
    | none => []
  | none => []

/-- QUERY_SEGMENT (R46). -/
def ownQuerySegment (i : Nat) : Owner := fun s =>
  if !s.grid.inside i then (s, refuse 0x2C .badSegment [])
  else
    (s, accept 0x2C false ([.byte (s.grid.laneOf i), .byte (s.grid.bayOf i)] ++ (s.grid.record i).vals
      ++ (s.seg i).vals ++ [.byte (s.seg i).picture.code,
        .byte (s.waiting.filter (fun e => decide (e.lastBlock = i))).length] ++ s.routeVals i))

/-- The meaning of QUERY_SEGMENT. -/
def execQuerySegment (l : DLink) (i : Nat) (s : State) : Host.Outcome State Fault Refusal :=
  .next (s.takeRequest l (ownQuerySegment i))

end Sys2Proof.Machine
end

