-- ==== Sys2Proof/Machine/Line.lean ====
section
/-! DEFINITION. The line: the CRC and the envelope, the receiver byte by byte, and the bytes of the frames the part sends
(R170 to R175). -/

namespace Sys2Proof.Machine

/-! ## The envelope (R170) -/

/-- The sync byte. -/
def syncByte : Byte := 0xA5

/-- One bit of the CRC: a shift to the left, and the polynomial x^16 + x^12 + x^5 + 1 where a one is shifted out. -/
def crcBit (c : BitVec 16) : BitVec 16 := if c.msb then (c <<< 1) ^^^ 0x1021#16 else c <<< 1

/-- One byte of the CRC, most significant bit first. -/
def crcByte (c : BitVec 16) (b : Byte) : BitVec 16 :=
  let x := c ^^^ (b.zeroExtend 16 <<< 8)
  crcBit (crcBit (crcBit (crcBit (crcBit (crcBit (crcBit (crcBit x)))))))

/-- The CRC of some bytes: initial value 0xFFFF, no final inversion (R170). -/
def crc16 (bytes : List Byte) : BitVec 16 := bytes.foldl crcByte 0xFFFF#16

/-- The bytes of a CRC, high byte first (R170). -/
def crcBytes (bytes : List Byte) : List Byte := bytesOf (crc16 bytes).toNat

/-- A frame on the line, from its kind and payload (R170). -/
def envelope (kind : Nat) (payload : List Byte) : List Byte :=
  let covered := bytesOf payload.length ++ byteOf kind ++ payload
  syncByte :: covered ++ crcBytes covered

/-! ## The receiver (R171) -/

/-- What a byte brings about at a receiver. -/
inductive RxResult where
  | nothing
  | bad
  | frame (kind : Nat) (payload : List Byte)
  deriving DecidableEq, Repr

/-- The length field a receiver has taken. -/
def rxLength : List Byte → Nat
  | hi :: lo :: _ => half hi lo
  | _ => 0

/-- The end of a frame: length, kind, payload and CRC have been taken (R171). -/
def rxFinish (taken : List Byte) : RxResult :=
  let n := rxLength taken
  let covered := taken.take (3 + n)
  if taken.drop (3 + n) = crcBytes covered then .frame (nth covered 2 0).toNat (covered.drop 3) else .bad

/-- A receiver takes one byte (R171). -/
def Receiver.takeByte (r : Receiver) (b : Byte) : Receiver × RxResult :=
  match r.state with
  | .hunt => if b = syncByte then (⟨.header, []⟩, .nothing) else (Receiver.hunting, .nothing)
  | .header =>
    let taken := r.taken ++ [b]
    if taken.length < 2 then (⟨.header, taken⟩, .nothing)
    else if rxLength taken < 4 ∨ rxLength taken > 250 then (Receiver.hunting, .bad)
    else (⟨.body, taken⟩, .nothing)
  | .body =>
    let taken := r.taken ++ [b]
    if taken.length < rxLength taken + 5 then (⟨.body, taken⟩, .nothing)
    else (Receiver.hunting, rxFinish taken)

/-! ## Details and outgoing frames (R174, R175) -/

/-- The bytes of a 4-byte field, high byte first (R172). -/
def wordBytes (n : Nat) : List Byte := bytesOf (n / 65536) ++ bytesOf (n % 65536)

/-- The bytes of a detail value; those of an absent value and of a field's name are free values (log entry 9). -/
def Val.bytes : Val → List Byte
  | .byte n => byteOf n
  | .half n => bytesOf n
  | .word n => wordBytes n
  | .absent w => (List.range w).map (Config.absentByte w)
  | .field n => [Config.fieldByte n]
  | .raw bs => bs

/-- The bytes of a detail. -/
def detailBytes (vs : List Val) : List Byte := vs.flatMap Val.bytes

/-- The payload of a REPLY (R174). -/
def Reply.payload (r : Reply) : List Byte :=
  byteOf r.kind ++ byteOf r.status.code ++ bytesOf r.reason.code ++ byteOf (bitCode r.clamped) ++ detailBytes r.detail

/-- A REPLY frame on the line. -/
def Reply.line (r : Reply) : List Byte := envelope 0x7F r.payload

/-- The type byte and id of a subject (R172, R175). -/
def Subject.bytes : Subject → List Byte
  | .nothing => byteOf 0 ++ bytesOf noneId
  | .carrier c => byteOf 1 ++ bytesOf c
  | .crane k => byteOf 2 ++ bytesOf k
  | .segment i => byteOf 3 ++ bytesOf i
  | .link n => byteOf 4 ++ bytesOf n

/-- A NOTIFICATION frame on the line (R175). -/
def Notif.line (n : Notif) : List Byte :=
  envelope 0x7E (byteOf n.kind.code ++ wordBytes n.time.toNat ++ n.subject.bytes ++ detailBytes n.detail)

/-- A sequence echo, or a crane's last sequence: 65535 when absent (R174, R175). -/
def seqBytes (seq : Option Nat) : List Byte := bytesOf (seq.getD noneId)

/-- The payload of an AUTHORITY frame (R174). -/
def Authority.payload (a : Authority) : List Byte :=
  bytesOf a.carrier ++ seqBytes a.echo ++ byteOf a.version ++ byteOf a.command.code ++ bytesOf (a.endSeg.getD noneId)
    ++ bytesOf a.endOff ++ byteOf a.code ++ byteOf a.upcoming.length
    ++ a.upcoming.flatMap (fun i => bytesOf (i.getD noneId))

/-- The payload of a PICTURE_ROW frame (R174). -/
def PictureRow.payload (r : PictureRow) : List Byte :=
  byteOf r.cycle ++ byteOf r.lane ++ byteOf r.bay ++ byteOf r.codes.length
    ++ r.codes.flatMap (fun c => byteOf c.code)

/-- A frame of a radio link on the line. -/
def RadioFrame.line : RadioFrame → List Byte
  | .authority a => envelope 0x08 a.payload
  | .row r => envelope 0x09 r.payload

/-- A frame of a crane link on the line (R175). -/
def CraneFrame.line : CraneFrame → List Byte
  | .reply r => r.line
  | .hoistStop seq => envelope 0x18 (pad4 (seqBytes seq))
  | .gantryStop seq => envelope 0x19 (pad4 (seqBytes seq))
  | .lowerRevoked seq t => envelope 0x1A (pad4 (seqBytes seq ++ byteOf t))

/-- The frame a dispatch transmitter sends, on the line (R149). -/
def DispatchLink.line (d : DispatchLink) : List Byte :=
  match d.tx with
  | .idle => []
  | .reply r => r.line
  | .notification => match d.notifs with
    | n :: _ => n.line
    | [] => []

end Sys2Proof.Machine
end

