-- ==== Sys2Proof/Machine/LinkCmds.lean ====
section
/-! DEFINITION. HEARTBEAT, SET_DISPATCH, QUERY_LINK, and the dispatch links' own events (R144, R145, R149, R151, R152,
R154). -/

namespace Sys2Proof.Machine

/-- HEARTBEAT (R151): the mode, the part time, the other dispatch link and the save state. -/
def ownHeartbeat (l : DLink) : Owner := fun s =>
  (s, accept 0x20 false
    [.byte s.mode.code, timeVal s.now, boolVal (s.dlink l.other).up, boolVal s.save.isSome])

/-- The meaning of HEARTBEAT. -/
def execHeartbeat (l : DLink) (s : State) : Host.Outcome State Fault Refusal := .next (s.takeRequest l (ownHeartbeat l))

/-- SET_DISPATCH (R145); a timeout in the reply is as wide as in the request (log entry 9). -/
def ownSetDispatch (a b : Nat) : Owner := fun s =>
  let ta := clampTo 200 5000 a
  let tb := clampTo 200 5000 b
  ({ s with cfg := { s.cfg with timeoutA := ta, timeoutB := tb } },
    accept 0x21 (decide (ta ≠ a ∨ tb ≠ b)) [.half ta, .half tb])

/-- The meaning of SET_DISPATCH. -/
def execSetDispatch (l : DLink) (a b : Nat) (s : State) : Host.Outcome State Fault Refusal :=
  .next (s.takeRequest l (ownSetDispatch a b))

/-! ## QUERY_LINK (R154) -/

/-- The code of a dispatch transmitter's state (R172). -/
def DispatchTx.code : DispatchTx → Nat
  | .idle => 0
  | .reply _ => 1
  | .notification => 1

/-- The values of QUERY_LINK for a dispatch link (R154). -/
def State.dispatchVals (s : State) (l : DLink) : List Val :=
  let d := s.dlink l
  [boolVal d.up, .half (s.dtimeout l), timerVal? d.timer, .byte d.tx.code, .byte d.replies.length,
    .byte d.notifs.length, .half d.dropCount, boolVal s.lossSince.isSome, .half d.good, .half d.crcErrors,
    .half d.badKinds, .half d.overruns, .half d.discarded]

/-- The values of QUERY_LINK for a radio link (R131, R154); while no sweep runs its next id is the id NONE (log entry
59). -/
def State.radioVals (s : State) (r : Nat) : List Val :=
  let l := s.radio r
  let cfg := s.radioCfg r
  [.half l.good, .half l.crcErrors, .half l.duplicates, .half l.unusable, boolVal cfg.configured, .half cfg.timeout,
    .byte l.state.code, timerVal? l.timer, boolVal l.sending.isSome, .byte l.urgent.length, .byte l.normal.length,
    .byte (s.learning.countWhere (fun e => decide (e.link = r))), .byte s.cfg.aging, .byte s.learning.rows.length,
    idVal (s.flush.map (fun f => f.next))]

/-- The values of QUERY_LINK for a crane link (R154). -/
def State.craneLinkVals (s : State) (k : Nat) : List Val :=
  let c := s.crane k
  [boolVal (s.craneCfg k).present, .byte c.state.code, timerVal? c.timer, .half c.frames,
    .half (s.craneLink k).crcErrors, .half (s.craneLink k).unusable]

/-- QUERY_LINK (R154): the rule names no detail for its BAD_VALUE (log entry 35). -/
def ownQueryLink (sel : Nat) : Owner := fun s =>
  if sel = 0 then (s, accept 0x22 false (s.dispatchVals .a))
  else if sel = 1 then (s, accept 0x22 false (s.dispatchVals .b))
  else if sel < 6 then (s, accept 0x22 false (s.radioVals (sel - 2)))
  else if sel < 14 then (s, accept 0x22 false (s.craneLinkVals (sel - 6)))
  else (s, refuse 0x22 .badValue [])

/-- The meaning of QUERY_LINK. -/
def execQueryLink (l : DLink) (sel : Nat) (s : State) : Host.Outcome State Fault Refusal :=
  .next (s.takeRequest l (ownQueryLink sel))

/-! ## The links' own events -/

/-- DISPATCH_LINK_TIMEOUT (R144, R152): an expiry whose timer has not reached 0 is no event (log entry 3). -/
def State.expireDispatch (s : State) (l : DLink) : State :=
  if (s.dlink l).up && decide ((s.dlink l).timer = some 0) then
    let s1 := s.onDlink l DispatchLink.lose
    if (s1.dlink l.other).up then s1 else s1.loseDispatch l
  else s

/-- The meaning of DISPATCH_LINK_TIMEOUT. -/
def execDispatchLinkTimeout (l : DLink) (s : State) : Host.Outcome State Fault Refusal :=
  .next (s.expireDispatch l).pump

/-- The meaning of DISPATCH_TRANSMIT_COMPLETE (R149, R158, R159). -/
def execDispatchTransmitComplete (l : DLink) (s : State) : Host.Outcome State Fault Refusal :=
  .next (s.onDlink l (DispatchLink.complete s.now l.key)).pump

end Sys2Proof.Machine
end

