-- ==== Sys2Proof/Machine/CarrierCmds.lean ====
section
/-! DEFINITION. The roster, the classes, recovery and clearing, QUERY_CARRIER, and the two timeouts (R47 to R50, R66,
R68, R70 to R73). -/

namespace Sys2Proof.Machine

/-! ## The roster -/

/-- REGISTER_CARRIER (R47): the roster entry and a record in OFFLINE; the last event sequence becomes absent (R124). -/
def ownRegister (c k : Nat) : Owner := fun s =>
  if c ≥ Config.carrierCount then (s, refuse 0x2D .unknownCarrier [.half c])
  else if k ≥ 4 then (s, refuse 0x2D .badClass [.byte k])
  else match s.carrier? c with
    | some r => (s, refuse 0x2D .alreadyRegistered [.byte (s.classOf c), .byte r.state.code])
    | none =>
      let s1 := State.putCarrier { s with
        cfg := { s.cfg with roster := s.cfg.roster.put c k }
        eventSeqs := s.eventSeqs.del c } c (Carrier.fresh (s.classVals k))
      (s1.request (fun w => (w.notifyState c noState CarrierState.offline.code []).concern c), accept 0x2D false [])

/-- The meaning of REGISTER_CARRIER. -/
def execRegisterCarrier (l : DLink) (c k : Nat) (s : State) : Host.Outcome State Fault Refusal :=
  .next (s.takeRequest l (ownRegister c k))

/-- Remove a carrier from the roster with its record and learning entry (R48, R126), notified with the new state NONE. -/
def Work.discard (w : Work) (c : Nat) (state : CarrierState) : Work :=
  (w.on (fun s => { s with
    cfg := { s.cfg with roster := s.cfg.roster.del c }
    carriers := s.carriers.del c
    learning := s.learning.del c })).notifyState c state.code noState []

/-- DEREGISTER_CARRIER (R48). -/
def ownDeregister (c : Nat) : Owner := fun s =>
  match s.carrier? c with
  | none => (s, refuse 0x2E .unknownCarrier [])
  | some r =>
    match r.state with
    | .authorized | .emergency | .missing | .lost => (s, refuse 0x2E .badCarrierState [.byte r.state.code])
    | .offline | .away => (s.request (fun w => w.discard c r.state), accept 0x2E false [.byte r.state.code, .byte 0])
    | .idle =>
      let ids := s.standing c
      (s.request (fun w =>
          (((w.authorityRun c true).release ids).dropStale c .deregistered).discard c r.state),
        accept 0x2E false [.byte r.state.code, .byte ids.length])

/-- The meaning of DEREGISTER_CARRIER. -/
def execDeregisterCarrier (l : DLink) (c : Nat) (s : State) : Host.Outcome State Fault Refusal :=
  .next (s.takeRequest l (ownDeregister c))

/-! ## Classes -/

/-- The effective class record of SET_CLASS (R50). -/
def effectiveClass (a : ClassArgs) (early : EarlyPolicy) : ClassVals where
  maxSpeed := clampTo 50 800 a.maxSpeed
  decel := clampTo 50 300 a.decel
  margin := clampTo 0 2000 a.margin
  latency := clampTo 0 2000 a.latency
  period := clampTo 100 2000 a.period / 10 * 10
  window := windowStep a.window
  grace := clampTo 100 2000 a.grace
  early := early
  overTol := clampTo 0 100 a.overTol
  stopTol := clampTo 0 200 a.stopTol

/-- A class record as values in the order of R49. -/
def ClassVals.vals (v : ClassVals) : List Val :=
  [.half v.maxSpeed, .half v.decel, .half v.margin, .half v.latency, .half v.period, .byte v.window, .half v.grace,
    .byte v.early.code, .byte v.overTol, .byte v.stopTol]

/-- An effective value differs from the value requested (R50). -/
def classClamped (a : ClassArgs) (v : ClassVals) : Bool :=
  decide (v.maxSpeed ≠ a.maxSpeed ∨ v.decel ≠ a.decel ∨ v.margin ≠ a.margin ∨ v.latency ≠ a.latency
    ∨ v.period ≠ a.period ∨ v.window ≠ a.window ∨ v.grace ≠ a.grace ∨ v.overTol ≠ a.overTol ∨ v.stopTol ≠ a.stopTol)

/-- SET_CLASS (R50). -/
def ownSetClass (a : ClassArgs) : Owner := fun s =>
  if a.cls ≥ 4 then (s, refuse 0x2F .badClass [])
  else match readEarly a.early with
    | none => (s, refuseField 0x2F 8)
    | some early =>
      let v := effectiveClass a early
      ({ s with cfg := { s.cfg with classes := s.cfg.classes.put a.cls v } },
        accept 0x2F (classClamped a v) v.vals)

/-- The meaning of SET_CLASS. -/
def execSetClass (l : DLink) (a : ClassArgs) (s : State) : Host.Outcome State Fault Refusal :=
  .next (s.takeRequest l (ownSetClass a))

/-! ## Recovery and clearing -/

/-- What the three recovery requests check first: the mode, then the roster. -/
def State.recoverable (s : State) (kind c : Nat) : Except Reply Carrier :=
  if s.mode = .config then .error (refuse kind .badMode [])
  else match s.carrier? c with
    | none => .error (refuse kind .unknownCarrier [])
    | some r => .ok r

/-- The first of some ids that is NONE or not inside the grid (R62 line 3, R70 check 4); both rules name the id that fails
and no order, and the front stands before the rear in the list by the model's choice (log entry 67). -/
def Grid.firstOutside (g : Grid) (ids : List (Option Nat)) : Option (Option Nat) :=
  ids.find? (fun i => match i with
    | some x => !g.inside x
    | none => true)

/-- The supervision timer after a recovery (R70): P less the time since the sighting, but not less than the window. -/
def recoveryTimer (v : ClassVals) (since : Nat) : Nat := max (v.period - since) (v.period * v.window / 100)

/-- The record of a recovered carrier (R70): the sighting's fields, IDLE's timer, and no sighting. -/
def Carrier.recovered (r : Carrier) (g : Sighting) (now : Time) : Carrier :=
  { r with
    front := g.front
    frontRem := g.frontRem
    rear := g.rear
    speed := g.speed
    flags := g.flags
    sighting := none
    lostSince := none
    timer := some (recoveryTimer r.applied (elapsed now g.time)) }

/-- RECOVER_CARRIER (R45, R70); the pending list is re-examined where a segment was freed or a mark removed (log entry
58). -/
def ownRecover (c : Nat) : Owner := fun s =>
  match s.recoverable 0x30 c with
  | .error reply => (s, reply)
  | .ok r =>
    if r.state ≠ .lost then (s, refuse 0x30 .badCarrierState [.byte r.state.code])
    else match r.sighting with
      | none => (s, refuse 0x30 .noSighting [])
      | some g =>
        if g.speed > 0 ∨ g.flags.fault then (s, refuse 0x30 .moving [.half g.speed, .byte g.flags.code])
        else match s.grid.firstOutside [g.front, g.rear] with
          | some i => (s, refuse 0x30 .badSegment [idVal i])
          | none =>
            let ground := groundOf g.front g.rear
            match s.firstHeldAgainst ground (fun d => d.isFree || d.frozenBy (.carrier c)) with
            | some (i, holder) => (s, refuse 0x30 .conflict (.half i :: partyVals holder))
            | none =>
              let freed := (s.frozenBy (.carrier c)).filter (fun i => !(ground.contains i))
              let s1 := s.request (fun w =>
                let w1 := (((w.settleStanding c ground).deleteRoute c).clearMarks (.carrier c)).applyClass c
                let w2 := (w1.changeState c .idle []).onCarrier c (fun r => r.recovered g s.now)
                { w2 with settled := c :: w2.settled })
              (s1, accept 0x30 false (listVals ground.length (ground.map Val.half) ++ [.byte freed.length]))

/-- The meaning of RECOVER_CARRIER. -/
def execRecoverCarrier (l : DLink) (c : Nat) (s : State) : Host.Outcome State Fault Refusal :=
  .next (s.takeRequest l (ownRecover c))

/-- A carrier record returned to the values of a new record, with its early-report count kept (R71, R74). -/
def Carrier.renewed (v : ClassVals) (r : Carrier) : Carrier := { Carrier.fresh v with earlyCount := r.earlyCount }

/-- RELEASE_FROZEN (R45, R71); the pending list is re-examined where a segment was freed or a mark removed (log entry
58). -/
def ownReleaseFrozen (c : Nat) : Owner := fun s =>
  match s.recoverable 0x31 c with
  | .error reply => (s, reply)
  | .ok r =>
    if r.state ≠ .lost then (s, refuse 0x31 .badCarrierState [])
    else
      let frozen := s.frozenBy (.carrier c)
      let v := s.classVals (s.classOf c)
      let s1 := s.request (fun w =>
        (((((w.release frozen).deleteRoute c).clearMarks (.carrier c)).changeState c .offline []).onCarrier c
          (Carrier.renewed v)))
      (s1, accept 0x31 false [.byte frozen.length])

/-- The meaning of RELEASE_FROZEN. -/
def execReleaseFrozen (l : DLink) (c : Nat) (s : State) : Host.Outcome State Fault Refusal :=
  .next (s.takeRequest l (ownReleaseFrozen c))

/-- The carrier's other effects of a successful CLEAR_EMERGENCY (R72): the route record, the intruder marks, the cause
and the new state. -/
def Work.clearTo (w : Work) (c : Nat) (new : CarrierState) : Work :=
  (((w.deleteRoute c).clearMarks (.carrier c)).onCarrier c (fun r => { r with cause := none })).changeState c new []

/-- An id that names a segment outside the grid (R72). -/
def Grid.strays (g : Grid) (i : Option Nat) : Bool :=
  match i with
  | some x => !g.inside x
  | none => false

/-- CLEAR_EMERGENCY (R72); the pending list is re-examined where a segment was freed or a mark removed (log entry 58),
and a front or rear outside the grid refuses it before any segment of another party does (log entry 61). -/
def ownClearEmergency (c : Nat) : Owner := fun s =>
  match s.recoverable 0x32 c with
  | .error reply => (s, reply)
  | .ok r =>
    if r.state ≠ .emergency then (s, refuse 0x32 .badCarrierState [])
    else if r.speed > 0 ∨ r.flags.fault then (s, refuse 0x32 .moving [])
    else if s.grid.strays r.front || s.grid.strays r.rear then (s, refuse 0x32 .badSegment [])
    else
      let ground := groundOf r.front r.rear
      match s.firstHeldAgainst ground (fun d => d.isFree || d.heldBy (.carrier c)) with
      | some (i, holder) => (s, refuse 0x32 .conflict (.half i :: partyVals holder))
      | none =>
        let freed := (s.ownedBy (.carrier c)).filter (fun i => !(ground.contains i))
        let new := if ground.isEmpty then CarrierState.away else CarrierState.idle
        (s.request (fun w => (w.settleStanding c ground).clearTo c new),
          accept 0x32 false (.byte new.code :: listVals ground.length (ground.map Val.half) ++ [.byte freed.length]))

/-- The meaning of CLEAR_EMERGENCY. -/
def execClearEmergency (l : DLink) (c : Nat) (s : State) : Host.Outcome State Fault Refusal :=
  .next (s.takeRequest l (ownClearEmergency c))

/-! ## QUERY_CARRIER (R73) -/

/-- A sighting as values; without one its ids are NONE (R172), and the others keep their places (log entry 65). -/
def sightingVals : Option Sighting → List Val
  | some g => [idVal g.front, .half g.frontRem, idVal g.rear, .half g.speed, .byte g.flags.code, timeVal g.time]
  | none => [idVal none, .absent 2, idVal none, .absent 2, .absent 1, .absent 4]

/-- An entry-block note as values; a note or a segment that is not there is the id NONE (R172), after the place of the
reason (log entry 65). -/
def noteVals : Option EntryNote → List Val
  | some n => [.byte n.reason.code, idVal n.segment]
  | none => [.absent 1, idVal none]

/-- A carrier state that may be absent: 255 stands for NONE (R172). -/
def stateCode? : Option CarrierState → Nat
  | some s => s.code
  | none => 255

/-- The authority fields as values in the order of R78; the last end position takes 4 bytes, absent too (log entry 9). -/
def AuthorityFields.vals (a : AuthorityFields) : List Val :=
  [byteVal? (a.command.map Command.code), idVal a.endSeg, .half a.endOff,
    (match a.endPos with | some p => .word p | none => .absent 4),
    .half a.lastCap, .half a.checkCap, halfVal? (a.pendingCap.map (fun p => p.cap)),
    timeVal? (a.pendingCap.map (fun p => p.effective)), .half a.overspeeds]

/-- A carrier record as values in the order of R73; the number of segments held counts those FROZEN under the carrier
(log entry 43), and the route version, the list length and the position keep their places, absent, where there is no
route record or entry (log entry 65). -/
def State.carrierVals (s : State) (c : Nat) (r : Carrier) : List Val :=
  [.byte (s.classOf c)] ++ r.applied.vals
    ++ [.byte r.state.code, .byte (stateCode? r.prior), byteVal? (r.cause.map EmergencyCause.code)]
    ++ [byteVal? r.lastSeq, timerVal? r.timer, timeVal? r.lastTime]
    ++ [idVal r.front, .half r.frontRem, idVal r.rear, .half r.speed, .byte r.flags.code]
    ++ [timeVal? r.lostSince] ++ sightingVals r.sighting
    ++ [.half r.earlyCount] ++ noteVals r.note
    ++ [.byte (s.ownedBy (.carrier c)).length, byteVal? ((s.route? c).map (fun t => t.version)),
        byteVal? ((s.route? c).map (fun t => t.list.length)),
        byteVal? ((placeOf (s.waiting.map (fun e => e.carrier)) c).map (fun i => i + 1))]
    ++ r.auth.vals

/-- The summary of all carriers (R73): the number registered, the number in each state, the unregistered-report
counter. -/
def State.carrierSummary (s : State) : List Val :=
  [.byte s.carriers.rows.length]
    ++ [CarrierState.offline, .away, .idle, .authorized, .emergency, .missing, .lost].map
      (fun st => .byte (s.carriers.countWhere (fun r => decide (r.state = st))))
    ++ [.half s.unregistered]

/-- QUERY_CARRIER (R73). -/
def ownQueryCarrier (c : Nat) : Owner := fun s =>
  if c = noneId then (s, accept 0x33 false s.carrierSummary)
  else match s.carrier? c with
    | some r => (s, accept 0x33 false (s.carrierVals c r))
    | none => (s, refuse 0x33 .unknownCarrier [])

/-- The meaning of QUERY_CARRIER. -/
def execQueryCarrier (l : DLink) (c : Nat) (s : State) : Host.Outcome State Fault Refusal :=
  .next (s.takeRequest l (ownQueryCarrier c))

/-! ## Timeouts -/

/-- The supervision timer has reached 0 in one of some states. -/
def Carrier.expired (r : Carrier) (states : List CarrierState) : Bool :=
  states.contains r.state && decide (r.timer = some 0)

/-- Entry to MISSING (R66), notified with what R66 names (log entry 41). -/
def Work.goMissing (w : Work) (c : Nat) (r : Carrier) : Work :=
  let w1 := (w.onCarrier c (fun r => { r with
    state := .missing, prior := some r.state, timer := some r.applied.grace })).post .carrierMissing (.carrier c)
      [.byte r.state.code, timeVal? r.lastTime]
  let w2 := w1.concern c
  if r.state = .idle then w2.dropStale c .leftIdle else w2

/-- SUPERVISION_TIMER_EXPIRY (R66): an expiry whose timer has not reached 0 is no event (log entry 3). -/
def State.expireSupervision (s : State) (c : Nat) : State :=
  match s.carrier? c with
  | some r => if r.expired [.idle, .authorized, .emergency] then s.request (fun w => w.goMissing c r) else s
  | none => s

/-- The meaning of SUPERVISION_TIMER_EXPIRY. -/
def execSupervisionTimerExpiry (c : Nat) (s : State) : Host.Outcome State Fault Refusal :=
  .next (s.expireSupervision c).pump

/-- Entry to LOST (R44, R68), notified with what R68 names (log entry 41). -/
def Work.goLost (w : Work) (c : Nat) (r : Carrier) : Work :=
  let held := w.s.heldBy (.carrier c)
  let now := w.s.now
  let w1 := (w.onCarrier c (fun r => { r with
    state := .lost, prior := none, cause := none, timer := none, lostSince := some now, sighting := none })).onSegs held
      SegDyn.freeze
  let w2 := w1.dropStale c .leftIdle
  (w2.post .carrierLost (.carrier c) [.byte held.length, timeVal? r.lastTime]).concern c

/-- GRACE_EXPIRY (R68): an expiry whose timer has not reached 0 is no event (log entry 3). -/
def State.expireGrace (s : State) (c : Nat) : State :=
  match s.carrier? c with
  | some r => if r.expired [.missing] then s.request (fun w => w.goLost c r) else s
  | none => s

/-- The meaning of GRACE_EXPIRY. -/
def execGraceExpiry (c : Nat) (s : State) : Host.Outcome State Fault Refusal := .next (s.expireGrace c).pump

end Sys2Proof.Machine
end

