-- ==== Sys2Proof/Machine/ModeCmds.lean ====
section
/-! DEFINITION. The Mode Controller and the Settings Store: ACTIVATE, ENTER_CONFIG, SAVE_SETTINGS, the end of a write, and
RESET (R164 to R169). -/

namespace Sys2Proof.Machine

/-! ## ACTIVATE (R165, R166) -/

/-- Notify a change of part mode with the request that caused it (R164). -/
def State.postMode (s : State) (old new : PartMode) (request : Nat) : State :=
  s.post .mode .nothing [.byte old.code, .byte new.code, .byte request]

/-- The part enters RECOVERY (R165). -/
def State.enterRecovery (s : State) (time : Nat) : State :=
  State.postMode { s with
    cfg := { s.cfg with recoveryTime := time }
    mode := .recovery
    recoveryStart := some s.now } .config .recovery 0x3D

/-- The part enters ACTIVE (R166). -/
def State.enterActive (s : State) : State :=
  (State.postMode { s with mode := .active, recoveryStart := none } .recovery .active 0x3D).followMode .off

/-- The number of carriers in OFFLINE. -/
def State.carriersOffline (s : State) : Nat := s.carriers.countWhere (fun r => decide (r.state = .offline))

/-- The number of present cranes in OFFLINE. -/
def State.cranesOffline (s : State) : Nat :=
  (s.cfg.presentCranes.filter (fun k => decide ((s.crane k).state = .offline))).length

/-- ACTIVATE (R165, R166). -/
def ownActivate (time : Nat) : Owner := fun s =>
  match s.mode with
  | .config => match s.cfg.validate with
    | some f => (s, refuse 0x3D .invalid (resultVals (some f)))
    | none =>
      let t := clampTo 1 30 time
      (s.enterRecovery t, accept 0x3D (decide (t ≠ time)) [.byte t, timeVal (later s.now (1000 * t))])
  | .recovery =>
    let spent := elapsed s.now (s.recoveryStart.getD s.now)
    if spent < 1000 * s.cfg.recoveryTime then
      (s, refuse 0x3D .tooEarly [.word (1000 * s.cfg.recoveryTime - spent)])
    else (s.enterActive, accept 0x3D false [.byte s.carriersOffline, .byte s.cranesOffline])
  | .active => (s, refuse 0x3D .badMode [])

/-- The meaning of ACTIVATE. -/
def execActivate (l : DLink) (time : Nat) (s : State) : Host.Outcome State Fault Refusal :=
  .next (s.takeRequest l (ownActivate time))

/-! ## ENTER_CONFIG (R74, R117, R167) -/

/-- A carrier state that keeps the apron from being quiet (R167 test 1). -/
def CarrierState.busy : CarrierState → Bool
  | .authorized => true
  | .emergency => true
  | .missing => true
  | .lost => true
  | .offline => false
  | .away => false
  | .idle => false

/-- A segment is FROZEN. -/
def SegDyn.isFrozen (r : SegDyn) : Bool :=
  match r.hold with
  | .frozen _ _ => true
  | _ => false

/-- The first subject that keeps the apron from being quiet, as the detail of the refusal (R167). -/
def State.busySubject (s : State) : Option (List Val) :=
  match s.carriers.keysWhere (fun r => r.state.busy) with
  | c :: _ => some [.half c, byteVal? ((s.carrier? c).map (fun r => r.state.code))]
  | [] => match s.segs.keysWhere SegDyn.isFrozen with
    | i :: _ => some (.half i :: partyVals (s.seg i).holder)
    | [] => match firstWhere (fun k => (s.crane k).claim.isSome) (List.range 8) 0 with
      | some (_, k) => some (.half k :: (match (s.crane k).claim with
        | some claim => [.byte claim.slot, .byte claim.phase.code]
        | none => []))
      | none => match firstWhere (fun k => decide ((s.crane k).state = .travelling)) (List.range 8) 0 with
        | some (_, k) => some [.half k, byteVal? (s.crane k).target]
        | none => none

/-- A carrier record returns to the values of a new record; a change of state is notified and answered (R74, R167). -/
def Work.renewCarrier (w : Work) (c : Nat) : Work :=
  match w.s.carrier? c with
  | none => w
  | some r =>
    let v := w.s.classVals (w.s.classOf c)
    let w1 := if r.state = .offline then w else w.changeState c .offline []
    w1.onCarrier c (Carrier.renewed v)

/-- Every carrier record renewed, in ascending id (R74, R167, log entry 7). -/
def Work.renewCarriers (w : Work) : Work := w.s.carriers.keys.foldl Work.renewCarrier w

/-- Every crane record returns to its reset values, keeping its counters (R117). -/
def State.renewCranes (s : State) : State :=
  { s with cranes := s.cranes.mapVals (fun c => Crane.fresh c.frames c.repeats c.implausible) }

/-- The part enters CONFIG (R167 steps 1 to 6). -/
def State.becomeConfig (s : State) : State :=
  let s1 : State := State.followMode { s with mode := .config, recoveryStart := none } s.effectiveMode
  let s2 := (s1.dropWaiting 0).resetSegs
  (s2.request Work.renewCarriers).renewCranes.postMode s.mode .config 0x3E

/-- ENTER_CONFIG (R167). -/
def ownEnterConfig : Owner := fun s =>
  if s.mode = .config then (s, refuse 0x3E .badMode [])
  else match s.busySubject with
    | some detail => (s, refuse 0x3E .busyApron detail)
    | none =>
      (s.becomeConfig, accept 0x3E false
        [.byte (s.carriers.countWhere (fun r => decide (r.state ≠ .offline))),
          .byte ((List.range 8).filter (fun k => decide ((s.crane k).state ≠ .offline))).length])

/-- The meaning of ENTER_CONFIG. -/
def execEnterConfig (l : DLink) (s : State) : Host.Outcome State Fault Refusal :=
  .next (s.takeRequest l ownEnterConfig)

/-! ## SAVE_SETTINGS (R169) -/

/-- SAVE_SETTINGS (R169): the snapshot, the checksum made invalid, WRITING. -/
def ownSaveSettings : Owner := fun s =>
  match s.save with
  | some v => (s, busyReply 0x3F .save [timeVal v.accepted])
  | none =>
    ({ s with save := some ⟨s.now, s.cfg⟩, image := { s.image with valid := false } },
      accept 0x3F false [timeVal s.now])

/-- The meaning of SAVE_SETTINGS. -/
def execSaveSettings (l : DLink) (s : State) : Host.Outcome State Fault Refusal :=
  .next (s.takeRequest l ownSaveSettings)

/-- The write of a save has ended (R169). -/
def Save.due (now : Time) (v : Save) : Bool := decide (elapsed now v.accepted ≥ Config.saveTime)

/-- SAVE_WRITE_COMPLETION (R169): a completion before the write has taken 1500 ms is no event (log entry 3); what the
content of an image that is not valid holds is log entry 54. -/
def State.endSave (s : State) (differs : Option (Fin 8)) : State :=
  match s.save with
  | none => s
  | some v =>
    if v.due s.now then
      match differs with
      | none => State.post { s with save := none, image := ⟨true, v.snapshot⟩ } .saveDone .nothing [timeVal v.accepted]
      | some item => State.post { s with save := none } .saveFailed .nothing [timeVal v.accepted, .byte item.val]
    else s

/-- The meaning of SAVE_WRITE_COMPLETION. -/
def execSaveWriteCompletion (differs : Option (Fin 8)) (s : State) : Host.Outcome State Fault Refusal :=
  .next (s.endSave differs).pump

/-! ## RESET (R168) -/

/-- The configuration a part starts with (R168). -/
def Image.loaded (i : Image) : Settings := if i.valid then i.content else Settings.default

/-- The mode a part starts in (R168). -/
def Image.startMode (i : Image) : PartMode :=
  if i.valid && i.content.validate.isNone then .recovery else .config

/-- A radio link right after reset (R132). -/
def RadioLink.atReset (c : RadioConfig) : RadioLink := RadioLink.fresh (if c.configured then .down else .unconfigured)

/-- The part right after reset with an image (R168): every block at its reset values, and the closures of the first link
reports in force on the fresh segment records (R120, R155). The queue of waiting commands is kept (log entry 37). -/
def State.boot (i : Image) (pending : List Instr) : State :=
  let cfg := i.loaded
  let base : State := { State.reset with
    pending := pending
    mode := i.startMode
    recoveryStart := if i.startMode = .recovery then some 0 else none
    cfg := cfg
    image := i
    rlcClosed := (List.range 4).any (fun r => (cfg.radios.get r RadioConfig.default).configured)
    carriers := cfg.roster.mapVals (fun k => Carrier.fresh (cfg.classes.get k ClassVals.default))
    radios := ⟨(List.range 4).map (fun r => (r, RadioLink.atReset (cfg.radios.get r RadioConfig.default)))⟩ }
  { base with segs := base.freshSegs }

/-- The meaning of RESET. -/
def execReset (s : State) : Host.Outcome State Fault Refusal := .next (State.boot s.image s.pending)

end Sys2Proof.Machine
end

