-- ==== Sys2Proof/Machine/RadioCmds.lean ====
section
/-! DEFINITION. The inbound side of the Radio Router and its own events: link supervision, sorting, link loss, SET_RADIO,
events, completions, aging and the flush sweep (R118 to R131). -/

namespace Sys2Proof.Machine

/-! ## Arrival (R119, R120, R122) -/

/-- Count a valid frame on a radio link; its receiver is then in HUNT (R131, R171). -/
def RadioLink.countGood (l : RadioLink) : RadioLink := { l with good := bump16 l.good, rx := Receiver.hunting }

/-- Count an unusable frame on a radio link (R131). -/
def RadioLink.countUnusable (l : RadioLink) : RadioLink := { l with unusable := bump16 l.unusable }

/-- Count a duplicate on a radio link (R131). -/
def RadioLink.countDuplicate (l : RadioLink) : RadioLink := { l with duplicates := bump16 l.duplicates }

/-- Start the link timer of a link that is UP (R119). -/
def RadioLink.comeUp (timeout : Nat) (l : RadioLink) : RadioLink := { l with state := .up, timer := some timeout }

/-- A valid frame arrives on a radio link (R119): counted and discarded on an UNCONFIGURED link; a DOWN link comes UP
with RADIO_UP and a link state report, and the timer of an UP link is restarted. -/
def State.radioArrival (s : State) (r : Nat) : State :=
  match (s.radio r).state with
  | .unconfigured => s.onRadio r (fun l => l.countGood.countUnusable)
  | .down =>
    ((s.onRadio r (fun l => l.countGood.comeUp (s.radioCfg r).timeout)).post .radioUp (.link (radioSelector r))
      []).linkReport
  | .up => s.onRadio r (fun l => l.countGood.comeUp (s.radioCfg r).timeout)

/-- A valid frame on a radio link, with what its sorting does on a configured link (R119, R122). -/
def State.sortRadio (s : State) (r : Nat) (sorted : State → State) : State :=
  if (s.radio r).state = .unconfigured then s.radioArrival r else sorted (s.radioArrival r)

/-- The meaning of MODEM_HEARTBEAT (R122): consumed by link supervision. -/
def execModemHeartbeat (r : Fin 4) (s : State) : Host.Outcome State Fault Refusal :=
  .next (s.sortRadio r id).pump

/-! ## Events (R124) -/

/-- A CARRIER_EVENT on a configured link (R124): discarded as unusable for an id not in the roster and for more than
32 detail bytes, discarded as a duplicate, or offered to the copy rules. -/
def State.takeEvent (s : State) (r : Nat) (a : EventArgs) : State :=
  if !s.registered a.carrier || decide (a.bytes.length > 32) then s.onRadio r RadioLink.countUnusable
  else if s.eventSeqs.get? a.carrier = some a.seq then s.onRadio r RadioLink.countDuplicate
  else
    State.copyFrame { s with eventSeqs := s.eventSeqs.put a.carrier a.seq } r
      ⟨a.carrier, none, .event, 2 :: a.payload⟩

/-- The meaning of CARRIER_EVENT. -/
def execCarrierEvent (r : Fin 4) (a : EventArgs) (s : State) : Host.Outcome State Fault Refusal :=
  .next (s.sortRadio r (fun s => s.takeEvent r a)).pump

/-! ## Link loss (R121) -/

/-- The authority of a radio frame, if it is one. -/
def RadioFrame.authority? : RadioFrame → Option Authority
  | .authority a => some a
  | .row _ => none

/-- The row of a radio frame, if it is one. -/
def RadioFrame.row? : RadioFrame → Option PictureRow
  | .authority _ => none
  | .row r => some r

/-- The frames a lost link empties, the urgent queue's first; an abandoned frame stands first in the queue it was taken
from, and an abandoned authority that the queues hold a later one for is left out (R121 steps 2 and 4). -/
def RadioLink.emptied (l : RadioLink) : List RadioFrame :=
  let urgent := l.urgent.map RadioFrame.authority
  match l.sending with
  | none => urgent ++ l.normal
  | some (.row r) => urgent ++ .row r :: l.normal
  | some (.authority a) =>
    if (urgent ++ l.normal).any (RadioFrame.isFor a.carrier) then urgent ++ l.normal
    else if a.command.urgent then .authority a :: urgent ++ l.normal
    else urgent ++ .authority a :: l.normal

/-- Requeue one authority of a lost link (R121 step 4), counting those requeued. -/
def requeue (acc : State × Nat) (a : Authority) : State × Nat :=
  let links := acc.1.upLinks
  if acc.1.learning.has a.carrier || links.isEmpty then acc
  else (links.foldl (fun s r => s.offerAuthority r a) acc.1, acc.2 + 1)

/-- A configured link goes DOWN (R121). -/
def State.radioLinkDown (s : State) (r : Nat) : State :=
  let frames := (s.radio r).emptied
  let removed := s.learning.countWhere (fun e => decide (e.link = r))
  let s1 : State := { s with learning := s.learning.filter (fun _ e => decide (e.link ≠ r)) }
  let s2 := s1.onRadio r (fun l => { l with
    state := .down, timer := none, rx := Receiver.hunting, urgent := [], normal := [], sending := none })
  let s3 := (frames.filterMap RadioFrame.row?).foldl (fun s row => s.rowFate row false) s2
  let out := (frames.filterMap RadioFrame.authority?).foldl requeue (s3, 0)
  (out.1.post .radioDown (.link (radioSelector r)) [.byte removed, .byte out.2]).linkReport

/-- RADIO_LINK_TIMEOUT (R119, R121): an expiry whose timer has not reached 0 is no event (log entry 3). -/
def State.expireRadio (s : State) (r : Nat) : State :=
  if decide ((s.radio r).state = .up) && decide ((s.radio r).timer = some 0) then s.radioLinkDown r else s

/-- The meaning of RADIO_LINK_TIMEOUT. -/
def execRadioLinkTimeout (r : Fin 4) (s : State) : Host.Outcome State Fault Refusal := .next (s.expireRadio r).pump

/-! ## SET_RADIO (R118) -/

/-- The four link settings of SET_RADIO in order. -/
def radioSettings (a : RadioArgs) : List RadioSetting := [a.link0, a.link1, a.link2, a.link3]

/-- The effective record of one link (R118); none when its configured value is neither yes nor no. -/
def readRadio (a : RadioSetting) : Option RadioConfig :=
  (readYesNo a.configured).map (fun yes => ⟨yes, clampTo 100 2000 a.timeout⟩)

/-- A link follows a change of its configured value (R118); the receiver of one taken out returns to HUNT (R171). -/
def State.followRadio (s : State) (r : Nat) (old new : RadioConfig) : State :=
  if old.configured = new.configured then s
  else if new.configured then s.onRadio r (fun l => { l with state := .down, timer := none })
  else
    let s1 := if (s.radio r).state = .up then s.radioLinkDown r else s
    s1.onRadio r (fun l => { l with state := .unconfigured, timer := none, rx := Receiver.hunting })

/-- SET_RADIO (R118); the aging period and the timeouts in the reply are as wide as in the request (log entry 9). -/
def ownSetRadio (a : RadioArgs) : Owner := fun s =>
  match firstWhere (fun x => (readRadio x).isNone) (radioSettings a) 0 with
  | some (k, _) => (s, refuseField 0x37 (1 + 2 * k))
  | none =>
    let new := (radioSettings a).filterMap readRadio
    let old := (List.range 4).map s.radioCfg
    let differs := decide (new.map RadioConfig.configured ≠ old.map RadioConfig.configured)
    if differs && decide (s.mode ≠ .config) then (s, refuse 0x37 .badMode [])
    else
      let aging := clampTo 1 120 a.aging
      let s1 : State := { s with cfg := { s.cfg with
        aging := aging, radios := ⟨(List.range 4).zip new⟩ } }
      let s2 := (List.range 4).foldl (fun s r =>
        s.followRadio r (nth old r RadioConfig.default) (nth new r RadioConfig.default)) s1
      let s3 := if differs then s2.linkReport else s2
      (s3, accept 0x37
        (decide (aging ≠ a.aging ∨ new.map RadioConfig.timeout ≠ (radioSettings a).map RadioSetting.timeout))
        (.byte aging :: new.flatMap (fun c => [boolVal c.configured, .half c.timeout])))

/-- The meaning of SET_RADIO. -/
def execSetRadio (l : DLink) (a : RadioArgs) (s : State) : Host.Outcome State Fault Refusal :=
  .next (s.takeRequest l (ownSetRadio a))

/-! ## The transmitters (R129) -/

/-- RADIO_TRANSMIT_COMPLETE (R129): a row is reported as sent, and the transmitter takes its next frame. -/
def State.completeRadio (s : State) (r : Nat) : State :=
  match (s.radio r).sending with
  | none => s
  | some f =>
    let s1 := match f with
      | .row row => s.rowFate row true
      | .authority _ => s
    s1.onRadio r (fun l => RadioLink.transmit { l with sending := none })

/-- The meaning of RADIO_TRANSMIT_COMPLETE. -/
def execRadioTransmitComplete (r : Fin 4) (s : State) : Host.Outcome State Fault Refusal :=
  .next (s.completeRadio r).pump

/-! ## Aging and the flush sweep (R126, R130) -/

/-- A learning entry has reached its expiry time (R126). -/
def LearnEntry.due (now : Time) (e : LearnEntry) : Bool := reached now e.set e.expiry

/-- LEARNING_ENTRY_EXPIRY (R126): an entry that is not due stays (log entry 3). -/
def State.ageEntry (s : State) (c : Nat) : State :=
  match s.learning.get? c with
  | some e => if e.due s.now then { s with learning := s.learning.del c } else s
  | none => s

/-- The meaning of LEARNING_ENTRY_EXPIRY. -/
def execLearningEntryExpiry (c : Nat) (s : State) : Host.Outcome State Fault Refusal := .next (s.ageEntry c).pump

/-- FLUSH_ROUTING (R130). -/
def ownFlushRouting : Owner := fun s =>
  match s.flush with
  | some f => (s, busyReply 0x38 .sweep [.half f.next])
  | none => ({ s with flush := some ⟨s.now, 0, 0⟩ }, accept 0x38 false [])

/-- The meaning of FLUSH_ROUTING. -/
def execFlushRouting (l : DLink) (s : State) : Host.Outcome State Fault Refusal :=
  .next (s.takeRequest l ownFlushRouting)

/-- The visit of the next id is due: id k is visited k + 1 ms after the acceptance (R130). -/
def Flush.due (now : Time) (f : Flush) : Bool := decide (elapsed now f.start ≥ f.next + 1)

/-- FLUSH_VISIT (R130): the entry of the next id is removed and counted, and the visit of id 95 ends the sweep with
FLUSH_DONE; a visit that is not due is no event (log entry 3). -/
def State.visitFlush (s : State) : State :=
  match s.flush with
  | none => s
  | some f =>
    if f.due s.now then
      let removed := f.removed + (if s.learning.has f.next then 1 else 0)
      let s1 : State := { s with learning := s.learning.del f.next }
      if f.next + 1 ≥ Config.carrierCount then
        State.post { s1 with flush := none } .flushDone .nothing [.byte removed]
      else { s1 with flush := some { f with next := f.next + 1, removed := removed } }
    else s

/-- The meaning of FLUSH_VISIT. -/
def execFlushVisit (s : State) : Host.Outcome State Fault Refusal := .next s.visitFlush.pump

end Sys2Proof.Machine
end

