-- ==== Sys2Proof/Machine/ReportCmds.lean ====
section
/-! DEFINITION. POSITION_REPORT: the duplicate test, the window, entry, accepted reports by state, deviation, movement
under load, release behind, completion and gate exit, sightings and addressing reports (R30 to R32, R54 to R68, R123). -/

namespace Sys2Proof.Machine

/-! ## Preparation (R54) -/

/-- A report as the Carrier Supervisor prepares it (R54). -/
structure Report where
  seq : Nat
  front : Option Nat
  frontRem : Nat
  rear : Option Nat
  speed : Nat
  flags : CarrierFlags
  deriving DecidableEq, Repr

/-- Prepare a report (R54): the speed saturates at 1000, a rear of NONE is the front, PARKED with a speed above 0 is a
FAULT, and a front remaining of 65535 is stored as 65534 (R172). -/
def prepare (a : ReportArgs) : Report :=
  let flags := readCarrierFlags a.flags
  { seq := a.seq
    front := idOf a.front
    frontRem := min a.frontRem 65534
    rear := if idOf a.rear = none then idOf a.front else idOf a.rear
    speed := min a.speed 1000
    flags := { flags with fault := flags.fault || (flags.parked && decide (a.speed > 0)) } }

/-- The reported segments, front first (R62, R64). -/
def Report.ground (p : Report) : List Nat := groundOf p.front p.rear

/-! ## An id that is not in the roster (R54) -/

/-- The key of a notification time: the id, or 96 for the time that all higher ids share (R54). -/
def unknownKey (c : Nat) : Nat := min c Config.carrierCount

/-- UNKNOWN_CARRIER may be posted again for an id (R54). -/
def State.unknownDue (s : State) (c : Nat) : Bool :=
  match s.unknownTimes.get? (unknownKey c) with
  | some t => decide (elapsed s.now t ≥ Config.unknownInterval)
  | none => true

/-- A report of an id that is not in the roster (R54). -/
def State.unknownReport (s : State) (radio c : Nat) : State :=
  let s1 : State := { s with unregistered := bump16 s.unregistered }
  if s.unknownDue c then
    State.post { s1 with unknownTimes := s1.unknownTimes.put (unknownKey c) s.now } .unknownCarrier (.carrier c)
      [.byte (radioSelector radio)]
  else s1

/-! ## Acceptance (R58) -/

/-- Steps 2 to 5 of an accepted report (R58), the learning entry (R125), and the run that ends the request; the timer
of an entry report stays stopped (R62). -/
def Work.acceptReport (w : Work) (c radio : Nat) (p : Report) (timerRuns : Bool) : Work :=
  let now := w.s.now
  let w1 := (w.applyClass c).onCarrier c (fun r => { r with
    timer := if timerRuns then some r.applied.period else none
    lastSeq := some p.seq
    front := p.front
    frontRem := p.frontRem
    rear := p.rear
    speed := p.speed
    flags := p.flags
    lastTime := some now
    earlyRun := false })
  (w1.on (fun s => s.learn c radio)).concern c

/-! ## Deviation and intrusion (R64) -/

/-- The party other than the carrier that a segment belongs to: its holder, or failing that its intruder (R64). -/
def SegDyn.otherParty (r : SegDyn) (c : Nat) : Option Party :=
  match r.holder with
  | some p => if p = .carrier c then none else some p
  | none => match r.intruder with
    | some p => if p = .carrier c then none else some p
    | none => none

/-- Mark one reported segment and notify an intrusion (R64). -/
def Work.intrude (w : Work) (c i : Nat) : Work :=
  let other := (w.s.seg i).otherParty c
  let w1 := w.mark (.carrier c) i
  if other.isSome then w1.post .intrusion (.segment i) (partyVals (some (.carrier c)) ++ partyVals other) else w1

/-- The intruder marks of a deviation: every reported segment inside the grid that the carrier does not hold (R64). -/
def Work.markDeviation (w : Work) (c : Nat) (p : Report) : Work :=
  (p.ground.filter (fun i => w.s.grid.inside i && !(w.s.seg i).heldBy (.carrier c))).foldl
    (fun w i => w.intrude c i) w

/-- The report of an IDLE carrier is a deviation (R64). -/
def State.idleDeviates (s : State) (c : Nat) (p : Report) : Bool :=
  p.front.isNone || !(p.ground.all (fun i => (s.seg i).standingOf c))

/-- The report of a carrier in EMERGENCY is a deviation (R64). -/
def State.emergencyDeviates (s : State) (c : Nat) (p : Report) : Bool :=
  p.front.isNone || !(p.ground.all (fun i => (s.seg i).heldBy (.carrier c)))

/-- The list indices of the front and rear of a report on a route, where both segments are held by the carrier, the
front is not behind the route's front index and the rear is not ahead of the front (R64). A segment that the carrier
holds and that stands in no place of the list has no index (log entry 48). -/
def State.routePlace (s : State) (c : Nat) (route : Route) (p : Report) : Option (Nat × Nat) :=
  match p.front, p.rear with
  | some f, some b =>
    match placeOf route.list f, placeOf route.list b with
    | some i, some j =>
      if (s.seg f).heldBy (.carrier c) && (s.seg b).heldBy (.carrier c) && decide (route.front ≤ i ∧ j ≤ i) then
        some (i, j)
      else none
    | _, _ => none
  | _, _ => none

/-! ## IDLE (R59, R65) -/

/-- The cranes of the hoist locks on a carrier's STANDING segments (R65). -/
def State.cranesOver (s : State) (c : Nat) : List Nat :=
  ((s.standing c).flatMap (fun i => (s.seg i).lock.keys)).eraseDups

/-- Movement under load (R65). -/
def State.underLoad (s : State) (c : Nat) (p : Report) : Bool :=
  (s.lockedStanding c).isSome && decide (p.speed > 0)

/-- The cause that an accepted report of an IDLE carrier gives (R59). -/
def State.idleCause (s : State) (c : Nat) (p : Report) : Option EmergencyCause :=
  if p.flags.fault then some .carrierFault
  else if s.idleDeviates c p then some .deviation
  else if s.underLoad c p then some .movedUnderLoad
  else none

/-- Remove the pending entry whose list does not begin with the reported front (R36, R59). -/
def Work.checkFront (w : Work) (c : Nat) (p : Report) : Work :=
  match w.s.entry? c with
  | some e => if e.list.head? = p.front then w else w.dropStale c .frontMoved
  | none => w

/-- An accepted report of an IDLE carrier (R59). -/
def Work.idleReport (w : Work) (c : Nat) (p : Report) : Work :=
  let cranes := if w.s.underLoad c p then w.s.cranesOver c else []
  let deviates := w.s.idleDeviates c p
  let w1 := match w.s.idleCause c p with
    | some cause => w.enterEmergency c cause none
    | none => w.checkFront c p
  let w2 := if deviates then w1.markDeviation c p else w1
  cranes.foldl (fun w k => w.on (fun s => s.hoistStop k)) w2

/-! ## AUTHORIZED (R30 to R32, R60) -/

/-- The report is a gate exit (R32, R60). -/
def State.exitsGate (s : State) (route : Route) (previous : Option Nat) (p : Report) : Bool :=
  match p.front, route.list.getLast? with
  | none, some last => decide (previous = some last) && s.grid.isGate last
  | _, _ => false

/-- A gate exit (R32). -/
def Work.gateExit (w : Work) (c : Nat) : Work :=
  ((w.release (w.s.ownedBy (.carrier c))).deleteRoute c).changeState c .away []

/-- The report completes the route (R31). -/
def State.completes (s : State) (c : Nat) (route : Route) (p : Report) : Bool :=
  match s.carrier? c with
  | some r => decide (route.front + 1 = route.list.length)
      && decide (frontPos s.grid route p.frontRem + r.applied.stopTol ≥ stopPos s.grid route)
      && decide (p.speed = 0)
  | none => false

/-- The indices of a route move, and the entries behind the new rear are released (R30). -/
def Work.releaseBehind (w : Work) (c : Nat) (route : Route) (i j : Nat) : Work :=
  let w1 := w.on (fun s => { s with routes := s.routes.put c { route with front := i, rear := j } })
  w1.release ((route.list.take j).filter (fun x => (w1.s.seg x).heldBy (.carrier c)))

/-- A report that moves along its route (R30, R31). -/
def Work.advance (w : Work) (c : Nat) (route : Route) (i j : Nat) (p : Report) : Work :=
  let w1 := w.releaseBehind c route i j
  if w1.s.completes c { route with front := i, rear := j } p then
    ((w1.settleStanding c p.ground).deleteRoute c).changeState c .idle []
  else w1

/-- An accepted report of an AUTHORIZED carrier (R60). A report with FAULT that meets the conditions of a gate exit is no
deviation and marks nothing (log entry 23). -/
def Work.authorizedReport (w : Work) (c : Nat) (previous : Option Nat) (p : Report) : Work :=
  match w.s.route? c with
  | none => w
  | some route =>
    let exits := w.s.exitsGate route previous p
    let place := w.s.routePlace c route p
    if p.flags.fault then
      let w1 := w.enterEmergency c .carrierFault none
      if place.isNone && !exits then w1.markDeviation c p else w1
    else if exits then w.gateExit c
    else match place with
      | none => (w.enterEmergency c .deviation none).markDeviation c p
      | some (i, j) => w.advance c route i j p

/-! ## EMERGENCY and the dispatch by state (R58, R61) -/

/-- An accepted report of a carrier in EMERGENCY (R61): a FAULT flag or a deviation is no new request for entry (log
entry 42). -/
def Work.emergencyReport (w : Work) (c : Nat) (p : Report) : Work :=
  if w.s.emergencyDeviates c p then w.markDeviation c p else w

/-- An accepted report handled by the carrier's state (R58). -/
def Work.handleReport (w : Work) (c : Nat) (previous : Option Nat) (p : Report) : Work :=
  match w.s.carrier? c with
  | none => w
  | some r => match r.state with
    | .idle => w.idleReport c p
    | .authorized => w.authorizedReport c previous p
    | .emergency => w.emergencyReport c p
    | .offline | .away | .missing | .lost => w

/-! ## The early report (R56, R57) -/

/-- The threshold of the acceptance window in ms (R56). -/
def ClassVals.threshold (v : ClassVals) : Nat := v.period * v.window / 100

/-- The report passes the window test (R56). -/
def Carrier.inWindow (r : Carrier) : Bool :=
  match r.timer with
  | some t => decide (t ≤ r.applied.threshold)
  | none => true

/-- An early report (R57). -/
def State.earlyReport (s : State) (c : Nat) (r : Carrier) (p : Report) : State :=
  let s1 := s.onCarrier c (fun r => { r with earlyCount := bump16 r.earlyCount })
  if r.state ≠ .emergency ∧ r.applied.early = .fault then
    s1.request (fun w => w.enterEmergency c .earlyReport none)
  else if r.earlyRun then s1
  else (s1.onCarrier c (fun r => { r with earlyRun := true })).post .earlyReport (.carrier c)
    [.byte p.seq, timerVal? r.timer]

/-! ## Entry (R62, R63) -/

/-- A blocked entry: its reason, the segment as it stands on the line, and the holder of that segment. -/
structure EntryBlock where
  reason : EntryReason
  segment : Option Nat
  holder : Option Party
  deriving DecidableEq, Repr

/-- Lines 2 to 7 of R62: the block of an entry, none when the entry is made. -/
def State.entryBlock (s : State) (c : Nat) (state : CarrierState) (p : Report) : Option EntryBlock :=
  if p.flags.fault then some ⟨.carrierFault, none, none⟩
  else match s.grid.firstOutside [p.front, p.rear] with
  | some i => some ⟨.badSegment, some (i.getD noneId), none⟩
  | none =>
    if state = .away && !(s.grid.isGate (p.front.getD noneId)) then some ⟨.notGate, p.front, none⟩
    else if p.speed > 0 then some ⟨.moving, none, none⟩
    else match s.firstHeldAgainst p.ground (fun d => d.isFree || d.ownedBy (.carrier c)) with
      | some (i, holder) => some ⟨.conflict, some i, holder⟩
      | none => none

/-- A blocked entry is notified when its reason or segment differs from the note, which takes them (R63). -/
def Work.blockEntry (w : Work) (c : Nat) (b : EntryBlock) : Work :=
  let note : EntryNote := ⟨b.reason, b.segment⟩
  if (w.s.carrier? c).bind (fun r => r.note) = some note then w
  else
    (w.onCarrier c (fun r => { r with note := some note })).post .entryBlocked (.carrier c)
      (.byte b.reason.code :: ((b.segment.map Val.half).toList ++ (if b.holder.isSome then partyVals b.holder else [])))

/-- The entry is made (R62). -/
def Work.makeEntry (w : Work) (c : Nat) (p : Report) : Work :=
  let w1 := (((w.placeStanding c p.ground).changeState c .idle []).applyClass c).onCarrier c (fun r => { r with
    timer := some r.applied.period, note := none })
  { w1 with settled := c :: w1.settled }

/-- The outcome of an entry report, after its acceptance (R62). -/
def Work.entryReport (w : Work) (c : Nat) (state : CarrierState) (p : Report) : Work :=
  if p.front.isNone && p.rear.isNone then
    if state = .offline then w.changeState c .away [] else w
  else match w.s.entryBlock c state p with
    | some b => w.blockEntry c b
    | none => w.makeEntry c p

/-! ## The return from MISSING (R67) -/

/-- The carrier holds a segment that carries a hoist lock. -/
def State.holdsLocked (s : State) (c : Nat) : Bool := (s.heldBy (.carrier c)).any (fun i => (s.seg i).isLocked)

/-- The state and cause that a report in MISSING restores (R67). -/
def State.restored (s : State) (c : Nat) (r : Carrier) : CarrierState × Option EmergencyCause :=
  match r.prior with
  | some .authorized => if s.holdsLocked c then (.emergency, some .hoistViolation) else (.authorized, none)
  | some .emergency => (.emergency, r.cause)
  | _ => (.idle, none)

/-- The prior state is restored, cleared and notified (R67). -/
def Work.restore (w : Work) (c : Nat) (r : Carrier) : Work :=
  let back := w.s.restored c r
  (w.onCarrier c (fun r => { r with state := back.1, prior := none, cause := back.2 })).notifyState c
    CarrierState.missing.code back.1.code (match back.2 with
      | some cause => causeVals cause none
      | none => [])

/-! ## Taking a report (R55) -/

/-- Take a request that a report of a carrier starts (R76). -/
def State.reportRequest (s : State) (c : Nat) (body : Work → Work) : State := (body (Work.start s (some c))).finish

/-- An addressing report in CONFIG (R55). -/
def Work.addressing (w : Work) (c radio : Nat) (p : Report) : Work :=
  let now := w.s.now
  ((w.onCarrier c (fun r => { r with lastSeq := some p.seq, lastTime := some now })).on (fun s =>
    s.learn c radio)).concern c

/-- A sighting of a LOST carrier (R68). -/
def Work.sight (w : Work) (c radio : Nat) (p : Report) : Work :=
  let now := w.s.now
  ((w.onCarrier c (fun r => { r with
    lastSeq := some p.seq
    sighting := some ⟨p.front, p.frontRem, p.rear, p.speed, p.flags, now⟩ })).on (fun s => s.learn c radio)).concern c

/-- A report of a registered carrier that is not a duplicate, taken by the mode and the carrier's state (R55), with its
disposition. -/
def State.judgeReport (s : State) (c radio : Nat) (r : Carrier) (p : Report) : State × Disposition :=
  if s.mode = .config then (s.reportRequest c (fun w => w.addressing c radio p), .addressing)
  else match r.state with
  | .offline | .away =>
    (s.reportRequest c (fun w => (w.acceptReport c radio p false).entryReport c r.state p), .entry)
  | .lost => (s.reportRequest c (fun w => w.sight c radio p), .sighting)
  | .missing =>
    (s.reportRequest c (fun w => ((w.acceptReport c radio p true).restore c r).handleReport c r.front p), .accepted)
  | .idle | .authorized | .emergency =>
    if r.inWindow then
      (s.reportRequest c (fun w => (w.acceptReport c radio p true).handleReport c r.front p), .accepted)
    else (s.earlyReport c r p, .early)

/-- A POSITION_REPORT on a configured link (R54, R122, R123): dropped for an id not in the roster, counted as a
duplicate, or taken and offered to the copy rules. -/
def State.takeReport (s : State) (radio : Nat) (a : ReportArgs) : State :=
  match s.carrier? a.carrier with
  | none => s.unknownReport radio a.carrier
  | some r =>
    if r.lastSeq = some a.seq then s.onRadio radio RadioLink.countDuplicate
    else
      let p := prepare a
      let out := s.judgeReport a.carrier radio r p
      out.1.copyFrame radio ⟨a.carrier, some p.flags, out.2, 1 :: a.bytes⟩

/-- The meaning of POSITION_REPORT. -/
def execPositionReport (r : Fin 4) (a : ReportArgs) (s : State) : Host.Outcome State Fault Refusal :=
  .next (s.sortRadio r (fun s => s.takeReport r a)).pump

end Sys2Proof.Machine
end

