-- ==== Sys2Proof/Machine/RouteCmds.lean ====
section
/-! DEFINITION. ROUTE_REQUEST, ROUTE_EXTEND, ROUTE_CANCEL, PENDING_CANCEL and the expiry of a pending entry (R24 to R29,
R35). -/

namespace Sys2Proof.Machine

/-- The lowest index of a list whose id is not inside the grid or not usable, with the id (R24 check 5). -/
def Grid.firstUnusable (g : Grid) (ids : List Nat) : Option (Nat × Nat) := firstWhere (fun i => !g.usable i) ids 0

/-- The index of the second of the first pair of consecutive ids that are not adjacent; `i` is the index of the first
id given (R24 check 6). -/
def Grid.firstApart (g : Grid) : List Nat → Nat → Option Nat
  | a :: b :: rest, i => if g.adjacent a b then g.firstApart (b :: rest) (i + 1) else some (i + 1)
  | _, _ => none

/-- The index of the first id that stands among those before it or among `seen` (R24 check 7). -/
def firstRepeat : List Nat → List Nat → Nat → Option Nat
  | _, [], _ => none
  | seen, x :: rest, i => if seen.contains x then some i else firstRepeat (x :: seen) rest (i + 1)

/-- The detail of a refusal for an unavailable segment: the segment, and its holder under CONFLICT (R26). -/
def State.blockVals (s : State) (i : Nat) (why : Reason) : List Val :=
  .half i :: (if why = .conflict then partyVals (s.seg i).holder else [])

/-- The rear of a carrier where it differs from the front (R24 check 7, R25). -/
def Carrier.rearAhead (r : Carrier) : List Nat :=
  match r.rear, r.front with
  | some b, some f => if b = f then [] else [b]
  | _, _ => []

/-- Checks 1 to 8 of ROUTE_REQUEST (R24): the refusal, or the carrier's record and the queue flag. -/
def State.routeChecks (s : State) (a : RouteArgs) : Except Reply (Carrier × Bool) :=
  if s.mode ≠ .active then .error (refuse 0x26 .badMode [.byte s.mode.code])
  else match readYesNo a.queueFlag with
  | none => .error (refuseField 0x26 2)
  | some queue =>
    match s.carrier? a.carrier with
    | none => .error (refuse 0x26 .unknownCarrier [.half a.carrier])
    | some r =>
      if r.state = .authorized then .error (refuse 0x26 .routeActive [.byte (s.version a.carrier)])
      else if r.state ≠ .idle then .error (refuse 0x26 .badCarrierState [.byte r.state.code])
      else if a.ids.head? = none ∨ a.ids.head? ≠ r.front then .error (refuse 0x26 .notAtStart [idVal r.front])
      else match s.grid.firstUnusable a.ids with
      | some (i, x) => .error (refuse 0x26 .badSegment [.byte i, .half x])
      | none => match s.grid.firstApart a.ids 0 with
        | some i => .error (refuse 0x26 .notAdjacent [.byte i])
        | none => match firstRepeat r.rearAhead a.ids 0 with
          | some i => .error (refuse 0x26 .repeated [.byte i])
          | none =>
            if a.ids.length > 24 then .error (refuse 0x26 .tooLong [.byte a.ids.length])
            else .ok (r, queue)

/-- Place a request on the pending route list (R26): in place of the carrier's entry, or at the end, or refused when
the list is full; with the position of the entry. -/
def State.queueEntry (s : State) (e : PendingEntry) : Option (State × Nat) :=
  match placeOf (s.waiting.map (fun x => x.carrier)) e.carrier, s.entry? e.carrier with
  | some i, some old =>
    let s1 : State := { s with waiting := s.waiting.set i e }
    some (s1.post .replaced (.carrier e.carrier) [.half old.tag], i + 1)
  | _, _ =>
    if s.waiting.length ≥ Config.waitingCapacity then none
    else some ({ s with waiting := s.waiting ++ [e] }, s.waiting.length + 1)

/-- A direct grant (R25), which removes the carrier's pending entry as REPLACED. -/
def Work.grantDirect (w : Work) (c : Nat) (list : List Nat) (stop tag : Nat) (origin : DLink) : Work :=
  let w1 := w.grant c list stop tag origin
  match w1.s.entry? c with
  | some e => (w1.on (fun s => s.dropEntry c)).replaceEntry e
  | none => w1

/-- ROUTE_REQUEST (R24 to R26); the route version takes 1 byte in a detail (log entry 9). -/
def ownRouteRequest (l : DLink) (a : RouteArgs) : Owner := fun s =>
  match s.routeChecks a with
  | .error reply => (s, reply)
  | .ok (_, queue) =>
    let stop := clampTo 0 (s.grid.lengthOf (a.ids.getLastD 0)) a.stop
    let expiry := clampTo 1 600 a.expiry
    let clamped := decide (stop ≠ a.stop ∨ expiry ≠ a.expiry)
    match s.lockedStanding a.carrier with
    | some i => (s, { refuse 0x26 .locked (.half i :: lockCranes (s.seg i).lock) with clamped := clamped })
    | none =>
      match s.firstUnavailable a.carrier a.ids with
      | none =>
        let s1 := s.request (fun w => w.grantDirect a.carrier a.ids stop a.tag l)
        let entries := match s1.route? a.carrier with
          | some r => r.list.length
          | none => 0
        (s1, ⟨0x26, .granted, .none_, clamped,
          [.byte (s1.version a.carrier), .byte entries, .half stop, .half expiry]⟩)
      | some (i, why) =>
        if queue then
          let e : PendingEntry :=
            ⟨a.carrier, a.ids, stop, a.tag, l, s.now, later s.now (1000 * expiry), i⟩
          match s.queueEntry e with
          | some (s1, position) =>
            (s1, ⟨0x26, .queued, .none_, clamped,
              [.byte position, .half i, .byte why.code] ++ (if why = .conflict then partyVals (s.seg i).holder else [])⟩)
          | none => (s, { refuse 0x26 .queueFull [] with clamped := clamped })
        else (s, { refuse 0x26 why (s.blockVals i why) with clamped := clamped })

/-- The meaning of ROUTE_REQUEST. -/
def execRouteRequest (l : DLink) (a : RouteArgs) (s : State) : Host.Outcome State Fault Refusal :=
  .next (s.takeRequest l (ownRouteRequest l a))

/-- The checks that ROUTE_EXTEND and ROUTE_CANCEL share (R27 checks 1 to 3, R28): the carrier's record and route. -/
def State.routeOf (s : State) (kind c : Nat) : Except Reply (Carrier × Route) :=
  if s.mode ≠ .active then .error (refuse kind .badMode [])
  else match s.carrier? c with
  | none => .error (refuse kind .unknownCarrier [])
  | some r =>
    if r.state = .idle then .error (refuse kind .noRoute [])
    else if r.state ≠ .authorized then .error (refuse kind .badCarrierState [])
    else match s.route? c with
      | some route => .ok (r, route)
      | none => .error (refuse kind .noRoute [])

/-- Write a carrier's route record and name it for a run. -/
def Work.putRoute (w : Work) (c : Nat) (r : Route) : Work :=
  (w.on (fun s => { s with routes := s.routes.put c r })).concern c

/-- Increment the version by a grant, extension or cancel, which stands for a cut-back of the same request (R83). -/
def Work.bumpSelf (w : Work) (c : Nat) : Work :=
  let w1 := w.bumpVersion c
  { w1 with bumped := c :: w1.bumped }

/-- ROUTE_EXTEND (R27): an appended segment that the carrier itself holds outside its list is refused as any other that
is not FREE, naming the carrier (log entry 47). -/
def ownRouteExtend (c stop : Nat) (ids : List Nat) : Owner := fun s =>
  match s.routeOf 0x27 c with
  | .error reply => (s, reply)
  | .ok (_, route) =>
    match s.grid.firstUnusable ids with
    | some (i, _) => (s, refuse 0x27 .badSegment [.byte i])
    | none => match s.grid.firstApart (route.list.getLastD 0 :: ids) 0 with
      | some i => (s, refuse 0x27 .notAdjacent [.byte (i - 1)])
      | none => match firstRepeat route.list ids 0 with
        | some _ => (s, refuse 0x27 .repeated [])
        | none =>
          let total := route.list.length + ids.length
          if ids.length = 0 ∨ ids.length > 24 ∨ total > 25 then (s, refuse 0x27 .tooLong [.byte total])
          else
            let newStop := clampTo 0 (s.grid.lengthOf (ids.getLastD 0)) stop
            let clamped := decide (newStop ≠ stop)
            match firstWhere (fun i => (s.seg i).blockCause.isSome) ids 0 with
            | some (_, i) =>
              let why := (s.seg i).blockCause.getD .conflict
              (s, { refuse 0x27 why (s.blockVals i why) with clamped := clamped })
            | none =>
              let s1 := s.request (fun w =>
                ((w.onSegs ids (SegDyn.hold_ (.carrier c) .route)).putRoute c
                  { route with list := route.list ++ ids, stop := newStop }).bumpSelf c)
              (s1, ⟨0x27, .granted, .none_, clamped, [.byte (s1.version c), .byte total, .half newStop]⟩)

/-- The meaning of ROUTE_EXTEND. -/
def execRouteExtend (l : DLink) (c stop : Nat) (ids : List Nat) (s : State) : Host.Outcome State Fault Refusal :=
  .next (s.takeRequest l (ownRouteExtend c stop ids))

/-- The index of the last entry that a cancel keeps: the entry that contains the cut point, the front position plus the
stopping distance (R28 step 2). -/
def cutEntry (g : Grid) (r : Carrier) (route : Route) : Nat :=
  entryAt g route.list (frontPos g route r.frontRem + stoppingDistance r.speed r.applied)

/-- ROUTE_CANCEL (R28). -/
def ownRouteCancel (c : Nat) : Owner := fun s =>
  match s.routeOf 0x28 c with
  | .error reply => (s, reply)
  | .ok (r, route) =>
    let kept := route.list.take (cutEntry s.grid r route + 1)
    let gone := route.list.drop (cutEntry s.grid r route + 1)
    let stop := if gone.isEmpty then route.stop else s.grid.lengthOf (kept.getLastD 0)
    let s1 := s.request (fun w => ((w.release gone).putRoute c { route with list := kept, stop := stop }).bumpSelf c)
    (s1, accept 0x28 false [.byte (s1.version c), .byte gone.length, .half stop])

/-- The meaning of ROUTE_CANCEL. -/
def execRouteCancel (l : DLink) (c : Nat) (s : State) : Host.Outcome State Fault Refusal :=
  .next (s.takeRequest l (ownRouteCancel c))

/-- PENDING_CANCEL (R29). -/
def ownPendingCancel (c : Nat) : Owner := fun s =>
  if s.mode ≠ .active then (s, refuse 0x29 .badMode [])
  else if !s.registered c then (s, refuse 0x29 .unknownCarrier [])
  else match s.entry? c with
    | none => (s, refuse 0x29 .notPending [])
    | some e =>
      ((s.dropEntry c).post .pendingDropped (.carrier c) [.byte 1, .half e.tag], accept 0x29 false [.half e.tag])

/-- The meaning of PENDING_CANCEL. -/
def execPendingCancel (l : DLink) (c : Nat) (s : State) : Host.Outcome State Fault Refusal :=
  .next (s.takeRequest l (ownPendingCancel c))

/-- A pending entry has reached its expiry time (R35). -/
def PendingEntry.due (now : Time) (e : PendingEntry) : Bool := reached now e.arrival e.expiry

/-- PENDING_EXPIRED (R35): an entry that is due is removed and notified with its tag and last blocking segment. -/
def State.expireEntry (s : State) (c : Nat) : State :=
  match s.entry? c with
  | some e =>
    if e.due s.now then (s.dropEntry c).post .pendingExpired (.carrier c) [.half e.tag, .half e.lastBlock] else s
  | none => s

/-- The meaning of PENDING_EXPIRED. -/
def execPendingExpired (c : Nat) (s : State) : Host.Outcome State Fault Refusal := .next (s.expireEntry c).pump

end Sys2Proof.Machine
end

