-- ==== Sys2Proof/Machine/FrameCmds.lean ====
section
/-! DEFINITION. Frames by kind and payload, and bytes on a link: DISPATCH_FRAME, RADIO_UNUSABLE_FRAME,
CRANE_UNUSABLE_FRAME and BAD_FRAME (R122, R147, R154, R171, R173). -/

namespace Sys2Proof.Machine

/-! ## Dispatch frames (R147) -/

/-- The owner of a dispatch request on a link (R147 step 5); none for the other commands. -/
def ownerOf : Instr → Option Owner
  | .heartbeat l => some (ownHeartbeat l)
  | .setDispatch _ a b => some (ownSetDispatch a b)
  | .queryLink _ sel => some (ownQueryLink sel)
  | .setGrid _ x y => some (ownSetGrid x y)
  | .setSegment _ a => some (ownSetSegment a)
  | .queryGrid _ => some ownQueryGrid
  | .routeRequest l a => some (ownRouteRequest l a)
  | .routeExtend _ c stop ids => some (ownRouteExtend c stop ids)
  | .routeCancel _ c => some (ownRouteCancel c)
  | .pendingCancel _ c => some (ownPendingCancel c)
  | .segmentBlock _ r => some (ownBlock 0x2A r true)
  | .segmentUnblock _ r => some (ownBlock 0x2B r false)
  | .querySegment _ i => some (ownQuerySegment i)
  | .registerCarrier _ c k => some (ownRegister c k)
  | .deregisterCarrier _ c => some (ownDeregister c)
  | .setClass _ a => some (ownSetClass a)
  | .recoverCarrier _ c => some (ownRecover c)
  | .releaseFrozen _ c => some (ownReleaseFrozen c)
  | .clearEmergency _ c => some (ownClearEmergency c)
  | .queryCarrier _ c => some (ownQueryCarrier c)
  | .setCrane _ k sel g o => some (ownSetCrane k sel g o)
  | .setCraneOperating _ k o => some (ownSetCraneOperating k o)
  | .clearCrane _ k => some (ownClearCrane k)
  | .queryCrane _ k => some (ownQueryCrane k)
  | .setRadio _ a => some (ownSetRadio a)
  | .flushRouting _ => some ownFlushRouting
  | .broadcastConfig _ a => some (ownBroadcastConfig a)
  | .broadcastTrigger _ => some ownBroadcastTrigger
  | .queryBroadcast _ => some ownQueryBroadcast
  | .setCopyRule _ a => some (ownSetCopyRule a)
  | .activate _ t => some (ownActivate t)
  | .enterConfig _ => some ownEnterConfig
  | .saveSettings _ => some ownSaveSettings
  | _ => none

/-- A kind that is not in the catalogue (R147 step 3): refused BAD_KIND and counted. -/
def ownBadKind (l : DLink) (kind : Nat) : Owner := fun s =>
  (s.onDlink l (fun d => { d with badKinds := bump16 d.badKinds }), refuse kind .badKind [.byte kind])

/-- A payload of the wrong length for its kind (R147 step 4): refused BAD_LENGTH. -/
def ownBadLength (kind length : Nat) : Owner := fun s => (s, refuse kind .badLength [.byte length])

/-- What the dispatch link makes of a frame (R147 steps 3 to 5). -/
def frameOwner (l : DLink) (kind : Nat) (payload : List Byte) : Owner :=
  match decodeDispatch l kind payload with
  | .badKind => ownBadKind l kind
  | .badLength => ownBadLength kind payload.length
  | .command i => (ownerOf i).getD (ownBadKind l kind)

/-- A valid frame on a dispatch link, taken by the steps of R147. -/
def State.takeDispatch (s : State) (l : DLink) (kind : Nat) (payload : List Byte) : State :=
  s.takeRequest l (frameOwner l kind payload)

/-- The meaning of DISPATCH_FRAME: a frame that reads as a request goes to its owner as that request's command does
(log entry 12). -/
def execDispatchFrame (l : DLink) (kind : Nat) (payload : List Byte) (s : State) : Host.Outcome State Fault Refusal :=
  .next (s.takeDispatch l kind payload)

/-! ## Radio frames (R122) -/

/-- What sorting does with a frame on a configured radio link (R122). -/
def sortedBy (r : Fin 4) (kind : Nat) (payload : List Byte) (s : State) : State :=
  match decodeRadio r kind payload with
  | .command (.positionReport _ a) => s.takeReport r a
  | .command (.carrierEvent _ a) => s.takeEvent r a
  | .command (.modemHeartbeat _) => s
  | _ => s.onRadio r RadioLink.countUnusable

/-- A valid frame on a radio link. -/
def State.takeRadio (s : State) (r : Fin 4) (kind : Nat) (payload : List Byte) : State :=
  State.pump (s.sortRadio r (sortedBy r kind payload))

/-- The meaning of RADIO_UNUSABLE_FRAME: a frame that reads as one of the carriers' or modems' commands is taken as
that command (log entry 12). -/
def execRadioUnusableFrame (r : Fin 4) (kind : Nat) (payload : List Byte) (s : State) :
    Host.Outcome State Fault Refusal :=
  .next (s.takeRadio r kind payload)

/-! ## Crane frames (R98, R154, R173) -/

/-- An absent crane's frame, or one that cannot be used: counted as unusable too (R154, R173, log entry 17). -/
def State.takeUnusable (s : State) (k : Nat) : State := (s.craneArrival k).craneUnusable k

/-- A valid frame on a crane link. -/
def State.takeCraneFrame (s : State) (k : Fin 8) (kind : Nat) (payload : List Byte) : State :=
  State.pump (match decodeCrane k kind payload with
    | .command (.craneReport _ a) => s.takeCrane k (fun s => s.takeCraneReport k a)
    | .command (.lowerRequest _ t) => s.craneRequest k (ownLower k t)
    | .command (.slotRelease _) => s.craneRequest k (ownRelease k)
    | .command (.gantryRequest _ b) => s.craneRequest k (ownGantry k b)
    | _ => s.takeUnusable k)

/-- The meaning of CRANE_UNUSABLE_FRAME: a frame that reads as one of the crane's commands is taken as that command
(log entry 12). -/
def execCraneUnusableFrame (k : Fin 8) (kind : Nat) (payload : List Byte) (s : State) :
    Host.Outcome State Fault Refusal :=
  .next (s.takeCraneFrame k kind payload)

/-! ## Bytes on a link (R146, R171) -/

/-- The receiver of a link. -/
def State.receiver (s : State) : Link → Receiver
  | .dispatch l => (s.dlink l).rx
  | .radio r => (s.radio r).rx
  | .crane k => (s.craneLink k).rx

/-- Write the receiver of a link. -/
def State.putReceiver (s : State) (link : Link) (rx : Receiver) : State :=
  match link with
  | .dispatch l => s.onDlink l (fun d => { d with rx := rx })
  | .radio r => s.onRadio r (fun d => { d with rx := rx })
  | .crane k => s.onCraneLink k (fun d => { d with rx := rx })

/-- Count a bad frame in the CRC-error counter of its link (R171). -/
def State.countBad (s : State) : Link → State
  | .dispatch l => s.onDlink l (fun d => { d with crcErrors := bump16 d.crcErrors })
  | .radio r => s.onRadio r (fun d => { d with crcErrors := bump16 d.crcErrors })
  | .crane k => s.onCraneLink k (fun d => { d with crcErrors := bump16 d.crcErrors })

/-- A valid frame is handed to its link's own rules (R171). -/
def State.takeFrame (s : State) (link : Link) (kind : Nat) (payload : List Byte) : State :=
  match link with
  | .dispatch l => s.takeDispatch l kind payload
  | .radio r => s.takeRadio r kind payload
  | .crane k => s.takeCraneFrame k kind payload

/-- One byte arrives on a link (R171). -/
def State.takeByte (link : Link) (s : State) (b : Byte) : State :=
  let out := (s.receiver link).takeByte b
  let s1 := s.putReceiver link out.1
  match out.2 with
  | .nothing => s1
  | .bad => s1.countBad link
  | .frame kind payload => s1.takeFrame link kind payload

/-- The meaning of BAD_FRAME: its bytes arrive on the link; a frame among them that is bad is counted and discarded
(R171). -/
def execBadFrame (link : Link) (bytes : List Byte) (s : State) : Host.Outcome State Fault Refusal :=
  .next (bytes.foldl (State.takeByte link) s)

end Sys2Proof.Machine
end

