-- ==== Sys2Proof/Machine/Clock.lean ====
section
/-! DEFINITION. The passage of time: what a millisecond changes, and the part's own events that are then due. -/

namespace Sys2Proof.Machine

/-! ## The passage of time (R163) -/

/-- A countdown of one ms: a stopped timer stays stopped. -/
def countDown (t : Option Nat) : Option Nat := t.map (fun n => n - 1)

/-- One ms passes (R163): part time goes on, and every running timer counts down. -/
def State.elapse (s : State) : State :=
  { s with
    now := s.now + 1
    carriers := s.carriers.mapVals (fun r => { r with timer := countDown r.timer })
    cranes := s.cranes.mapVals (fun c => { c with timer := countDown c.timer })
    radios := s.radios.mapVals (fun l => { l with timer := countDown l.timer })
    dispatch := s.dispatch.mapVals (fun d => { d with timer := countDown d.timer })
    cycle := { s.cycle with timer := countDown s.cycle.timer } }

/-- A timer has reached 0. -/
def expired (t : Option Nat) : Bool := decide (t = some 0)

/-- The expiries of the link timers (R113, R119, R144). -/
def State.dueLinks (s : State) : List Instr :=
  ([DLink.a, DLink.b].filter (fun l => (s.dlink l).up && expired (s.dlink l).timer)).map Instr.dispatchLinkTimeout
    ++ ((List.finRange 4).filter (fun r => expired (s.radio r.val).timer)).map Instr.radioLinkTimeout
    ++ ((List.finRange 8).filter (fun k => expired (s.crane k.val).timer)).map Instr.craneLinkDown

/-- The expiries of the supervision timers, by carrier (R66, R68). -/
def State.dueCarriers (s : State) : List Instr :=
  s.carriers.rows.filterMap (fun r =>
    if expired r.2.timer then
      some (if r.2.state = .missing then .graceExpiry r.1 else .supervisionTimerExpiry r.1)
    else none)

/-- The deadlines that part time has reached (R35, R104, R105, R126, R130, R139, R169). -/
def State.dueDeadlines (s : State) : List Instr :=
  (s.waiting.filter (fun e => e.due s.now)).map (fun e => Instr.pendingExpired e.carrier)
    ++ ((List.finRange 8).filter (fun k =>
      ((s.crane k.val).claim.bind (fun c => c.lapseCause s.now)).isSome)).map Instr.claimLapsed
    ++ (s.learning.rows.filter (fun r => r.2.due s.now)).map (fun r => Instr.learningEntryExpiry r.1)
    ++ (match s.flush with
      | some f => if f.due s.now then [.flushVisit] else []
      | none => [])
    ++ (if expired s.cycle.timer then [.periodTimerExpiry] else [])
    ++ (match s.save with
      | some v => if v.due s.now then [.saveWriteCompletion (Config.readBack v.accepted)] else []
      | none => [])

/-- The part's own events that are due, in a fixed order (log entry 2). -/
def State.dueEvents (s : State) : List Instr := s.dueLinks ++ s.dueCarriers ++ s.dueDeadlines

/-- One ms passes with no command waiting (log entry 1): the events that are then due join the queue. -/
def State.tick (s : State) : State :=
  let s1 := s.elapse
  { s1 with pending := s1.pending ++ s1.dueEvents }

end Sys2Proof.Machine
end

