-- ==== Sys2Proof/Machine/Dispatch.lean ====
section
/-! DEFINITION. One arm per command: its meaning. -/

namespace Sys2Proof.Machine

/-- The effect of a command on everything but the queue of waiting commands. -/
def exec (i : Instr) (s : State) : Host.Outcome State Fault Refusal :=
  match i with
  | .reset => Sys2Proof.Machine.execReset s
  | .badFrame link bytes => Sys2Proof.Machine.execBadFrame link bytes s
  | .dispatchFrame l kind payload => Sys2Proof.Machine.execDispatchFrame l kind payload s
  | .dispatchLinkTimeout l => Sys2Proof.Machine.execDispatchLinkTimeout l s
  | .dispatchTransmitComplete l => Sys2Proof.Machine.execDispatchTransmitComplete l s
  | .heartbeat l => Sys2Proof.Machine.execHeartbeat l s
  | .setDispatch l a b => Sys2Proof.Machine.execSetDispatch l a b s
  | .queryLink l sel => Sys2Proof.Machine.execQueryLink l sel s
  | .setGrid l lanes bays => Sys2Proof.Machine.execSetGrid l lanes bays s
  | .setSegment l a => Sys2Proof.Machine.execSetSegment l a s
  | .queryGrid l => Sys2Proof.Machine.execQueryGrid l s
  | .routeRequest l a => Sys2Proof.Machine.execRouteRequest l a s
  | .routeExtend l c stop ids => Sys2Proof.Machine.execRouteExtend l c stop ids s
  | .routeCancel l c => Sys2Proof.Machine.execRouteCancel l c s
  | .pendingCancel l c => Sys2Proof.Machine.execPendingCancel l c s
  | .segmentBlock l r => Sys2Proof.Machine.execSegmentBlock l r s
  | .segmentUnblock l r => Sys2Proof.Machine.execSegmentUnblock l r s
  | .querySegment l k => Sys2Proof.Machine.execQuerySegment l k s
  | .registerCarrier l c k => Sys2Proof.Machine.execRegisterCarrier l c k s
  | .deregisterCarrier l c => Sys2Proof.Machine.execDeregisterCarrier l c s
  | .setClass l a => Sys2Proof.Machine.execSetClass l a s
  | .recoverCarrier l c => Sys2Proof.Machine.execRecoverCarrier l c s
  | .releaseFrozen l c => Sys2Proof.Machine.execReleaseFrozen l c s
  | .clearEmergency l c => Sys2Proof.Machine.execClearEmergency l c s
  | .queryCarrier l c => Sys2Proof.Machine.execQueryCarrier l c s
  | .setCrane l k sel g o => Sys2Proof.Machine.execSetCrane l k sel g o s
  | .setCraneOperating l k o => Sys2Proof.Machine.execSetCraneOperating l k o s
  | .clearCrane l k => Sys2Proof.Machine.execClearCrane l k s
  | .queryCrane l k => Sys2Proof.Machine.execQueryCrane l k s
  | .setRadio l a => Sys2Proof.Machine.execSetRadio l a s
  | .flushRouting l => Sys2Proof.Machine.execFlushRouting l s
  | .broadcastConfig l a => Sys2Proof.Machine.execBroadcastConfig l a s
  | .broadcastTrigger l => Sys2Proof.Machine.execBroadcastTrigger l s
  | .queryBroadcast l => Sys2Proof.Machine.execQueryBroadcast l s
  | .setCopyRule l a => Sys2Proof.Machine.execSetCopyRule l a s
  | .activate l t => Sys2Proof.Machine.execActivate l t s
  | .enterConfig l => Sys2Proof.Machine.execEnterConfig l s
  | .saveSettings l => Sys2Proof.Machine.execSaveSettings l s
  | .saveWriteCompletion differs => Sys2Proof.Machine.execSaveWriteCompletion differs s
  | .positionReport r a => Sys2Proof.Machine.execPositionReport r a s
  | .carrierEvent r a => Sys2Proof.Machine.execCarrierEvent r a s
  | .modemHeartbeat r => Sys2Proof.Machine.execModemHeartbeat r s
  | .radioUnusableFrame r kind payload => Sys2Proof.Machine.execRadioUnusableFrame r kind payload s
  | .radioLinkTimeout r => Sys2Proof.Machine.execRadioLinkTimeout r s
  | .radioTransmitComplete r => Sys2Proof.Machine.execRadioTransmitComplete r s
  | .learningEntryExpiry c => Sys2Proof.Machine.execLearningEntryExpiry c s
  | .flushVisit => Sys2Proof.Machine.execFlushVisit s
  | .supervisionTimerExpiry c => Sys2Proof.Machine.execSupervisionTimerExpiry c s
  | .graceExpiry c => Sys2Proof.Machine.execGraceExpiry c s
  | .pendingExpired c => Sys2Proof.Machine.execPendingExpired c s
  | .craneReport k a => Sys2Proof.Machine.execCraneReport k a s
  | .lowerRequest k t => Sys2Proof.Machine.execLowerRequest k t s
  | .slotRelease k => Sys2Proof.Machine.execSlotRelease k s
  | .gantryRequest k b => Sys2Proof.Machine.execGantryRequest k b s
  | .craneUnusableFrame k kind payload => Sys2Proof.Machine.execCraneUnusableFrame k kind payload s
  | .claimLapsed k => Sys2Proof.Machine.execClaimLapsed k s
  | .craneLinkDown k => Sys2Proof.Machine.execCraneLinkDown k s
  | .craneTransmitComplete k => Sys2Proof.Machine.execCraneTransmitComplete k s
  | .periodTimerExpiry => Sys2Proof.Machine.execPeriodTimerExpiry s

end Sys2Proof.Machine
end

