-- ==== Sys2Proof/Safety.lean ====
section
/-! DEFINITION. What counts as a safe run: the invariant of the part (its queues within their bounds, nothing kept for
a link that is DOWN, the closures in force exactly as the links say), and the words in which claims about commands are
written. -/

namespace Sys2Proof.Machine

/-! ## The invariant -/

/-- A dispatch link as the manual allows it: its queues within their bounds (R147, R156), a notification that is being
sent still in its queue (R158), the time of the first drop kept exactly while drops are unreported (R159), and nothing
waiting, sent or timed on a link that is DOWN (R144). -/
structure DispatchLink.Sound (d : DispatchLink) : Prop where
  replies : d.replies.length ≤ Config.replyCapacity
  notifs : d.notifs.length ≤ Config.notificationCapacity
  sending : d.tx = .notification → d.notifs ≠ []
  drops : d.firstDrop = none ↔ d.dropCount = 0
  down : d.up = false → d.replies = [] ∧ d.tx = .idle ∧ d.timer = none

/-- A radio link as the manual allows it: nothing waiting, sent or timed on a link that is not UP (R118, R121). -/
structure RadioLink.Sound (l : RadioLink) : Prop where
  down : l.state ≠ .up → l.urgent = [] ∧ l.normal = [] ∧ l.sending = none ∧ l.timer = none

/-- The queues of a radio link as the manual allows them (R128): STOP_NOW and EMERGENCY in the urgent queue and the other
authorities in the normal one, at most one authority per carrier in each, and at most one picture row per lane. -/
structure RadioLink.Coalesced (l : RadioLink) : Prop where
  urgent : ∀ a ∈ l.urgent, a.command = .stopNow ∨ a.command = .emergency
  normal : ∀ a, .authority a ∈ l.normal → a.command = .proceed ∨ a.command = .hold
  urgentOnce : l.urgent.Pairwise (fun a b => a.carrier ≠ b.carrier)
  normalOnce : l.normal.Pairwise (fun f g => match f, g with
    | .authority a, .authority b => a.carrier ≠ b.carrier
    | .row a, .row b => a.lane ≠ b.lane
    | _, _ => True)

/-- The bounds of the part and the conditions that tie its modes, its links and its closures together. -/
structure State.Bounded (s : State) : Prop where
  /-- The dispatch links (R144, R147, R156, R158, R159). -/
  dispatch : ∀ l, (s.dlink l).Sound
  /-- The radio links (R118, R121). -/
  radios : ∀ r, (s.radio r).Sound
  /-- A radio link is UNCONFIGURED exactly while it is configured absent (R118). -/
  links : ∀ r, r < 4 → ((s.radio r).state = .unconfigured ↔ (s.radioCfg r).configured = false)
  /-- At most 16 replies wait on a crane link (R108). -/
  cranes : ∀ k, (s.craneLink k).replies ≤ Config.replyCapacity
  /-- The pending route list holds at most 32 entries (R34). -/
  waiting : s.waiting.length ≤ Config.waitingCapacity
  /-- Dispatch loss is in force exactly while both dispatch links are DOWN (R152, R153). -/
  loss : s.lossSince.isSome = (!(s.dlink .a).up && !(s.dlink .b).up)
  /-- Dispatch-loss closure is in force with it (R39). -/
  dlc : s.dlcClosed = s.lossSince.isSome
  /-- Radio-loss closure is in force exactly while a configured radio link is DOWN (R40). -/
  rlc : s.rlcClosed = s.radioLoss
  /-- The image is not valid while a save is being written (R169). -/
  save : s.save.isSome = true → s.image.valid = false
  /-- The recovery start is present exactly in RECOVERY (R164). -/
  recovery : s.recoveryStart.isSome = decide (s.mode = .recovery)
  /-- The dynamic records stand in canonical form. -/
  sorted : s.segs.Sorted
  /-- The pending route list is empty outside ACTIVE (R34). -/
  quiet : s.mode ≠ .active → s.waiting = []
  /-- Outside CONFIG the berth has passed its validation (R11, R12). -/
  berth : s.mode ≠ .config → s.cfg.validate = none

/-- The part as the manual allows it. -/
structure State.Inv (s : State) : Prop extends State.Bounded s where
  /-- The queues of the radio links (R128). -/
  queues : ∀ r, (s.radio r).Coalesced
  /-- At most one of each command stands in the queue of a crane link, LOWER_REVOKED once per slot (R108). -/
  commands : ∀ k, (s.craneLink k).queue.Pairwise (fun f g => match f, g with
    | .hoistStop _, .hoistStop _ => False
    | .gantryStop _, .gantryStop _ => False
    | .lowerRevoked _ t, .lowerRevoked _ u => t ≠ u
    | _, _ => True)
  /-- A learning entry names a link that is UP (R121, R125). -/
  learned : ∀ x ∈ s.learning.rows, (s.radio x.2.link).state = .up
  /-- The pending route list holds at most one entry per carrier (R34). -/
  once : s.waiting.Pairwise (fun e f => e.carrier ≠ f.carrier)
  /-- The pending route list holds entries of IDLE carriers only (R34). -/
  idle : ∀ e ∈ s.waiting, ∃ r, s.carrier? e.carrier = some r ∧ r.state = .idle
  /-- A hoist lock holds at most one entry per crane, each with a reason, so that it is gone with its last reason (R17,
  R41). -/
  locks : ∀ i, (s.seg i).lock.Sorted ∧ ∀ x ∈ (s.seg i).lock.rows, x.2 ≠ ⟨false, false, false, false⟩
  /-- A TRAVELLING crane has no claim (R96, R109). -/
  claims : ∀ k, (s.crane k).state = .travelling → (s.crane k).claim = none

/-! ## What a request leaves as it was -/

/-- What offers to its notification queue make of a dispatch link (R159): nothing else of it changes, the entries that
stood in the queue stand at its head, and the queue keeps its bound. -/
structure DispatchLink.Notified (d e : DispatchLink) : Prop where
  rest : e = { d with notifs := e.notifs, dropCount := e.dropCount, firstDrop := e.firstDrop }
  grows : d.notifs <+: e.notifs
  bound : d.notifs.length ≤ Config.notificationCapacity → e.notifs.length ≤ Config.notificationCapacity
  drops : (d.firstDrop = none ↔ d.dropCount = 0) → (e.firstDrop = none ↔ e.dropCount = 0)

/-- What a request's queuing makes of a radio link (R128, R129): only its queues and its transmitter change, and those
only while it is UP. -/
structure RadioLink.Fed (l m : RadioLink) : Prop where
  rest : m = { l with urgent := m.urgent, normal := m.normal, sending := m.sending }
  down : l.state ≠ .up → m = l

/-- What a request's sending makes of a crane link (R108): only its queue and its transmitter change, and no reply
joins. -/
structure CraneLink.Fed (l m : CraneLink) : Prop where
  rest : m = { l with queue := m.queue, sending := m.sending }
  replies : m.replies ≤ l.replies

/-- What the authority runs and the picture report at the end of a request may change, and nothing else (R21, R76 to
R78, R83): the authority fields of the carriers, the versions of the routes, the cycle of the picture, and what is
queued on the radio links and for notification. -/
structure State.OnlyRuns (s t : State) : Prop where
  rest : t = { s with routes := t.routes, versions := t.versions, carriers := t.carriers, radios := t.radios,
                      cycle := t.cycle, dispatch := t.dispatch }
  carriers : ∀ c, ∃ a, t.carrier? c = (s.carrier? c).map (fun r => { r with auth := a })
  routes : ∀ c, ∃ v, t.route? c = (s.route? c).map (fun r => { r with version := v })
  radios : ∀ r, RadioLink.Fed (s.radio r) (t.radio r)
  dispatch : ∀ l, DispatchLink.Notified (s.dlink l) (t.dlink l)

/-- Entries offered to a notification queue one after another (R156, R159). -/
def DispatchLink.offers (now : Time) (es : List Notif) (d : DispatchLink) : DispatchLink :=
  es.foldl (fun d e => d.offer now e) d

/-- The copy rules that a position report matches and that name a target link (R160, R161): the enabled ones of either
frame kind that select its carrier and whose flag it carries, PARKED at a speed above 0 counting as FAULT. -/
def State.rulesFor (s : State) (a : ReportArgs) (m : DLink) : List Nat :=
  s.cfg.copyRules.keysWhere (fun x => x.enable && x.selects a.carrier && decide (x.target = m) && match x.flag with
    | .nothing => true
    | .fault => decide (a.flags / 2 % 2 = 1) || (decide (a.flags % 2 = 1) && decide (0 < a.speed))
    | .laden => decide (a.flags / 4 % 2 = 1))

/-- What the copy rules add once a position report has been taken (R161): for each target link that a matching rule
names one COPY entry, with the radio link, the disposition, the numbers of those rules and the frame as received. -/
structure State.Copied (s t : State) (r : Fin 4) (a : ReportArgs) (disposition : Nat) : Prop where
  rest : t = { s with dispatch := t.dispatch }
  dispatch : ∀ m, t.dlink m = (s.dlink m).offers s.now (if s.rulesFor a m = [] then [] else
    [⟨.copy, s.now, .carrier a.carrier, [.byte (r.val + 2), .byte disposition, .byte (s.rulesFor a m).length] ++
      (s.rulesFor a m).map Val.byte ++ [.raw (1 :: a.bytes)]⟩])

/-! ## A request in progress -/

/-- The state of a carrier differs in two parts (R53). -/
def State.Moved (s t : State) (c : Nat) : Prop :=
  ∃ r x, s.carrier? c = some r ∧ t.carrier? c = some x ∧ x.state ≠ r.state

/-- What some changes within a request leave for its end to act on (R21, R75): the records that the request found stand,
exactly the segments whose record they change join those changed before, exactly the carriers given join those named
before, and nothing else that the end goes by changes (the versions counted, the carriers settled, the report). -/
structure Work.Grown (w v : Work) (named : Nat → Prop) : Prop where
  before : v.before = w.before
  touched : ∀ i, i ∈ v.touched ↔ i ∈ w.touched ∨ v.s.seg i ≠ w.s.seg i
  runs : ∀ c, c ∈ v.runs ↔ c ∈ w.runs ∨ named c
  bumped : v.bumped = w.bumped
  settled : v.settled = w.settled
  report : v.report = w.report

/-- Some changes within a request call for re-examination exactly when one of them is of a kind that R21 names: a segment
becomes FREE, its out-of-service set becomes empty, its hoist lock is removed, or its intruder is cleared. -/
def Work.Calls (w v : Work) : Prop :=
  v.reexam = true ↔ w.reexam = true ∨ ∃ i, ((w.s.seg i).hold ≠ .free ∧ (v.s.seg i).hold = .free) ∨
    ((w.s.seg i).oos ≠ ⟨false, false, false⟩ ∧ (v.s.seg i).oos = ⟨false, false, false⟩) ∨
    ((w.s.seg i).lock.rows ≠ [] ∧ (v.s.seg i).lock.rows = []) ∨
    ((w.s.seg i).intruder ≠ none ∧ (v.s.seg i).intruder = none)

/-- What bringing the closures of every segment of the grid into line makes of a request (R9, R39, R40), from the part
with its closures as they now stand: DLC and RLC stand in exactly the segments whose static record names a closure in
force, the segments whose record that changes are the changed ones, and no carrier is named. -/
structure State.Closes (s : State) (w : Work) : Prop where
  rest : w.s = { s with segs := w.s.segs }
  segs : ∀ i, w.s.seg i = if i < s.grid.lanes * s.grid.bays then
      { s.seg i with oos := ⟨(s.seg i).oos.block, s.dlcClosed && (s.grid.record i).dlc,
        s.rlcClosed && (s.grid.record i).rlc⟩ }
    else s.seg i
  grown : (Work.start s none).Grown w (fun _ => False)
  calls : (Work.start s none).Calls w

/-- A link state report (R40, R120): where radio-loss closure changes with the states of the links, the closures come
into line as one request, and otherwise nothing changes. -/
def State.Reported (s t : State) : Prop :=
  ∀ loss : Bool, (loss = true ↔ ∃ k, k < 4 ∧ (s.radio k).state = .down) →
    (loss = s.rlcClosed → t = s) ∧
    (loss ≠ s.rlcClosed → ∃ w, State.Closes { s with rlcClosed := loss } w ∧ t = w.finish)

/-! ## The loss of a radio link -/

/-- The authorities that a lost link empties, in the order in which they are offered again (R121 steps 2 and 4): those of
the urgent queue first, an abandoned one at the head of the queue it was taken from unless a later one for its carrier
was emptied too. -/
def RadioLink.RequeueOrder (q : RadioLink) (order : List Authority) : Prop :=
  ∀ normal, normal = q.normal.filterMap (fun f => match f with | .authority a => some a | .row _ => none) →
    ((∀ a, q.sending ≠ some (.authority a)) → order = q.urgent ++ normal) ∧
    ∀ a, q.sending = some (.authority a) →
      ((∃ x ∈ q.urgent ++ normal, x.carrier = a.carrier) → order = q.urgent ++ normal) ∧
      ((∀ x ∈ q.urgent ++ normal, x.carrier ≠ a.carrier) →
        (a.command = .stopNow ∨ a.command = .emergency → order = a :: q.urgent ++ normal) ∧
        (a.command = .proceed ∨ a.command = .hold → order = q.urgent ++ a :: normal))

/-- What the loss of a radio link makes of the part before its link state report (R121 steps 1 to 5): its learning
entries go and it is DOWN with nothing queued or sent (`x`); its rows are reported dropped, the abandoned one first
(`z`); its authorities whose carrier has no learning entry left are offered to every UP link; and RADIO_DOWN is posted
with the number of entries removed and of authorities requeued. -/
def State.RadioLost (s y : State) (r : Nat) : Prop :=
  ∃ (x z v : State) (order moved : List Authority), (s.radio r).RequeueOrder order ∧
    x = State.onRadio { s with learning := ⟨s.learning.rows.filter (fun e => decide (e.2.link ≠ r))⟩ } r (fun l =>
      { l with state := .down, timer := none, rx := Receiver.hunting, urgent := [], normal := [], sending := none }) ∧
    z = (((s.radio r).sending.toList ++ (s.radio r).normal).filterMap
      (fun f => match f with | .authority _ => none | .row row => some row)).foldl (fun v row => v.rowFate row false) x ∧
    ((∀ k, k < 4 → (z.radio k).state ≠ .up) → moved = []) ∧
    ((∃ k, k < 4 ∧ (z.radio k).state = .up) → moved = order.filter (fun a => (z.learning.get? a.carrier).isNone)) ∧
    (∀ k, v.radio k = if k < 4 ∧ (z.radio k).state = .up then
        moved.foldl (fun l a => (l.join a).transmit) (z.radio k)
      else z.radio k) ∧
    v = { z with radios := v.radios } ∧
    y = v.post .radioDown (.link (r + 2))
      [.byte (s.learning.rows.filter (fun e => decide (e.2.link = r))).length, .byte moved.length]

/-! ## Checks -/

/-- The first of some checks that fails, in the order given, each with its name (for a request the reason of its refusal,
R148) and with the details that go with it when it fails. -/
def FirstFails {Name Detail : Type} : List (Name × (Detail → Prop)) → Name → Detail → Prop
  | [], _, _ => False
  | (reason, fails) :: rest, why, detail =>
    (why = reason ∧ fails detail) ∨ ((∀ d, ¬ fails d) ∧ FirstFails rest why detail)

/-! ## Route requests -/

/-- A segment stands open to a carrier that asks for it (R19, R25): it is one of the carrier's own standing segments, or
it is FREE, in service, unlocked and without intruder. -/
def State.openTo (s : State) (c i : Nat) : Prop :=
  (s.seg i).hold = .held (.carrier c) .standing ∨
    ((s.seg i).hold = .free ∧ (s.seg i).oos = ⟨false, false, false⟩ ∧ (s.seg i).lock.rows = [] ∧
      (s.seg i).intruder = none)

/-- Checks 1 to 8 of R24 on a ROUTE_REQUEST of an IDLE carrier with this record. -/
structure State.MayAsk (s : State) (a : RouteArgs) (r : Carrier) : Prop where
  mode : s.mode = .active
  flag : a.queueFlag ≤ 1
  registered : s.carrier? a.carrier = some r
  idle : r.state = .idle
  start : a.ids.head? = r.front
  listed : a.ids ≠ []
  usable : ∀ i ∈ a.ids, s.grid.usable i = true
  adjacent : ∀ k, k + 1 < a.ids.length → s.grid.adjacent (a.ids.getD k 0) (a.ids.getD (k + 1) 0) = true
  once : a.ids.Nodup
  rear : ∀ b, r.rear = some b → r.rear ≠ r.front → b ∉ a.ids
  short : a.ids.length ≤ 24
  sorted : s.segs.Sorted

/-- The checks of R24 on a ROUTE_REQUEST of an IDLE carrier with this record. -/
structure State.MayRequest (s : State) (a : RouteArgs) (r : Carrier) : Prop extends State.MayAsk s a r where
  unlocked : ∀ i, (s.seg i).hold = .held (.carrier a.carrier) .standing → (s.seg i).lock.rows = []

/-- Checks 1 to 7 of R27 on a ROUTE_EXTEND of an AUTHORIZED carrier with this record and route. -/
structure State.MayExtend (s : State) (c : Nat) (ids : List Nat) (r : Carrier) (route : Route) : Prop where
  mode : s.mode = .active
  registered : s.carrier? c = some r
  authorized : r.state = .authorized
  routed : s.route? c = some route
  listed : ids ≠ []
  short : ids.length ≤ 24
  total : route.list.length + ids.length ≤ 25
  usable : ∀ i ∈ ids, s.grid.usable i = true
  adjacent : ∀ k, k < ids.length → s.grid.adjacent ((route.list.getLastD 0 :: ids).getD k 0) (ids.getD k 0) = true
  once : ids.Nodup
  ahead : ∀ i ∈ ids, i ∉ route.list

/-- The effective stop offset of a ROUTE_REQUEST (R24 check 9). -/
def State.stopOf (s : State) (a : RouteArgs) : Nat := min a.stop (s.grid.record (a.ids.getLastD 0)).length

/-- The effective expiry of a ROUTE_REQUEST, in seconds (R24 check 9). -/
def expiryOf (a : RouteArgs) : Nat := max 1 (min a.expiry 600)

/-! ## Commands that arrive on a dispatch link -/

/-- Fewer than 16 replies wait on a dispatch link, so that a frame on it is not an overrun (R147). -/
abbrev State.hasRoom (s : State) (l : DLink) : Prop := (s.dlink l).replies.length < Config.replyCapacity

/-- The part as the owner of a request finds it: after the arrival of the frame (R144, R147 steps 1 and 2). -/
def State.taken (s : State) (l : DLink) : State :=
  (s.dispatchArrival l).onDlink l (fun d => { d with good := bump16 d.good })

/-- The part once the reply to a request has joined its queue and the transmitters have looked for a frame (R147 step 5,
R149). -/
def State.answered (s : State) (l : DLink) (r : Reply) : State := (s.onDlink l (DispatchLink.enqueue r)).pump

/-! ## Reports of carriers -/

/-- A report of a registered carrier with this record passes every test of acceptance: outside CONFIG, with a new
sequence, and from MISSING, or within the acceptance window from IDLE, AUTHORIZED or EMERGENCY (R55, R56, R67, R123). -/
structure State.Accepts (s : State) (a : ReportArgs) (x : Carrier) : Prop where
  mode : s.mode ≠ .config
  registered : s.carrier? a.carrier = some x
  new : x.lastSeq ≠ some a.seq
  timely : x.state = .missing ∨ ((x.state = .idle ∨ x.state = .authorized ∨ x.state = .emergency) ∧
    ∀ n, x.timer = some n → n ≤ x.applied.period * x.applied.window / 100)
  sorted : s.segs.Sorted

/-- The record of a carrier whose report is accepted, before it is handled by state: the fields of the report, the values
of its class and a fresh period (R58). -/
def Carrier.reported (x : Carrier) (v : ClassVals) (p : Report) (now : Time) : Carrier :=
  { x with
    applied := v, timer := some v.period, lastSeq := some p.seq, front := p.front, frontRem := p.frontRem
    rear := p.rear, speed := p.speed, flags := p.flags, lastTime := some now, earlyRun := false }

/-- The learning table once a radio link has heard a carrier (R125). -/
def State.heard (s : State) (c r : Nat) : Table LearnEntry :=
  s.learning.put c ⟨r, s.now, s.now + BitVec.ofNat 32 (1000 * s.cfg.aging)⟩

/-- The INTRUSION entries of a deviating report, front first: one for each reported segment inside the grid that the
carrier does not hold and that belongs to another party (R64). -/
def State.intrusions (s : State) (c : Nat) (ground : List Nat) : List Notif :=
  (ground.filter (fun i => decide (i < s.grid.lanes * s.grid.bays) && !(s.seg i).heldBy (.carrier c))).filterMap
    (fun i => ((s.seg i).otherParty c).map
      (fun q => ⟨.intrusion, s.now, .segment i, partyVals (some (.carrier c)) ++ partyVals (some q)⟩))

/-- The record of a carrier that is asked into EMERGENCY (R69). -/
def Carrier.asked (x : Carrier) (cause : EmergencyCause) : Carrier :=
  match x.state with
  | .idle => { x with state := .emergency, cause := some cause }
  | .authorized => { x with state := .emergency, cause := some cause }
  | .missing => { x with prior := some .emergency, cause := some cause }
  | .emergency => x
  | .lost => x
  | .offline => x
  | .away => x

/-- The entries that a request for entry to EMERGENCY posts for a carrier, by its state (R36, R53, R69): CARRIER_STATE
with the cause and, for a hoist lock, the reasons being added, and PENDING_STALE for the pending entry of a carrier that
leaves IDLE. -/
def State.askEntries (s : State) (cause : EmergencyCause) (lock : Option Reasons) (c : Nat) : List Notif :=
  match s.carrier? c with
  | none => []
  | some r =>
    let entry : Nat → Nat → Notif := fun old new =>
      ⟨.carrierState, s.now, .carrier c, [.byte old, .byte new, .byte cause.code] ++
        (lock.map (fun q => Val.byte q.code)).toList⟩
    match r.state with
    | .idle => entry 2 4 :: (s.entry? c).toList.map (fun e => ⟨.pendingStale, s.now, .carrier c, [.half e.tag, .byte 0]⟩)
    | .authorized => [entry 3 4]
    | .emergency => [entry 4 4]
    | .missing => [entry 5 5]
    | .offline => []
    | .away => []
    | .lost => []

/-- The entries that precede lock reasons on some segments (R41): those of each AUTHORIZED carrier that holds one of
them, once each, in the order of the segments. -/
def State.lockEntries (s : State) (reasons : Reasons) (cells : List Nat) : List Notif :=
  (((cells.filterMap (fun i => match (s.seg i).hold with
    | .held (.carrier c) _ => some c
    | _ => none)).eraseDups).filter (fun c => s.carrierIs c .authorized)).flatMap
      (s.askEntries .hoistViolation (some reasons))

/-! ## Legs of cranes -/

/-- The leg cells of a crane at a bay, waterside first (R97). -/
def State.legsAt (s : State) (k b : Nat) : List Nat :=
  [(s.craneCfg k).waterside * s.grid.bays + b, (s.craneCfg k).landside * s.grid.bays + b]

/-- The leg cells of a crane at every bay from one to another, in the order of travel. -/
def State.legsFrom (s : State) (k g b : Nat) : List Nat :=
  (if g ≤ b then (List.range (b - g + 1)).map (fun i => g + i) else (List.range (g - b + 1)).map (fun i => g - i)).flatMap
    (s.legsAt k)

/-- The cells among some that another party than the crane holds, HELD or FROZEN. -/
def State.foreign (s : State) (k : Nat) (cells : List Nat) : List Nat :=
  cells.filter (fun i => !((s.seg i).isFree || (s.seg i).heldBy (.crane k)))

/-- What a halt take of some cells makes of the part (R42, R69, R99, R111): each FREE cell is a leg of the crane, each
cell of another party gets the crane as intruder unless it has one; each carrier that holds such a cell is asked into
EMERGENCY, an IDLE one loses its pending entry; and the entries of these carriers are posted in the order of their cells,
once each, before an INTRUSION for each such cell. -/
structure State.HaltTaken (s t : State) (k : Nat) (cells : List Nat) : Prop where
  rest : t = { s with segs := t.segs, waiting := t.waiting, carriers := t.carriers, dispatch := t.dispatch }
  segs : ∀ i, t.seg i =
    if i ∈ cells ∧ (s.seg i).hold = .free then { s.seg i with hold := .held (.crane k) .leg }
    else if i ∈ s.foreign k cells ∧ (s.seg i).intruder = none then { s.seg i with intruder := some (.crane k) }
    else s.seg i
  carriers : ∀ q, t.carrier? q = (s.carrier? q).map (fun r =>
    if (s.foreign k cells).any (fun i => decide ((s.seg i).holder = some (.carrier q))) then r.asked .gantryViolation
    else r)
  waiting : t.waiting = s.waiting.filter (fun e => !(s.carrierIs e.carrier .idle &&
    (s.foreign k cells).any (fun i => decide ((s.seg i).holder = some (.carrier e.carrier)))))
  dispatch : ∀ m, t.dlink m = (s.dlink m).offers s.now
    ((((s.foreign k cells).filterMap (fun i => match (s.seg i).holder with
        | some (.carrier c) => some c
        | _ => none)).eraseDups).flatMap (s.askEntries .gantryViolation none) ++
      (s.foreign k cells).map (fun i =>
        ⟨.intrusion, s.now, .segment i, partyVals (some (.crane k)) ++ partyVals (s.seg i).holder⟩))

/-! ## Commands that arrive on a crane link -/

/-- Fewer than 16 replies wait on a crane link (R108). -/
abbrev State.craneRoom (s : State) (k : Nat) : Prop := (s.craneLink k).replies < Config.replyCapacity

/-- The part once the reply to a crane has joined its queue and the transmitters have looked for a frame (R108). -/
def State.craneAnswered (s : State) (k : Nat) (r : Reply) : State := (s.craneSend k (.reply r)).pump

end Sys2Proof.Machine
end

