-- ==== Sys2Proof/Certificates/Slice0/Obligations.lean ====
section
/-! DEFINITION. The statements for the provers, rule by rule of the manual. In every statement about a request on a
dispatch link, the part as the owner finds it is `s.taken l`, which O5 describes, and the reply joins by
`State.answered`, which O6 describes; so no statement shuts out a link that is DOWN. -/

open Sys2Proof Sys2Proof.Machine

/-! ## The step, reset and the links -/

/-- A step takes the command at the front of the queue and runs it on the part with the queue's rest. -/
def Obligations.StepTakesFrontCommand : Prop :=
  ∀ (c : Instr) (rest : List Instr) (s : State),
    step { s with pending := c :: rest } = exec c { s with pending := rest }

/-- On an empty queue one ms passes (R163; that it passes then is the model's choice, log entries 1 and 2): part time
and every running timer move on by one, nothing else changes, and exactly the events then due join the queue: each of
the part's own events stands in it exactly when it is due, and nothing else does. -/
def Obligations.EmptyQueuePassesOneMillisecond : Prop :=
  ∀ s : State, s.pending = [] → ∃ t, step s = .next t ∧
    t.now = s.now + 1 ∧
    (∀ c, t.carrier? c = (s.carrier? c).map (fun r => { r with timer := r.timer.map (· - 1) })) ∧
    (∀ k, t.crane k = { s.crane k with timer := (s.crane k).timer.map (· - 1) }) ∧
    (∀ r, t.radio r = { s.radio r with timer := (s.radio r).timer.map (· - 1) }) ∧
    (∀ l, t.dlink l = { s.dlink l with timer := (s.dlink l).timer.map (· - 1) }) ∧
    t = { s with now := s.now + 1, pending := t.pending, carriers := t.carriers, cranes := t.cranes,
                 radios := t.radios, dispatch := t.dispatch,
                 cycle := { s.cycle with timer := s.cycle.timer.map (· - 1) } } ∧
    (∀ l, Instr.dispatchLinkTimeout l ∈ t.pending ↔ (t.dlink l).up = true ∧ (t.dlink l).timer = some 0) ∧
    (∀ r, Instr.radioLinkTimeout r ∈ t.pending ↔ (t.radio r).timer = some 0) ∧
    (∀ k, Instr.craneLinkDown k ∈ t.pending ↔ (t.crane k).timer = some 0) ∧
    (∀ c, Instr.supervisionTimerExpiry c ∈ t.pending ↔
      ∃ r, (c, r) ∈ t.carriers.rows ∧ r.timer = some 0 ∧ r.state ≠ .missing) ∧
    (∀ c, Instr.graceExpiry c ∈ t.pending ↔
      ∃ r, (c, r) ∈ t.carriers.rows ∧ r.timer = some 0 ∧ r.state = .missing) ∧
    (∀ c, Instr.pendingExpired c ∈ t.pending ↔
      ∃ e ∈ t.waiting, e.carrier = c ∧ elapsed t.now e.arrival ≥ elapsed e.expiry e.arrival) ∧
    (∀ c, Instr.learningEntryExpiry c ∈ t.pending ↔
      ∃ e, (c, e) ∈ t.learning.rows ∧ elapsed t.now e.set ≥ elapsed e.expiry e.set) ∧
    (∀ k, Instr.claimLapsed k ∈ t.pending ↔ ∃ m, (t.crane k).claim = some m ∧ m.void = false ∧ m.phase ≠ .inUse ∧
      elapsed t.now m.start ≥ m.window) ∧
    (Instr.flushVisit ∈ t.pending ↔ ∃ f, t.flush = some f ∧ elapsed t.now f.start ≥ f.next + 1) ∧
    (Instr.periodTimerExpiry ∈ t.pending ↔ t.cycle.timer = some 0) ∧
    ((∃ d, Instr.saveWriteCompletion d ∈ t.pending) ↔ ∃ v, t.save = some v ∧ elapsed t.now v.accepted ≥ 1500) ∧
    (∀ i ∈ t.pending, (∃ l, i = .dispatchLinkTimeout l) ∨ (∃ r, i = .radioLinkTimeout r) ∨ (∃ k, i = .craneLinkDown k) ∨
      (∃ c, i = .supervisionTimerExpiry c) ∨ (∃ c, i = .graceExpiry c) ∨ (∃ c, i = .pendingExpired c) ∨
      (∃ c, i = .learningEntryExpiry c) ∨ (∃ k, i = .claimLapsed k) ∨ i = .flushVisit ∨ i = .periodTimerExpiry ∨
      ∃ d, i = .saveWriteCompletion d)

/-- The part right after reset without a valid image (R15, R20, R52, R96, R118, R132, R136, R145, R155, R162, R163,
R164): CONFIG mode at part time 0, one free segment of the default record, nothing waiting, every link DOWN with its
timer stopped, no carrier, every crane OFFLINE and absent, and dispatch loss in force. That no image is valid at first
power-up is the model's choice (log entry 4). -/
def Obligations.ResetLeavesDefaults : Prop :=
  State.reset.mode = .config ∧ State.reset.now = 0 ∧ State.reset.recoveryStart = none ∧
    State.reset.save = none ∧ State.reset.image.valid = false ∧
    State.reset.grid.lanes = 1 ∧ State.reset.grid.bays = 1 ∧
    State.reset.grid.record 0 = ⟨false, .lane, 1000, 300, false, false, false⟩ ∧
    State.reset.seg 0 = ⟨.free, Table.empty, ⟨false, false, false⟩, none⟩ ∧
    State.reset.waiting = [] ∧ State.reset.routes = Table.empty ∧ State.reset.versions = Table.empty ∧
    State.reset.carriers = Table.empty ∧ State.reset.learning = Table.empty ∧ State.reset.flush = none ∧
    State.reset.lossSince = some 0 ∧ State.reset.dlcClosed = true ∧ State.reset.rlcClosed = true ∧
    State.reset.dtimeout .a = 1000 ∧ State.reset.dtimeout .b = 1000 ∧ State.reset.cfg.aging = 4 ∧
    State.reset.cfg.recoveryTime = 10 ∧ State.reset.cycle = ⟨none, 0, false, 0, 0, 0, 0, none, 0, 0⟩ ∧
    (∀ l, (State.reset.dlink l).up = false ∧ (State.reset.dlink l).timer = none ∧
      (State.reset.dlink l).replies = [] ∧ (State.reset.dlink l).tx = .idle ∧ (State.reset.dlink l).notifs = [] ∧
      (State.reset.dlink l).dropCount = 0 ∧ (State.reset.dlink l).firstDrop = none) ∧
    (∀ r : Fin 4, (State.reset.radio r).state = .down ∧ (State.reset.radio r).timer = none ∧
      (State.reset.radio r).urgent = [] ∧ (State.reset.radio r).normal = [] ∧
      (State.reset.radioCfg r) = ⟨true, 300⟩) ∧
    (∀ k : Fin 8, (State.reset.crane k).state = .offline ∧ (State.reset.crane k).claim = none ∧
      (State.reset.crane k).filtered = .unknown ∧ (State.reset.crane k).timer = none ∧
      (State.reset.craneCfg k).present = false ∧ (State.reset.craneLink k).queue = [])

/-- RESET loads the image when it is valid, and then starts in RECOVERY exactly when the validation passes; a valid
image whose validation fails keeps what was loaded and starts in CONFIG, and without a valid image every block takes its
defaults in CONFIG (R15, R168). Segments are FREE but for the closures in force (R20), versions are 0, carriers of the
roster are OFFLINE, links are DOWN or UNCONFIGURED with nothing queued, learned or counted (R132, R155), the cycle is
IDLE (R136), and the image itself is kept. That the queue of waiting commands is kept is log entry 37.
That the fresh record of a carrier holds the values of its class as applied is log entry 15. -/
def Obligations.ResetStartsFromTheImage : Prop :=
  ∀ s : State, ∃ t, exec .reset s = .next t ∧
    t.cfg = (if s.image.valid then s.image.content else Settings.default) ∧
    t.image = s.image ∧ t.now = 0 ∧ t.save = none ∧ t.waiting = [] ∧ t.flush = none ∧
    t.learning = Table.empty ∧ t.eventSeqs = Table.empty ∧ t.unregistered = 0 ∧ t.unknownTimes = Table.empty ∧
    t.cycle = ⟨none, 0, false, 0, 0, 0, 0, none, 0, 0⟩ ∧ (∀ k, t.craneLink k = CraneLink.fresh) ∧
    t.routes = Table.empty ∧ t.versions = Table.empty ∧ t.pending = s.pending ∧
    (t.rlcClosed = true ↔ ∃ r, r < 4 ∧ (t.radioCfg r).configured = true) ∧
    (t.mode = if s.image.valid = true ∧ s.image.content.validate = none then .recovery else .config) ∧
    (t.recoveryStart = if t.mode = .recovery then some 0 else none) ∧
    (∀ c, t.version c = 0 ∧ t.route? c = none ∧
      t.carrier? c = (t.cfg.roster.get? c).map (fun k => Carrier.fresh (t.classVals k))) ∧
    (∀ k, t.crane k = Crane.fresh 0 0 0) ∧
    (∀ i, t.grid.inside i = true → t.seg i = { SegDyn.fresh with oos := ⟨false, (t.grid.record i).dlc,
      (t.grid.record i).rlc && (List.range 4).any (fun r => (t.radioCfg r).configured)⟩ }) ∧
    (∀ r, r < 4 → t.radio r = RadioLink.fresh (if (t.radioCfg r).configured then .down else .unconfigured)) ∧
    (∀ l, t.dlink l = DispatchLink.fresh) ∧ t.lossSince = some 0 ∧ t.dlcClosed = true

/-- A valid frame on a dispatch link (R144). When the link or its partner is UP, the link is then UP with its timer
loaded, its receiver in HUNT and the frame counted, and nothing else changes. The first one while both links are DOWN
and dispatch loss is in force is the regain (R39, R153): the link is UP, DLC leaves every segment as one request, whose
end O25 says, and DISPATCH_REGAINED with the duration of the loss is offered to both queues after everything that
request has posted; nothing else changes.
That a whole frame leaves the receiver in HUNT is log entry 11. -/
def Obligations.DispatchFrameArrives : Prop :=
  (∀ (s : State) (l : DLink), (s.dlink l).up = true ∨ (s.dlink l.other).up = true →
    s.taken l = s.onDlink l (fun d =>
      { d with up := true, timer := some (s.dtimeout l), rx := Receiver.hunting, good := min (d.good + 1) 65535 })) ∧
  (∀ (s : State) (l : DLink) (since : Time),
    (s.dlink l).up = false → (s.dlink l.other).up = false → s.lossSince = some since →
    ∃ w : Work, State.Closes { s.onDlink l (fun d =>
        { d with up := true, timer := some (s.dtimeout l), rx := Receiver.hunting }) with
          lossSince := none, dlcClosed := false } w ∧
      s.taken l = State.onDlink
        (w.finish.post .dispatchRegained (.link l.key) [.word (s.now - since).toNat]) l
        (fun d => { d with good := min (d.good + 1) 65535 }))

/-- The dispatch transmitter (R147 step 5, R149, R158, R159). Of a link that is UP an IDLE transmitter takes the oldest
reply, and with no reply waiting starts the head notification, which stays in its queue; otherwise it does nothing. A
reply joins its queue at the end before the transmitters look, and nothing else changes. When a transmission completes,
a reply is gone; a notification leaves the head of its queue and, when entries were turned away, a DROPPED entry with
their number and the time of the first joins at the end.
That the transmitters look once, at the end of the step, is read from the worked sequences (log entry 5). -/
def Obligations.DispatchTransmitter : Prop :=
  (∀ (s : State) (l : DLink) (r : Reply), (s.dlink l).up = true →
    (∀ x rest, (s.dlink l).tx = .idle → (s.dlink l).replies ++ [r] = x :: rest →
      (s.answered l r).dlink l = { s.dlink l with tx := .reply x, replies := rest }) ∧
    ((s.dlink l).tx ≠ .idle →
      (s.answered l r).dlink l = { s.dlink l with replies := (s.dlink l).replies ++ [r] }) ∧
    (s.answered l r).dlink l.other = s.pump.dlink l.other ∧
    s.answered l r = { s with dispatch := (s.answered l r).dispatch }) ∧
  (∀ (s : State) (l : DLink) (d : DispatchLink), d = s.dlink l →
    (∀ x rest, d.up = true → d.tx = .idle → d.replies = x :: rest →
      s.pump.dlink l = { d with tx := .reply x, replies := rest }) ∧
    (d.up = true → d.tx = .idle → d.replies = [] → d.notifs ≠ [] → s.pump.dlink l = { d with tx := .notification }) ∧
    (d.up = false ∨ d.tx ≠ .idle ∨ (d.replies = [] ∧ d.notifs = []) → s.pump.dlink l = d) ∧
    s.pump = { s with dispatch := s.pump.dispatch }) ∧
  (∀ (s : State) (l : DLink), ∃ t : State, exec (.dispatchTransmitComplete l) s = .next t.pump ∧
    t.dlink l.other = s.dlink l.other ∧ t = { s with dispatch := t.dispatch } ∧
    (∀ r, (s.dlink l).tx = .reply r → t.dlink l = { s.dlink l with tx := .idle }) ∧
    ((s.dlink l).tx = .notification → (s.dlink l).dropCount = 0 →
      t.dlink l = { s.dlink l with tx := .idle, notifs := (s.dlink l).notifs.drop 1 }) ∧
    ((s.dlink l).tx = .notification → (s.dlink l).dropCount ≠ 0 →
      t.dlink l = { s.dlink l with
        tx := .idle, dropCount := 0, firstDrop := none
        notifs := (s.dlink l).notifs.drop 1 ++
          [⟨.dropped, s.now, .link l.key, [.half (s.dlink l).dropCount, timeVal? (s.dlink l).firstDrop]⟩] }))

/-- Every request of the catalogue gets exactly one reply (R147): with fewer than 16 replies waiting on its link it is
handed to its owner and the owner's reply is queued; with 16 waiting it is discarded, counted as an overrun, and its
owner never sees it. -/
def Obligations.RequestsAreAnsweredOnce : Prop :=
  ∀ (i : Instr) (o : Owner) (l : DLink) (s : State), ownerOf i = some o → i.link = some (.dispatch l) →
    (s.hasRoom l → exec i s = .next ((o (s.taken l)).1.answered l (o (s.taken l)).2)) ∧
    (¬ s.hasRoom l → exec i s = .next (State.pump ((s.dispatchArrival l).onDlink l
      (fun d => { d with overruns := min (d.overruns + 1) 65535 }))))

/-- A request that is refused or answered BUSY changes nothing but by its arrival and its reply (R148): whatever check
of whichever owner turns it away. -/
def Obligations.ARefusalChangesNothing : Prop :=
  ∀ (i : Instr) (o : Owner) (s : State), ownerOf i = some o →
    (o s).2.status = .refused ∨ (o s).2.status = .busy → (o s).1 = s

/-- A frame given by its kind and payload is taken exactly as the command it encodes, on each kind of link (R122, R147,
R171, R175). On a dispatch link, one that encodes none is refused (R147 steps 3 and 4): an unknown kind BAD_KIND, and
counted, a catalogue kind of the wrong length BAD_LENGTH with the length.
That a readable frame runs as its own command is log entry 12. -/
def Obligations.FramesByKindAndPayload : Prop :=
  (∀ (i : Instr) (kind : Nat) (p : List Byte) (s : State), i.WellFormed → encode i = some (kind, p) →
    (∀ l, i.link = some (.dispatch l) → exec (.dispatchFrame l kind p) s = exec i s) ∧
    (∀ r, i.link = some (.radio r) → exec (.radioUnusableFrame r kind p) s = exec i s) ∧
    (∀ k, i.link = some (.crane k) → exec (.craneUnusableFrame k kind p) s = exec i s)) ∧
  (∀ (s u : State) (l : DLink) (kind : Nat) (p : List Byte), u = s.taken l → s.hasRoom l →
    (kind < 0x20 ∨ 0x3F < kind → exec (.dispatchFrame l kind p) s =
      .next ((u.onDlink l (fun d => { d with badKinds := min (d.badKinds + 1) 65535 })).answered l
        ⟨kind, .refused, .badKind, false, [.byte kind]⟩)) ∧
    (0x20 ≤ kind → kind ≤ 0x3F → readRequest l kind p = none →
      exec (.dispatchFrame l kind p) s = .next (u.answered l ⟨kind, .refused, .badLength, false, [.byte p.length]⟩)))

/-- A dispatch link whose timer has reached 0 goes DOWN: its replies and a reply being sent are discarded and counted,
a notification being sent stays in its queue, and its receiver returns to HUNT (R144, R158, R171). While the partner
is UP nothing else changes, of this link or of the part; otherwise dispatch loss begins (R37, R39, R152): every
pending entry goes, notified oldest first as PENDING_DROPPED with cause DISPATCH_LOSS and its tag; DLC closes the
segments marked for it, as one request, whose end O25 says; and DISPATCH_LOST with the number of entries dropped is
offered to both queues last. -/
def Obligations.DispatchLinkTimeout : Prop :=
  ∀ (s q : State) (l : DLink) (d : DispatchLink) (sending : Nat), d = s.dlink l → d.up = true → d.timer = some 0 →
    (∀ r, d.tx = .reply r → sending = 1) → ((∀ r, d.tx ≠ .reply r) → sending = 0) →
    q = s.onDlink l (fun d => { d with
      up := false, timer := none, replies := [], tx := .idle, rx := Receiver.hunting
      discarded := min (d.discarded + d.replies.length + sending) 65535 }) →
    ((s.dlink l.other).up = true → exec (.dispatchLinkTimeout l) s = .next q.pump) ∧
    ((s.dlink l.other).up = false → ∃ (v : State) (w : Work),
      exec (.dispatchLinkTimeout l) s =
        .next (w.finish.post .dispatchLost (.link l.key) [.byte s.waiting.length]).pump ∧
      v.Closes w ∧
      v = { q with waiting := [], lossSince := some s.now, dlcClosed := true, dispatch := v.dispatch } ∧
      ∀ m, v.dlink m = (q.dlink m).offers s.now
        (s.waiting.map (fun e => ⟨.pendingDropped, s.now, .carrier e.carrier, [.byte 2, .half e.tag]⟩)))

/-- HEARTBEAT (R151) changes nothing; SET_DISPATCH (R145) clamps both timeouts to 200 to 5000 ms, in every mode, and
changes no running timer.
The widths of the two timeouts and of the two link values in the replies are log entry 9. -/
def Obligations.HeartbeatAndSetDispatch : Prop :=
  (∀ (s u : State) (l : DLink), u = s.taken l → s.hasRoom l →
    exec (.heartbeat l) s = .next (u.answered l ⟨0x20, .accepted, .none_, false,
      [.byte (match u.mode with | .config => 0 | .recovery => 1 | .active => 2), .word u.now.toNat,
        .byte (if (u.dlink l.other).up then 1 else 0), .byte (if u.save.isSome then 1 else 0)]⟩)) ∧
  (∀ (s u : State) (l : DLink) (a b : Nat), u = s.taken l → s.hasRoom l →
    exec (.setDispatch l a b) s = .next (State.answered
      { u with cfg := { u.cfg with timeoutA := max 200 (min a 5000), timeoutB := max 200 (min b 5000) } } l
      ⟨0x21, .accepted, .none_, decide (¬ (200 ≤ a ∧ a ≤ 5000 ∧ 200 ≤ b ∧ b ≤ 5000)),
        [.half (max 200 (min a 5000)), .half (max 200 (min b 5000))]⟩))

/-- The queries answer from the part as it stands and change nothing: QUERY_GRID (R11), QUERY_LINK of a dispatch link,
a radio link and a crane link with the fields of R131 and R154, QUERY_CARRIER of NONE and of a registered carrier with
the fields of R73 and R78, QUERY_CRANE of NONE and of a crane with those of R116, and QUERY_SEGMENT with those of R46:
lane and bay, the static record (R2), the dynamic record (R17), picture code (R18), pending entries and route.
QUERY_LINK of any other selector is refused BAD_VALUE, QUERY_CARRIER and QUERY_CRANE of an unknown id UNKNOWN_CARRIER
and UNKNOWN_CRANE; that a refusal for which the rule names no detail has an empty one is log entry 35.
The widths of values that no request field carries, and how an absent value is sent, are log entry 9; that the
segments held count those FROZEN log entry 43; how the lock reasons of a slot segment are given log entry 49; that the
id NONE stands as the sweep's next id while no sweep runs log entry 59; that any other value keeps its place when it
is absent log entry 65; and the order of the cranes of a lock log entry 66. -/
def Obligations.QueriesAnswerAndChangeNothing : Prop :=
  (∀ (s u : State) (l : DLink), u = s.taken l → s.hasRoom l →
    exec (.queryGrid l) s = .next (u.answered l (accept 0x25 false
      ([.byte u.grid.lanes, .byte u.grid.bays, .half (u.grid.lanes * u.grid.bays),
        .half ((List.range (u.grid.lanes * u.grid.bays)).filter (fun i => (u.grid.record i).usable)).length,
        .half ((List.range (u.grid.lanes * u.grid.bays)).filter (fun i =>
          (u.grid.record i).usable && decide ((u.grid.record i).kind = .gate))).length]
        ++ resultVals u.cfg.validate))) ∧
    (∀ c, c ≠ 65535 → u.carrier? c = none →
      exec (.queryCarrier l c) s = .next (u.answered l ⟨0x33, .refused, .unknownCarrier, false, []⟩)) ∧
    (∀ k, k ≠ 65535 → 8 ≤ k →
      exec (.queryCrane l k) s = .next (u.answered l ⟨0x36, .refused, .unknownCrane, false, []⟩)) ∧
    (∀ sel, 14 ≤ sel → exec (.queryLink l sel) s = .next (u.answered l ⟨0x22, .refused, .badValue, false, []⟩)) ∧
    (∀ (m : DLink) (d : DispatchLink), d = u.dlink m →
      exec (.queryLink l m.key) s = .next (u.answered l (accept 0x22 false
        [.byte (if d.up then 1 else 0), .half (u.dtimeout m), timerVal? d.timer, .byte (if d.tx = .idle then 0 else 1),
          .byte d.replies.length, .byte d.notifs.length, .half d.dropCount, .byte (if u.lossSince = none then 0 else 1),
          .half d.good, .half d.crcErrors, .half d.badKinds, .half d.overruns, .half d.discarded]))) ∧
    (∀ (r : Nat) (x : RadioLink), r < 4 → x = u.radio r →
      exec (.queryLink l (r + 2)) s = .next (u.answered l (accept 0x22 false
        [.half x.good, .half x.crcErrors, .half x.duplicates, .half x.unusable,
          .byte (if (u.radioCfg r).configured then 1 else 0), .half (u.radioCfg r).timeout,
          .byte (match x.state with | .down => 0 | .up => 1 | .unconfigured => 2), timerVal? x.timer,
          .byte (if x.sending = none then 0 else 1), .byte x.urgent.length, .byte x.normal.length,
          .byte (u.learning.rows.filter (fun e => decide (e.2.link = r))).length, .byte u.cfg.aging,
          .byte u.learning.rows.length, .half ((u.flush.map (fun f => f.next)).getD 65535)]))) ∧
    (∀ k, k < 8 → exec (.queryLink l (k + 6)) s = .next (u.answered l (accept 0x22 false
      [.byte (if (u.craneCfg k).present then 1 else 0), .byte (u.crane k).state.code, timerVal? (u.crane k).timer,
        .half (u.crane k).frames, .half (u.craneLink k).crcErrors, .half (u.craneLink k).unusable]))) ∧
    exec (.queryCarrier l 65535) s = .next (u.answered l (accept 0x33 false
      ([.byte u.carriers.rows.length] ++
        [CarrierState.offline, .away, .idle, .authorized, .emergency, .missing, .lost].map (fun st =>
          .byte (u.carriers.rows.filter (fun x => decide (x.2.state = st))).length) ++ [.half u.unregistered]))) ∧
    exec (.queryCrane l 65535) s = .next (u.answered l (accept 0x36 false
      ([CraneState.offline, .standing, .travelling, .halted, .linkLost].map (fun st =>
        .byte ((List.range 8).filter (fun k => (u.craneCfg k).present &&
          decide ((u.crane k).state = st))).length))))) ∧
  (∀ (s u : State) (l : DLink) (c : Nat) (x : Carrier) (held : List Nat) (place : Option Nat), u = s.taken l →
    s.hasRoom l → u.segs.Sorted → u.carrier? c = some x → c ≠ 65535 →
    (∀ i, i ∈ held ↔ (u.seg i).holder = some (.carrier c)) → held.Nodup →
    (∀ before e after, u.waiting = before ++ e :: after → e.carrier = c → (∀ y ∈ before, y.carrier ≠ c) →
      place = some (before.length + 1)) →
    ((∀ y ∈ u.waiting, y.carrier ≠ c) → place = none) →
    exec (.queryCarrier l c) s = .next (u.answered l (accept 0x33 false
      ([.byte (u.classOf c), .half x.applied.maxSpeed, .half x.applied.decel, .half x.applied.margin,
          .half x.applied.latency, .half x.applied.period, .byte x.applied.window, .half x.applied.grace,
          .byte x.applied.early.code, .byte x.applied.overTol, .byte x.applied.stopTol,
          .byte x.state.code, .byte ((x.prior.map (fun p => p.code)).getD 255), byteVal? (x.cause.map (fun q => q.code)),
          byteVal? x.lastSeq, timerVal? x.timer, timeVal? x.lastTime,
          .half (x.front.getD 65535), .half x.frontRem, .half (x.rear.getD 65535), .half x.speed, .byte x.flags.code,
          timeVal? x.lostSince]
        ++ (match x.sighting with
          | some g => [.half (g.front.getD 65535), .half g.frontRem, .half (g.rear.getD 65535), .half g.speed,
              .byte g.flags.code, .word g.time.toNat]
          | none => [.half 65535, .absent 2, .half 65535, .absent 2, .absent 1, .absent 4])
        ++ [.half x.earlyCount]
        ++ (match x.note with
          | some n => [.byte n.reason.code, .half (n.segment.getD 65535)]
          | none => [.absent 1, .half 65535])
        ++ [.byte held.length, byteVal? ((u.route? c).map (fun t => t.version)),
          byteVal? ((u.route? c).map (fun t => t.list.length)), byteVal? place,
          byteVal? (x.auth.command.map (fun q => q.code)), .half (x.auth.endSeg.getD 65535), .half x.auth.endOff,
          (match x.auth.endPos with | some p => .word p | none => .absent 4), .half x.auth.lastCap,
          .half x.auth.checkCap, halfVal? (x.auth.pendingCap.map (fun p => p.cap)),
          timeVal? (x.auth.pendingCap.map (fun p => p.effective)), .half x.auth.overspeeds])))) ∧
  (∀ (s u : State) (l : DLink) (k : Nat) (g : CraneConfig) (c : Crane), u = s.taken l → s.hasRoom l → k < 8 →
    g = u.craneCfg k → c = u.crane k →
    exec (.queryCrane l k) s = .next (u.answered l (accept 0x36 false
      ([.byte (if g.present then 1 else 0), .byte g.slotLanes.length] ++ g.slotLanes.map Val.byte ++
        [.byte g.waterside, .byte g.landside, .byte g.enable.toNat, .half g.clearance, .half g.ceiling, .byte g.filter,
          .byte g.window, .byte g.fault.code, .byte g.crossing.code, .half g.timeout,
          .byte c.state.code, byteVal? (c.before.map (fun b => b.code)), byteVal? c.bay, byteVal? c.target,
          .byte g.slotLanes.length]
        ++ g.slotLanes.flatMap (fun lane => match c.bay with
          | some b => [.half (lane * u.grid.bays + b), .byte (u.seg (lane * u.grid.bays + b)).picture.code,
              .byte (u.seg (lane * u.grid.bays + b)).lock.rows.length] ++
              (u.seg (lane * u.grid.bays + b)).lock.rows.flatMap (fun q => [.half q.1, .byte q.2.code])
          | none => [.half 65535, .absent 1, .absent 1])
        ++ [byteVal? c.lastSeq, .byte (c.trolley.getD 255), .half c.height, .byte c.flags.code,
          .byte ((c.candidate.map (fun h => h.code)).getD 255), .byte c.count, .byte c.filtered.code]
        ++ (match c.claim with
          | some m => [.byte m.slot, .byte m.phase.code, .word m.start.toNat,
              if m.void = true ∨ m.phase = .inUse then .absent 4
              else .word (m.start + BitVec.ofNat 32 m.window).toNat, .byte (if m.void then 1 else 0)]
          | none => [.absent 1, .absent 1, .absent 4, .absent 4, .absent 1])
        ++ [.byte (if c.episode then 1 else 0), .byte c.faultRun, timerVal? c.timer, .half c.frames, .half c.repeats,
          .half c.implausible])))) ∧
  (∀ (s u : State) (l : DLink) (i : Nat), u = s.taken l → s.hasRoom l →
    (u.grid.lanes * u.grid.bays ≤ i →
      exec (.querySegment l i) s = .next (u.answered l ⟨0x2C, .refused, .badSegment, false, []⟩)) ∧
    (i < u.grid.lanes * u.grid.bays → ∀ (x : SegStatic) (y : SegDyn) (party : Option Party → List Val)
        (extra : List Val), x = u.grid.record i → y = u.seg i →
      party none = [.byte 0, .half 65535] → (∀ c, party (some (.carrier c)) = [.byte 1, .half c]) →
      (∀ k, party (some (.crane k)) = [.byte 2, .half k]) →
      ((∀ c r, (u.seg i).holder = some (.carrier c) → u.route? c = some r → extra =
          [byteVal? (r.list.findIdx? (fun x => decide (x = i))), .byte r.version, .half r.tag, .byte r.origin.key]) ∧
        ((∀ c, (u.seg i).holder = some (.carrier c) → u.route? c = none) → extra = [])) →
      exec (.querySegment l i) s = .next (u.answered l ⟨0x2C, .accepted, .none_, false,
        [.byte (i / u.grid.bays), .byte (i - u.grid.bays * (i / u.grid.bays)),
          .byte (if x.usable then 1 else 0), .byte (match x.kind with | .lane => 0 | .gate => 1), .half x.length,
          .half x.limit, .byte (if x.crossNext then 1 else 0),
          .byte ((if x.dlc then 1 else 0) + (if x.rlc then 2 else 0))]
        ++ (match y.hold with
          | .free => [.byte 0] ++ party none ++ [.absent 1]
          | .held p k => [.byte 1] ++ party (some p) ++
              [.byte (match k with | .route => 0 | .standing => 1 | .leg => 2 | .travel => 3)]
          | .frozen p k => [.byte 2] ++ party (some p) ++
              [.byte (match k with | .route => 0 | .standing => 1 | .leg => 2 | .travel => 3)])
        ++ [.byte y.lock.rows.length] ++ y.lock.rows.flatMap (fun q => [.half q.1,
          .byte ((if q.2.claim then 1 else 0) + (if q.2.violation then 2 else 0) + (if q.2.fault then 4 else 0) +
            (if q.2.link then 8 else 0))])
        ++ [.byte ((if y.oos.block then 1 else 0) + (if y.oos.dlc then 2 else 0) + (if y.oos.rlc then 4 else 0))]
        ++ party y.intruder ++ [.byte y.picture.code,
          .byte (u.waiting.filter (fun e => decide (e.lastBlock = i))).length] ++ extra⟩)))

/-- Reading a frame undoes writing it (R172, R174, R175): for every command that a far end sends as a frame of a named
kind, every operand at every value its field can hold, the frame's kind and payload read on its link as that command. -/
def Obligations.FramesDecodeToTheirCommand : Prop :=
  ∀ (i : Instr) (link : Link) (kind : Nat) (p : List Byte), i.WellFormed → encode i = some (kind, p) →
    i.link = some link → (∀ l k q, i ≠ .dispatchFrame l k q) → (∀ r k q, i ≠ .radioUnusableFrame r k q) →
    (∀ c k q, i ≠ .craneUnusableFrame c k q) → decodeFrame link kind p = .command i

/-! ## The grid -/

/-- Adjacency (R4): two usable segments of one lane in neighbouring bays, or of one bay in neighbouring lanes where the
lower lane's record has cross-next; it is symmetric, an id outside the grid has no neighbour, and no segment has more
than four. -/
def Obligations.AdjacentSegments : Prop :=
  ∀ g : Grid,
    (∀ l b m d, l < g.lanes → b < g.bays → m < g.lanes → d < g.bays →
      (g.adjacent (l * g.bays + b) (m * g.bays + d) = true ↔
        (g.record (l * g.bays + b)).usable = true ∧ (g.record (m * g.bays + d)).usable = true ∧
          ((l = m ∧ (d = b + 1 ∨ b = d + 1)) ∨
            (b = d ∧ m = l + 1 ∧ (g.record (l * g.bays + b)).crossNext = true) ∨
            (b = d ∧ l = m + 1 ∧ (g.record (m * g.bays + d)).crossNext = true)))) ∧
    (∀ i j, g.adjacent i j = g.adjacent j i) ∧
    (∀ i j, g.lanes * g.bays ≤ j → g.adjacent i j = false) ∧
    (∀ i, ((List.range (g.lanes * g.bays)).filter (g.adjacent i)).length ≤ 4)

/-- SET_GRID (R6, R7): refused BAD_MODE outside CONFIG; in CONFIG the effective dimensions replace the grid, every
static record takes its default and every dynamic record its reset value, no route and no pending entry is left, and
the versions and everything else stand. The width of the cell count in the reply is log entry 9. -/
def Obligations.SetGrid : Prop :=
  ∀ (s u : State) (l : DLink) (lanes bays : Nat), u = s.taken l → s.hasRoom l →
    (u.mode ≠ .config → exec (.setGrid l lanes bays) s = .next (u.answered l ⟨0x23, .refused, .badMode, false, []⟩)) ∧
    (u.mode = .config → ∀ x y, x = max 1 (min lanes 16) →
      y = (if x * max 1 (min bays 64) > 512 then 512 / x else max 1 (min bays 64)) →
      ∃ t : State,
        exec (.setGrid l lanes bays) s = .next (t.answered l
          ⟨0x23, .accepted, .none_, decide (x ≠ lanes ∨ y ≠ bays), [.byte x, .byte y, .half (x * y)]⟩) ∧
        x * y ≤ 512 ∧ t.grid.lanes = x ∧ t.grid.bays = y ∧
        (∀ i, t.grid.record i = ⟨false, .lane, 1000, 300, false, false, false⟩) ∧
        (∀ i, t.seg i = ⟨.free, Table.empty, ⟨false, false, false⟩, none⟩) ∧
        t.segs.keys = List.range (x * y) ∧
        t = { u with cfg := { u.cfg with grid := t.cfg.grid }, segs := t.segs, routes := Table.empty, waiting := [] })

/-- SET_SEGMENT (R8, R9): the first check that fails refuses it; otherwise the effective record is written into the run
of ids, each of these takes DLC and RLC exactly where the closure is in force and the new closure set names it, and
everything else stands until the end of the request (O25).
Which of several bad fields BAD_VALUE names is log entry 38. -/
def Obligations.SetSegment : Prop :=
  ∀ (s u : State) (l : DLink) (a : SegmentArgs), u = s.taken l → s.hasRoom l →
    (∀ why detail, FirstFails [
        (.badMode, fun d => u.mode ≠ .config ∧ d = []),
        (.badSegment, fun d => u.grid.lanes * u.grid.bays ≤ a.first ∧ d = [.half a.first]),
        (.badValue, fun d => 2 ≤ a.usable ∧ d = [.field 2]), (.badValue, fun d => 2 ≤ a.kind ∧ d = [.field 3]),
        (.badValue, fun d => 2 ≤ a.crossNext ∧ d = [.field 6]),
        (.badValue, fun d => 4 ≤ a.closure ∧ d = [.field 7])] why detail →
      exec (.setSegment l a) s = .next (u.answered l ⟨0x24, .refused, why, false, detail⟩)) ∧
    (u.mode = .config → a.first < u.grid.lanes * u.grid.bays → a.usable ≤ 1 → a.kind ≤ 1 → a.crossNext ≤ 1 →
      a.closure ≤ 3 → ∀ n len lim, n = min (max 1 (min a.count 64)) (u.grid.lanes * u.grid.bays - a.first) →
      len = max 100 (min a.length 5000) → lim = max 50 (min a.limit 800) →
      ∃ w : Work,
        exec (.setSegment l a) s = .next (w.finish.answered l ⟨0x24, .accepted, .none_,
          decide (n ≠ a.count ∨ len ≠ a.length ∨ lim ≠ a.limit), [.byte n, .half len, .half lim]⟩) ∧
        (Work.start u none).Grown w (fun _ => False) ∧ (Work.start u none).Calls w ∧
        w.s = { u with
          cfg := { u.cfg with grid := { u.cfg.grid with cells := w.s.cfg.grid.cells } }, segs := w.s.segs } ∧
        (∀ i, w.s.grid.record i = if a.first ≤ i ∧ i < a.first + n then
            ⟨decide (a.usable = 1), (if a.kind = 1 then .gate else .lane), len, lim, decide (a.crossNext = 1),
              decide (a.closure % 2 = 1), decide (2 ≤ a.closure)⟩
          else u.grid.record i) ∧
        (∀ i, w.s.seg i = if a.first ≤ i ∧ i < a.first + n then
            { u.seg i with oos := ⟨(u.seg i).oos.block, u.dlcClosed && decide (a.closure % 2 = 1),
              u.rlcClosed && decide (2 ≤ a.closure)⟩ }
          else u.seg i))

/-- The validation (R12 to R14) passes exactly when some segment of the grid is usable, every usable GATE lies on an
edge, and every present crane has its leg lanes inside the grid and in order, its slot lanes strictly between them and
without repeats, and the leg lanes of every other present crane. Otherwise its result is the first item that fails, in
the order of R13 and then, of the lowest present crane that has a failing item, in the order of R14, with the subject
and the index that the tables give. As values a result is the item code (R172), the subject, NONE where there is none,
and the index; PASS is its code alone. -/
def Obligations.ValidationFindsTheFirstFailure : Prop :=
  (∀ c : Settings, c.validate = none ↔
    (∃ i, i < c.grid.lanes * c.grid.bays ∧ (c.grid.record i).usable = true) ∧
    (∀ l b, l < c.grid.lanes → b < c.grid.bays → (c.grid.record (l * c.grid.bays + b)).usable = true →
      (c.grid.record (l * c.grid.bays + b)).kind = .gate →
      l = 0 ∨ l + 1 = c.grid.lanes ∨ b = 0 ∨ b + 1 = c.grid.bays) ∧
    (∀ k, k < 8 → ∀ x, x = c.cranes.get k CraneConfig.default → x.present = true →
      x.waterside < x.landside ∧ x.landside < c.grid.lanes ∧
        (∀ lane ∈ x.slotLanes, x.waterside < lane ∧ lane < x.landside) ∧ x.slotLanes.Nodup ∧
        (∀ j, j < 8 → ∀ y, y = c.cranes.get j CraneConfig.default → y.present = true →
          y.waterside = x.waterside ∧ y.landside = x.landside))) ∧
  (∀ (c : Settings) (usable gate : Prop) (inner : Nat → Prop) (crane : Nat → CraneConfig)
      (fails : Nat → ValidationItem → Nat → Prop),
    (usable ↔ ∃ i, i < c.grid.lanes * c.grid.bays ∧ (c.grid.record i).usable = true) →
    (∀ i, inner i ↔ ∃ l b, i = l * c.grid.bays + b ∧ l < c.grid.lanes ∧ b < c.grid.bays ∧
      (c.grid.record i).usable = true ∧ (c.grid.record i).kind = .gate ∧
      0 < l ∧ l + 1 < c.grid.lanes ∧ 0 < b ∧ b + 1 < c.grid.bays) →
    (gate ↔ ∃ i, inner i) → (∀ k, crane k = c.cranes.get k CraneConfig.default) →
    (∀ k item index, fails k item index ↔ k < 8 ∧ (crane k).present = true ∧ FirstFails [
      (.legLaneOutside, fun n => c.grid.lanes ≤ (crane k).waterside ∧ n = 0),
      (.legLaneOutside, fun n => c.grid.lanes ≤ (crane k).landside ∧ n = 1),
      (.legLanesOrder, fun n => (crane k).landside ≤ (crane k).waterside ∧ n = 255),
      (.slotOutsideLegs, fun n => ∃ pre lane post, (crane k).slotLanes = pre ++ lane :: post ∧
        (∀ x ∈ pre, (crane k).waterside < x ∧ x < (crane k).landside) ∧
        ¬ ((crane k).waterside < lane ∧ lane < (crane k).landside) ∧ n = pre.length),
      (.slotLaneRepeated, fun n => ∃ pre lane post, (crane k).slotLanes = pre ++ lane :: post ∧ pre.Nodup ∧
        lane ∈ pre ∧ n = pre.length),
      (.legLanesDiffer, fun n => ∃ j, j < 8 ∧ (crane j).present = true ∧
        (∀ i, i < j → (crane i).present = false) ∧
        ¬ ((crane k).waterside = (crane j).waterside ∧ (crane k).landside = (crane j).landside) ∧ n = 255)]
      item index) →
    (¬ usable → c.validate = some ⟨.noUsableSegment, none, 255⟩) ∧
    (∀ i, usable → inner i → (∀ j, j < i → ¬ inner j) → c.validate = some ⟨.gateNotOnEdge, some i, 255⟩) ∧
    (∀ k item index, usable → ¬ gate → fails k item index → (∀ j x n, j < k → ¬ fails j x n) →
      c.validate = some ⟨item, some k, index⟩)) ∧
  resultVals none = [.byte 0] ∧
  (∀ (item : ValidationItem) (subject : Option Nat) (index : Nat),
    resultVals (some ⟨item, subject, index⟩) = [.byte item.code, .half (subject.getD 65535), .byte index]) ∧
  [ValidationItem.noUsableSegment, .gateNotOnEdge, .legLaneOutside, .legLanesOrder, .slotOutsideLegs,
    .slotLaneRepeated, .legLanesDiffer].map ValidationItem.code = [1, 2, 3, 4, 5, 6, 7]

/-- SEGMENT_BLOCK and SEGMENT_UNBLOCK (R38): refused BAD_MODE in CONFIG; otherwise the rectangle is clamped to the grid,
BLOCK joins or leaves the out-of-service set of each of its segments and of no other, the reply counts the sets that
changed, and an unblock that empties a set calls for re-examination. The width of that count in the reply is log entry
9. -/
def Obligations.SegmentBlockAndUnblock : Prop :=
  ∀ (s u : State) (l : DLink) (rect : Rect) (block : Bool) (i : Instr) (kind : Nat), u = s.taken l → s.hasRoom l →
    i = (if block then Instr.segmentBlock l rect else Instr.segmentUnblock l rect) →
    kind = (if block then 0x2A else 0x2B) →
    (u.mode = .config → exec i s = .next (u.answered l ⟨kind, .refused, .badMode, false, []⟩)) ∧
    (u.mode ≠ .config → 1 ≤ u.grid.lanes → 1 ≤ u.grid.bays → ∀ (q : Rect) (inside : Nat → Bool),
      q.lane = min rect.lane (u.grid.lanes - 1) → q.lanes = max 1 (min rect.lanes (u.grid.lanes - q.lane)) →
      q.bay = min rect.bay (u.grid.bays - 1) → q.bays = max 1 (min rect.bays (u.grid.bays - q.bay)) →
      (∀ j, inside j = (decide (q.lane ≤ j / u.grid.bays) && decide (j / u.grid.bays < q.lane + q.lanes) &&
        decide (q.bay ≤ j % u.grid.bays) && decide (j % u.grid.bays < q.bay + q.bays))) →
      ∃ w : Work,
        exec i s = .next (w.finish.answered l ⟨kind, .accepted, .none_, decide (q ≠ rect),
          [.byte q.lane, .byte q.lanes, .byte q.bay, .byte q.bays,
            .half ((List.range (u.grid.lanes * u.grid.bays)).filter
              (fun j => inside j && decide ((u.seg j).oos.block ≠ block))).length]⟩) ∧
        (Work.start u none).Grown w (fun _ => False) ∧ w.s = { u with segs := w.s.segs } ∧
        (∀ j, w.s.seg j =
          if inside j then { u.seg j with oos := { (u.seg j).oos with block := block } } else u.seg j) ∧
        (w.reexam = true ↔ ∃ j, inside j = true ∧ block = false ∧ (u.seg j).oos = ⟨true, false, false⟩))

/-- The picture code (R18), the obstacles (R19) and the cause for which a segment is not available, in its order (R19),
of a dynamic record. -/
def Obligations.PictureObstacleAndAvailability : Prop :=
  ∀ (r : SegDyn) (c : Nat),
    (r.picture = .closed ↔ r.oos ≠ ⟨false, false, false⟩ ∨ (∃ p k, r.hold = .frozen p k) ∨ r.intruder ≠ none) ∧
    (r.picture = .locked ↔ r.oos = ⟨false, false, false⟩ ∧ (∀ p k, r.hold ≠ .frozen p k) ∧ r.intruder = none ∧
      r.lock.rows ≠ []) ∧
    (r.picture = .held ↔ r.oos = ⟨false, false, false⟩ ∧ (∃ p k, r.hold = .held p k) ∧ r.intruder = none ∧
      r.lock.rows = []) ∧
    (r.picture = .free ↔ r.oos = ⟨false, false, false⟩ ∧ r.hold = .free ∧ r.intruder = none ∧ r.lock.rows = []) ∧
    (r.obstacle c = true ↔ r.oos ≠ ⟨false, false, false⟩ ∨ (∃ p, r.intruder = some p ∧ p ≠ .carrier c) ∨
      r.lock.rows ≠ []) ∧
    (r.blockCause = none ↔ r.hold = .free ∧ r.oos = ⟨false, false, false⟩ ∧ r.lock.rows = [] ∧ r.intruder = none) ∧
    (r.blockCause = some .conflict ↔ r.hold ≠ .free) ∧
    (r.blockCause = some .outOfService ↔ r.hold = .free ∧ r.oos ≠ ⟨false, false, false⟩) ∧
    (r.blockCause = some .locked ↔ r.hold = .free ∧ r.oos = ⟨false, false, false⟩ ∧ r.lock.rows ≠ []) ∧
    (r.blockCause = some .intruded ↔ r.hold = .free ∧ r.oos = ⟨false, false, false⟩ ∧ r.lock.rows = [] ∧
      r.intruder ≠ none)

/-! ## Routes -/

/-- A ROUTE_REQUEST that passes the checks of R24 and finds every segment open is granted whole (R25): the holds, the
record with the rear placed ahead where it differs from the front, the version, the carrier AUTHORIZED, and a pending
entry of the carrier removed as REPLACED. The request concerns the carrier, so its end (O25) sends it an authority
(R25 step 3, R75); nothing else changes before that end.
The order of the two notifications is log entry 8; that every STANDING segment becomes ROUTE, one outside the list
too, is log entry 40; the widths of the version and of the expiry in the reply are log entry 9. -/
def Obligations.RouteRequestGranted : Prop :=
  ∀ (s u : State) (l : DLink) (a : RouteArgs) (r : Carrier) (ahead : List Nat), u = s.taken l → s.hasRoom l →
    u.MayRequest a r → (∀ i ∈ a.ids, u.openTo a.carrier i) →
    ahead = (if r.rear = r.front then [] else r.rear.toList) →
    ∃ w : Work,
      exec (.routeRequest l a) s = .next (w.finish.answered l ⟨0x26, .granted, .none_,
        decide (u.stopOf a ≠ a.stop ∨ expiryOf a ≠ a.expiry),
        [.byte (w.finish.version a.carrier), .byte (ahead.length + a.ids.length), .half (u.stopOf a),
          .half (expiryOf a)]⟩) ∧
      Work.Grown { Work.start u none with bumped := [a.carrier] } w (fun d => d = a.carrier) ∧ w.reexam = false ∧
      w.s.version a.carrier = (u.version a.carrier + 1) % 256 ∧
      w.s.route? a.carrier =
        some ⟨ahead ++ a.ids, u.stopOf a, ahead.length, 0, w.s.version a.carrier, a.tag, l⟩ ∧
      w.s.carrier? a.carrier = some { r with state := .authorized } ∧
      (∀ d, d ≠ a.carrier → w.s.carrier? d = u.carrier? d ∧ w.s.route? d = u.route? d ∧ w.s.version d = u.version d) ∧
      (∀ i, w.s.seg i = if i ∈ a.ids ∨ (u.seg i).hold = .held (.carrier a.carrier) .standing then
          { u.seg i with hold := .held (.carrier a.carrier) .route }
        else u.seg i) ∧
      w.s.waiting = u.waiting.filter (fun e => decide (e.carrier ≠ a.carrier)) ∧
      (∀ m, w.s.dlink m = (u.dlink m).offers u.now
        (⟨.carrierState, u.now, .carrier a.carrier, [.byte 2, .byte 3]⟩ ::
          (u.entry? a.carrier).toList.map (fun e => ⟨.replaced, u.now, .carrier a.carrier, [.half e.tag]⟩))) ∧
      w.s = { u with segs := w.s.segs, routes := w.s.routes, versions := w.s.versions, waiting := w.s.waiting
                     carriers := w.s.carriers, dispatch := w.s.dispatch }

/-- The refusals of ROUTE_REQUEST by R24: the first of checks 1 to 8 that fails refuses it with its reason and detail,
and a locked standing segment refuses one that passes these, with CLAMPED by check 9. One that passes all the checks
of R24 and meets a first segment that is not open (R26) is refused with the cause while its queue flag is clear; with
the flag set it takes the place of the carrier's entry, or joins the list at the end, or is refused QUEUE_FULL.
Nothing else changes.
Where CLAMPED stands and how the details are laid out are log entry 24, the width of the version in a detail log entry
9, which of several locked standing segments is named log entry 25, and the order of the cranes of its lock log entry
66. -/
def Obligations.RouteRequestRefusedOrQueued : Prop :=
  (∀ (s u : State) (l : DLink) (a : RouteArgs) (why : Reason) (detail : List Val), u = s.taken l → s.hasRoom l →
    FirstFails [
      (.badMode, fun d => u.mode ≠ .active ∧ d = [.byte u.mode.code]),
      (.badValue, fun d => 2 ≤ a.queueFlag ∧ d = [.field 2]),
      (.unknownCarrier, fun d => u.carrier? a.carrier = none ∧ d = [.half a.carrier]),
      (.routeActive, fun d => ∃ r, u.carrier? a.carrier = some r ∧ r.state = .authorized ∧
        d = [.byte (u.version a.carrier)]),
      (.badCarrierState, fun d => ∃ r, u.carrier? a.carrier = some r ∧ r.state ≠ .idle ∧ d = [.byte r.state.code]),
      (.notAtStart, fun d => ∃ r, u.carrier? a.carrier = some r ∧ (a.ids = [] ∨ a.ids.head? ≠ r.front) ∧
        d = [.half (r.front.getD 65535)]),
      (.badSegment, fun d => ∃ pre i post, a.ids = pre ++ i :: post ∧ (∀ j ∈ pre, u.grid.usable j = true) ∧
        u.grid.usable i = false ∧ d = [.byte pre.length, .half i]),
      (.notAdjacent, fun d => ∃ k, k + 1 < a.ids.length ∧
        u.grid.adjacent (a.ids.getD k 0) (a.ids.getD (k + 1) 0) = false ∧
        (∀ j, j < k → u.grid.adjacent (a.ids.getD j 0) (a.ids.getD (j + 1) 0) = true) ∧ d = [.byte (k + 1)]),
      (.repeated, fun d => ∃ r pre i post, u.carrier? a.carrier = some r ∧ a.ids = pre ++ i :: post ∧ pre.Nodup ∧
        (∀ b, r.rear = some b → r.rear ≠ r.front → b ∉ pre) ∧
        (i ∈ pre ∨ (r.rear = some i ∧ r.rear ≠ r.front)) ∧ d = [.byte pre.length]),
      (.tooLong, fun d => 24 < a.ids.length ∧ d = [.byte a.ids.length])] why detail →
    exec (.routeRequest l a) s = .next (u.answered l ⟨0x26, .refused, why, false, detail⟩)) ∧
  (∀ (s u : State) (l : DLink) (a : RouteArgs) (r : Carrier) (i : Nat), u = s.taken l → s.hasRoom l →
    u.MayAsk a r → (u.seg i).hold = .held (.carrier a.carrier) .standing → (u.seg i).lock.rows ≠ [] →
    (r.front = some i ∨ ∀ j, (u.seg j).hold = .held (.carrier a.carrier) .standing → (u.seg j).lock.rows ≠ [] →
      r.front ≠ some j ∧ i ≤ j) →
    exec (.routeRequest l a) s = .next (u.answered l ⟨0x26, .refused, .locked,
      decide (u.stopOf a ≠ a.stop ∨ expiryOf a ≠ a.expiry),
      .half i :: .byte (u.seg i).lock.rows.length :: (u.seg i).lock.rows.map (fun x => .half x.1)⟩)) ∧
  (∀ (s u : State) (l : DLink) (a : RouteArgs) (r : Carrier) (pre post : List Nat) (i : Nat) (why : Reason)
      (clamped : Bool) (holder : List Val) (e : PendingEntry), u = s.taken l → s.hasRoom l → u.MayRequest a r →
      a.ids = pre ++ i :: post → (∀ j ∈ pre, u.openTo a.carrier j) →
      (u.seg i).hold ≠ .held (.carrier a.carrier) .standing → (u.seg i).blockCause = some why →
      clamped = decide (u.stopOf a ≠ a.stop ∨ expiryOf a ≠ a.expiry) →
      holder = (if why = .conflict then partyVals (u.seg i).holder else []) →
      e = ⟨a.carrier, a.ids, u.stopOf a, a.tag, l, u.now, u.now + BitVec.ofNat 32 (1000 * expiryOf a), i⟩ →
      (a.queueFlag = 0 →
        exec (.routeRequest l a) s = .next (u.answered l ⟨0x26, .refused, why, clamped, .half i :: holder⟩)) ∧
      (a.queueFlag = 1 → ∀ before old after, u.waiting = before ++ old :: after → old.carrier = a.carrier →
        (∀ x ∈ before, x.carrier ≠ a.carrier) →
        exec (.routeRequest l a) s = .next (State.answered
          (State.post { u with waiting := before ++ e :: after } .replaced (.carrier a.carrier) [.half old.tag]) l
          ⟨0x26, .queued, .none_, clamped, [.byte (before.length + 1), .half i, .byte why.code] ++ holder⟩)) ∧
      (a.queueFlag = 1 → (∀ x ∈ u.waiting, x.carrier ≠ a.carrier) → u.waiting.length < 32 →
        exec (.routeRequest l a) s = .next (State.answered { u with waiting := u.waiting ++ [e] } l
          ⟨0x26, .queued, .none_, clamped, [.byte (u.waiting.length + 1), .half i, .byte why.code] ++ holder⟩)) ∧
      (a.queueFlag = 1 → (∀ x ∈ u.waiting, x.carrier ≠ a.carrier) → 32 ≤ u.waiting.length →
        exec (.routeRequest l a) s = .next (u.answered l ⟨0x26, .refused, .queueFull, clamped, []⟩)))

/-- A ROUTE_EXTEND that passes the checks of R27 and finds every appended segment available lengthens the route whole,
and its end (O25) sends the carrier an authority; nothing else changes before that end. The first check that fails
refuses it with its reason and detail; one that passes them all and meets a first segment that is not available is
refused with the cause (R26), with CLAMPED by its stop offset, and nothing else changes.
The width of the version in the reply is log entry 9, where CLAMPED stands log entry 24, that a refusal for which the
rule names no detail has an empty one log entry 35, and that a segment which the carrier itself holds outside its list
is not available log entry 47. -/
def Obligations.RouteExtendGrantedOrRefused : Prop :=
  (∀ (s u : State) (l : DLink) (c stop newStop : Nat) (ids : List Nat) (r : Carrier) (route : Route),
    u = s.taken l → s.hasRoom l → u.MayExtend c ids r route →
    newStop = min stop (u.grid.record (ids.getLastD 0)).length →
    ((∀ i ∈ ids, (u.seg i).blockCause = none) → ∃ w : Work,
      exec (.routeExtend l c stop ids) s = .next (w.finish.answered l
        ⟨0x27, .granted, .none_, decide (newStop ≠ stop),
          [.byte (w.finish.version c), .byte (route.list.length + ids.length), .half newStop]⟩) ∧
      Work.Grown { Work.start u none with bumped := [c] } w (fun d => d = c) ∧ w.reexam = false ∧
      w.s.version c = (u.version c + 1) % 256 ∧
      w.s.route? c = some { route with list := route.list ++ ids, stop := newStop, version := w.s.version c } ∧
      (∀ d, d ≠ c → w.s.route? d = u.route? d ∧ w.s.version d = u.version d) ∧
      (∀ i, w.s.seg i = if i ∈ ids then { u.seg i with hold := .held (.carrier c) .route } else u.seg i) ∧
      w.s = { u with segs := w.s.segs, routes := w.s.routes, versions := w.s.versions }) ∧
    (∀ (pre post : List Nat) (i : Nat) (why : Reason) (holder : List Val), ids = pre ++ i :: post →
      (∀ j ∈ pre, (u.seg j).blockCause = none) → (u.seg i).blockCause = some why →
      holder = (if why = .conflict then partyVals (u.seg i).holder else []) →
      exec (.routeExtend l c stop ids) s = .next (u.answered l
        ⟨0x27, .refused, why, decide (newStop ≠ stop), .half i :: holder⟩))) ∧
  (∀ (s u : State) (l : DLink) (c stop : Nat) (ids : List Nat) (why : Reason) (detail : List Val), u = s.taken l →
    s.hasRoom l → FirstFails [
      (.badMode, fun d => u.mode ≠ .active ∧ d = []), (.unknownCarrier, fun d => u.carrier? c = none ∧ d = []),
      (.noRoute, fun d => ∃ r, u.carrier? c = some r ∧ r.state = .idle ∧ d = []),
      (.badCarrierState, fun d => ∃ r, u.carrier? c = some r ∧ r.state ≠ .authorized ∧ d = []),
      (.badSegment, fun d => ∃ route pre i post, u.route? c = some route ∧ ids = pre ++ i :: post ∧
        (∀ j ∈ pre, u.grid.usable j = true) ∧ u.grid.usable i = false ∧ d = [.byte pre.length]),
      (.notAdjacent, fun d => ∃ route k, u.route? c = some route ∧ k < ids.length ∧
        u.grid.adjacent ((route.list.getLastD 0 :: ids).getD k 0) (ids.getD k 0) = false ∧
        (∀ j, j < k → u.grid.adjacent ((route.list.getLastD 0 :: ids).getD j 0) (ids.getD j 0) = true) ∧
        d = [.byte k]),
      (.repeated, fun d => ∃ route, u.route? c = some route ∧ (¬ ids.Nodup ∨ ∃ i ∈ ids, i ∈ route.list) ∧ d = []),
      (.tooLong, fun d => ∃ route, u.route? c = some route ∧
        (ids = [] ∨ 24 < ids.length ∨ 25 < route.list.length + ids.length) ∧
        d = [.byte (route.list.length + ids.length)])] why detail →
    exec (.routeExtend l c stop ids) s = .next (u.answered l ⟨0x27, .refused, why, false, detail⟩))

/-- ROUTE_CANCEL of an AUTHORIZED carrier (R28, R91): the entries after the one that contains the cut point, the front
position plus the stopping distance, are released and leave the list; the stop offset becomes the length of the new
last entry where the last entry went; the version is incremented. Of a carrier in any other state, EMERGENCY among
them, and of one that is not registered, and outside ACTIVE, it is refused and changes nothing but by the reply.
PENDING_CANCEL (R29) removes the carrier's pending entry, with PENDING_DROPPED and its tag; it is refused outside
ACTIVE, for a carrier that is not registered, and for one without an entry, and then changes nothing but by the reply.
The width of the version in the reply is log entry 9, and that a refusal for which the rule names no detail has an
empty one log entry 35. -/
def Obligations.RouteCancelAndPendingCancel : Prop :=
  (∀ (s u : State) (l : DLink) (c k p stop : Nat) (r : Carrier) (route : Route), u = s.taken l → s.hasRoom l →
      u.mode = .active → u.carrier? c = some r → r.state = .authorized → u.route? c = some route →
      p = frontPos u.grid route r.frontRem +
        ((r.speed * r.speed + (2 * r.applied.decel - 1)) / (2 * r.applied.decel) +
          (r.speed * r.applied.latency + 999) / 1000 + r.applied.margin) →
      1 ≤ r.applied.decel → k < route.list.length → routePos u.grid route.list k ≤ p →
      (p < routePos u.grid route.list (k + 1) ∨ k + 1 = route.list.length) →
      stop = (if k + 1 = route.list.length then route.stop else (u.grid.record (route.list.getD k 0)).length) →
      ∃ w : Work,
        exec (.routeCancel l c) s = .next (w.finish.answered l ⟨0x28, .accepted, .none_, false,
          [.byte (w.finish.version c), .byte (route.list.length - (k + 1)), .half stop]⟩) ∧
        Work.Grown { Work.start u none with bumped := [c] } w (fun d => d = c) ∧
        w.s = { u with segs := w.s.segs, routes := w.s.routes, versions := w.s.versions } ∧
        w.s.version c = (u.version c + 1) % 256 ∧
        w.s.route? c = some { route with
          list := route.list.take (k + 1), stop := stop, version := w.s.version c } ∧
        (∀ d, d ≠ c → w.s.route? d = u.route? d ∧ w.s.version d = u.version d) ∧
        (∀ i, w.s.seg i = if i ∈ route.list.drop (k + 1) then { u.seg i with hold := .free } else u.seg i) ∧
        (w.reexam = true ↔ ∃ i ∈ route.list.drop (k + 1), (u.seg i).hold ≠ .free)) ∧
  (∀ (s u : State) (l : DLink) (c : Nat) (why : Reason) (detail : List Val), u = s.taken l → s.hasRoom l →
    FirstFails [
      (.badMode, fun d => u.mode ≠ .active ∧ d = []), (.unknownCarrier, fun d => u.carrier? c = none ∧ d = []),
      (.noRoute, fun d => ∃ r, u.carrier? c = some r ∧ r.state = .idle ∧ d = []),
      (.badCarrierState, fun d => ∃ r, u.carrier? c = some r ∧ r.state ≠ .authorized ∧ d = [])] why detail →
    exec (.routeCancel l c) s = .next (u.answered l ⟨0x28, .refused, why, false, detail⟩)) ∧
  (∀ (s u : State) (l : DLink) (c : Nat), u = s.taken l → s.hasRoom l →
    (u.mode ≠ .active → exec (.pendingCancel l c) s = .next (u.answered l ⟨0x29, .refused, .badMode, false, []⟩)) ∧
    (u.mode = .active → u.carrier? c = none →
      exec (.pendingCancel l c) s = .next (u.answered l ⟨0x29, .refused, .unknownCarrier, false, []⟩)) ∧
    (u.mode = .active → u.carrier? c ≠ none → (∀ x ∈ u.waiting, x.carrier ≠ c) →
      exec (.pendingCancel l c) s = .next (u.answered l ⟨0x29, .refused, .notPending, false, []⟩)) ∧
    (u.mode = .active → u.carrier? c ≠ none → ∀ before e after, u.waiting = before ++ e :: after →
      e.carrier = c → (∀ x ∈ before ++ after, x.carrier ≠ c) →
      exec (.pendingCancel l c) s = .next (State.answered
        (State.post { u with waiting := before ++ after } .pendingDropped (.carrier c) [.byte 1, .half e.tag]) l
        ⟨0x29, .accepted, .none_, false, [.half e.tag]⟩)))

/-- Positions along a route (R23): entry 0 begins at 0 and each entry one length after the one before it; a position
lies in the entry at or after whose beginning, and before whose end, it is, so that a boundary lies in the later entry;
one at or beyond the end of the last entry lies in the last; the stop position is the beginning of the last entry plus
the stop offset; and the front position is the beginning of the entry at the front index plus an offset into it. -/
def Obligations.RoutePositions : Prop :=
  ∀ (g : Grid) (r : Route) (length : Nat → Nat), (∀ k, length k = (g.record (r.list.getD k 0)).length) →
    routePos g r.list 0 = 0 ∧
    (∀ k, k < r.list.length → routePos g r.list (k + 1) = routePos g r.list k + length k) ∧
    (∀ k p, k < r.list.length → routePos g r.list k ≤ p → p < routePos g r.list k + length k →
      entryAt g r.list p = k) ∧
    (∀ p, r.list ≠ [] → routePos g r.list r.list.length ≤ p → entryAt g r.list p = r.list.length - 1) ∧
    stopPos g r = routePos g r.list (r.list.length - 1) + r.stop ∧
    (∀ rem, r.front < r.list.length → ∃ off, off ≤ length r.front ∧
      frontPos g r rem = routePos g r.list r.front + off)

/-- The end of a request (R21, R75, R76, R140): what calls for it is a re-examination, the entries tried oldest first;
then the change of a picture code inside the window goes to the Picture Broadcaster in ON_CHANGE; and then there is
exactly one run of the Authority Calculator for each registered carrier that is named, or that holds or intrudes on a
changed segment, and none for any other. A concerned carrier ends with the record, the route and the version that one
run on the finished records gives it (O39), after step 1 where its report started the request (R89, O40); and the frame
of that run joins the queues of every link that its routing names, before those of the runs after it. Nothing else is
changed, but for a stale entry that an overspeed removes.
That the runs go by ascending carrier id, after the report to the Picture Broadcaster, is log entry 7. -/
def Obligations.EndOfRequest : Prop :=
  ∀ w : Work,
    (w.reexam = true → w.finish = Work.finish { w.s.waiting.foldl Work.tryEntry w with reexam := false }) ∧
    (w.reexam = false → w.s.carriers.Sorted → ∀ (concerned : Nat → Prop) (p : State) (changed : Prop),
      (∀ c, concerned c ↔ c ∈ w.runs ∨ ∃ i ∈ w.touched, (w.s.seg i).holder = some (.carrier c) ∨
        (w.s.seg i).intruder = some (.carrier c)) →
      (changed ↔ w.s.mode = .active ∧ w.s.cfg.broadcast.mode = .onChange ∧ ∃ i ∈ w.touched,
        (w.before.get i SegDyn.fresh).picture ≠ (w.s.seg i).picture ∧ inWindow w.s.window w.s.grid i = true) →
      (¬ changed → p = w.s) → (changed → w.s.cycle.since = none → p = w.s.startCycle) →
      (changed → w.s.cycle.since ≠ none → p = { w.s with cycle := { w.s.cycle with rerun := true } }) →
      (∀ c r, w.s.carrier? c = some r → ¬ concerned c →
        w.finish.carrier? c = some r ∧ w.finish.route? c = w.s.route? c ∧ w.finish.version c = w.s.version c) ∧
      w.finish = { w.s with
        routes := w.finish.routes, versions := w.finish.versions, carriers := w.finish.carriers
        radios := w.finish.radios, cycle := p.cycle, waiting := w.finish.waiting, dispatch := w.finish.dispatch } ∧
      (w.report = none → State.OnlyRuns w.s w.finish) ∧
      p = { w.s with radios := p.radios, cycle := p.cycle, dispatch := p.dispatch } ∧
      (∀ k, RadioLink.Fed (w.s.radio k) (p.radio k)) ∧ (∀ l, DispatchLink.Notified (w.s.dlink l) (p.dlink l)) ∧
      ∃ cs : List Nat, (∀ c, c ∈ cs ↔ w.s.carrier? c ≠ none ∧ concerned c) ∧ cs.Pairwise (fun c d => c < d) ∧
        w.finish = (cs.foldl (fun (v : Work) c => v.authorityRun c false) { w with s := p }).s ∧
        (∀ (pre post : List Nat) (c : Nat) (x : Work) (r : Carrier) (e : EndPoint) (f : Authority) (t y z : State),
          cs = pre ++ c :: post → x = (if w.report = some c then w.testSpeed c else w) → x.s.carrier? c = some r →
          e = x.s.endPoint c r false → t = (w.authorityRun c false).s →
          f = ⟨c, r.lastSeq, t.version c, (x.s.commandOf c r false e).1, e.seg, e.off, (x.s.commandOf c r false e).2,
            x.s.upcomingOf c r (x.s.commandOf c r false e).1 e⟩ →
          y = (pre.foldl (fun (v : Work) c => v.authorityRun c false) { w with s := p }).s →
          z = ((pre ++ [c]).foldl (fun (v : Work) c => v.authorityRun c false) { w with s := p }).s →
          w.finish.carrier? c = t.carrier? c ∧ w.finish.route? c = t.route? c ∧ w.finish.version c = t.version c ∧
          (w.report = some c → w.finish.waiting = x.s.waiting) ∧
          (∀ k, k < 4 → ∀ goes : Prop,
            (goes ↔ (w.s.radio k).state = .up ∧
              (((f.command = .stopNow ∨ f.command = .emergency) ∧ (r.state = .missing ∨ r.state = .lost)) ∨
                w.s.learning.get? c = none ∨ ∃ a, w.s.learning.get? c = some a ∧ a.link = k)) →
            (goes → z.radio k = ((y.radio k).join f).transmit) ∧ (¬ goes → z.radio k = y.radio k))) ∧
        ((∀ c ∈ cs, w.report ≠ some c) → w.finish.waiting = w.s.waiting))

/-- One entry of a re-examination (R34): granted exactly as a direct request when no standing segment of its carrier is
locked and every segment of its list is open, and then notified as PENDING_GRANTED; otherwise it keeps its place with
the locked standing segment, or its first segment that is not open, as its last blocking segment.
The order of the two notifications is log entry 8, that a standing segment outside the list becomes ROUTE log entry 40,
that a list which names the carrier's rear is granted log entry 46, which of several locked standing segments blocks
log entry 25, and the width of the version log entry 9. -/
def Obligations.ReexaminationTriesAnEntry : Prop :=
  ∀ (w : Work) (e : PendingEntry) (r : Carrier) (ahead : List Nat), w.s.segs.Sorted →
    w.s.carrier? e.carrier = some r → r.state = .idle → r.front = e.list.head? → e.list ≠ [] →
    ahead = (if r.rear = r.front then [] else r.rear.toList) →
    ((∀ i, (w.s.seg i).hold = .held (.carrier e.carrier) .standing → (w.s.seg i).lock.rows = []) →
      (∀ i ∈ e.list, w.s.openTo e.carrier i) → ∃ t, t = (w.tryEntry e).s ∧
        t.version e.carrier = (w.s.version e.carrier + 1) % 256 ∧
        t.route? e.carrier =
          some ⟨ahead ++ e.list, e.stop, ahead.length, 0, t.version e.carrier, e.tag, e.origin⟩ ∧
        t.carrier? e.carrier = some { r with state := .authorized } ∧
        (∀ i, t.seg i = if i ∈ e.list ∨ (w.s.seg i).hold = .held (.carrier e.carrier) .standing then
            { w.s.seg i with hold := .held (.carrier e.carrier) .route }
          else w.s.seg i) ∧
        t.waiting = w.s.waiting.filter (fun x => decide (x.carrier ≠ e.carrier)) ∧
        (∀ m, t.dlink m = (w.s.dlink m).offers w.s.now
          [⟨.carrierState, w.s.now, .carrier e.carrier, [.byte 2, .byte 3]⟩,
            ⟨.pendingGranted, w.s.now, .carrier e.carrier,
              [.half e.tag, .byte (t.version e.carrier), .byte e.origin.key]⟩]) ∧
        (∀ d, d ≠ e.carrier → t.carrier? d = w.s.carrier? d ∧ t.route? d = w.s.route? d ∧ t.version d = w.s.version d) ∧
        (w.tryEntry e).reexam = w.reexam ∧
        Work.Grown { w with bumped := e.carrier :: w.bumped } (w.tryEntry e) (fun d => d = e.carrier) ∧
        t = { w.s with segs := t.segs, routes := t.routes, versions := t.versions, waiting := t.waiting
                       carriers := t.carriers, dispatch := t.dispatch }) ∧
    (∀ i, ((w.s.seg i).hold = .held (.carrier e.carrier) .standing ∧ (w.s.seg i).lock.rows ≠ [] ∧
          (r.front = some i ∨ ∀ j, (w.s.seg j).hold = .held (.carrier e.carrier) .standing →
            (w.s.seg j).lock.rows ≠ [] → r.front ≠ some j ∧ i ≤ j)) ∨
        ((∀ j, (w.s.seg j).hold = .held (.carrier e.carrier) .standing → (w.s.seg j).lock.rows = []) ∧
          ∃ pre post, e.list = pre ++ i :: post ∧ (∀ j ∈ pre, w.s.openTo e.carrier j) ∧
            ¬ w.s.openTo e.carrier i) →
      w.tryEntry e = { w with s := { w.s with
        waiting := w.s.waiting.map (fun x => if x.carrier = e.carrier then { x with lastBlock := i } else x) } })

/-! ## The roster and the classes -/

/-- REGISTER_CARRIER (R47, R52, R53): the first check that fails refuses it; otherwise the carrier joins the roster with
a new record, CARRIER_STATE from no state to OFFLINE is notified, its run sends STOP_NOW with no end segment on every
UP link that its routing names, and nothing else changes.
The values that a new record holds as applied are log entry 15; that the run of the same request writes the last command
of the new record is log entry 16. -/
def Obligations.RegisterCarrier : Prop :=
  ∀ (s u : State) (l : DLink) (c k : Nat), u = s.taken l → s.hasRoom l →
    (96 ≤ c → exec (.registerCarrier l c k) s =
      .next (u.answered l ⟨0x2D, .refused, .unknownCarrier, false, [.half c]⟩)) ∧
    (c < 96 → 4 ≤ k → exec (.registerCarrier l c k) s =
      .next (u.answered l ⟨0x2D, .refused, .badClass, false, [.byte k]⟩)) ∧
    (c < 96 → k < 4 → ∀ r, u.carrier? c = some r → exec (.registerCarrier l c k) s =
      .next (u.answered l ⟨0x2D, .refused, .alreadyRegistered, false, [.byte (u.classOf c), .byte r.state.code]⟩)) ∧
    (c < 96 → k < 4 → u.carrier? c = none → ∃ t : State,
      exec (.registerCarrier l c k) s = .next (t.answered l ⟨0x2D, .accepted, .none_, false, []⟩) ∧
      t.cfg = { u.cfg with roster := u.cfg.roster.put c k } ∧ t.classOf c = k ∧
      (∃ x, x.command = some .stopNow ∧
        t.carrier? c = some { Carrier.fresh (u.classVals k) with auth := x }) ∧
      (∀ d, d ≠ c → t.carrier? d = u.carrier? d) ∧
      t.eventSeqs.get? c = none ∧ (∀ d, d ≠ c → t.eventSeqs.get? d = u.eventSeqs.get? d) ∧
      (∀ m, t.dlink m =
        (u.dlink m).offers u.now [⟨.carrierState, u.now, .carrier c, [.byte 255, .byte 0]⟩]) ∧
      (∀ f : Authority, f = ⟨c, none, u.version c, .stopNow, none, 0, 0, [none]⟩ → ∀ r, ∀ goes : Prop,
        (goes ↔ r < 4 ∧ (u.radio r).state = .up ∧
          (u.learning.get? c = none ∨ ∃ x, u.learning.get? c = some x ∧ x.link = r)) →
        (goes → t.radio r = ((u.radio r).join f).transmit) ∧ (¬ goes → t.radio r = u.radio r)) ∧
      t = { u with cfg := t.cfg, carriers := t.carriers, eventSeqs := t.eventSeqs, radios := t.radios,
                   dispatch := t.dispatch })

/-- DEREGISTER_CARRIER (R48, R33, R36, R126): refused for an id not in the roster and in the four states that hold the
carrier; otherwise the carrier leaves the roster with its record and learning entry, an IDLE carrier's standing
segments become free and its pending entry is removed as stale, and CARRIER_STATE to no state is notified last.
The order of the notifications is log entry 8. -/
def Obligations.DeregisterCarrier : Prop :=
  ∀ (s u : State) (l : DLink) (c : Nat), u = s.taken l → s.hasRoom l → u.segs.Sorted →
    (u.carrier? c = none →
      exec (.deregisterCarrier l c) s = .next (u.answered l ⟨0x2E, .refused, .unknownCarrier, false, []⟩)) ∧
    (∀ r, u.carrier? c = some r → r.state = .authorized ∨ r.state = .emergency ∨ r.state = .missing ∨ r.state = .lost →
      exec (.deregisterCarrier l c) s =
        .next (u.answered l ⟨0x2E, .refused, .badCarrierState, false, [.byte r.state.code]⟩)) ∧
    (∀ r ids stale, u.carrier? c = some r → r.state = .offline ∨ r.state = .away ∨ r.state = .idle →
      (∀ i, i ∈ ids ↔ r.state = .idle ∧ (u.seg i).hold = .held (.carrier c) .standing) → ids.Nodup →
      stale = (if r.state = .idle then (u.entry? c).toList else []) →
      ∃ w : Work,
        exec (.deregisterCarrier l c) s = .next (w.finish.answered l
          ⟨0x2E, .accepted, .none_, false, [.byte r.state.code, .byte ids.length]⟩) ∧
        (Work.start u none).Grown w (fun _ => False) ∧
        w.s.carrier? c = none ∧ (∀ d, d ≠ c → w.s.carrier? d = u.carrier? d) ∧
        w.s.cfg = { u.cfg with roster := u.cfg.roster.del c } ∧ w.s.learning = u.learning.del c ∧
        (r.state ≠ .idle → w.s.radios = u.radios) ∧
        (r.state = .idle → ∀ (e : EndPoint) (f : Authority), e = u.endPoint c r true →
          f = ⟨c, r.lastSeq, u.version c, .stopNow, e.seg, e.off, 0, [e.seg]⟩ →
          ∀ k, k < 4 → ∀ goes : Prop,
            (goes ↔ (u.radio k).state = .up ∧
              (u.learning.get? c = none ∨ ∃ x, u.learning.get? c = some x ∧ x.link = k)) →
            (goes → w.s.radio k = ((u.radio k).join f).transmit) ∧ (¬ goes → w.s.radio k = u.radio k)) ∧
        (∀ i, w.s.seg i = if i ∈ ids then { u.seg i with hold := .free } else u.seg i) ∧
        w.s.waiting = (if r.state = .idle then u.waiting.filter (fun e => decide (e.carrier ≠ c)) else u.waiting) ∧
        (∀ m, w.s.dlink m = (u.dlink m).offers u.now
          (stale.map (fun e => ⟨.pendingStale, u.now, .carrier c, [.half e.tag, .byte 2]⟩) ++
            [⟨.carrierState, u.now, .carrier c, [.byte r.state.code, .byte 255]⟩])) ∧
        (∀ k, RadioLink.Fed (u.radio k) (w.s.radio k)) ∧
        w.s = { u with cfg := w.s.cfg, segs := w.s.segs, waiting := w.s.waiting, carriers := w.s.carriers,
                       learning := w.s.learning, radios := w.s.radios, dispatch := w.s.dispatch } ∧
        (w.reexam = true ↔ ids ≠ []))

/-- SET_CLASS (R50, R51) and SET_COPY_RULE (R160): the value that its check refuses refuses it; otherwise the effective
record takes the place of the class or rule, and nothing else changes: the applied values of a registered carrier
stand. A rule selects a carrier id that has the value's digit wherever the mask has a one (R160).
The widths of the values in the replies are log entry 9, and which of several bad fields is named log entry 38. -/
def Obligations.ClassesAndCopyRules : Prop :=
  ∀ (s u : State) (l : DLink), u = s.taken l → s.hasRoom l →
    (∀ a : ClassArgs,
      (4 ≤ a.cls → exec (.setClass l a) s = .next (u.answered l ⟨0x2F, .refused, .badClass, false, []⟩)) ∧
      (a.cls < 4 → 2 ≤ a.early →
        exec (.setClass l a) s = .next (u.answered l ⟨0x2F, .refused, .badValue, false, [.field 8]⟩)) ∧
      (a.cls < 4 → a.early ≤ 1 → ∀ v : ClassVals,
        v.maxSpeed = max 50 (min a.maxSpeed 800) → v.decel = max 50 (min a.decel 300) →
        v.margin = min a.margin 2000 → v.latency = min a.latency 2000 →
        v.period = max 100 (min a.period 2000) / 10 * 10 →
        v.window = (if 100 ≤ a.window then 100 else if 75 ≤ a.window then 75 else if 50 ≤ a.window then 50 else 25) →
        v.grace = max 100 (min a.grace 2000) → v.early = (if a.early = 1 then .fault else .drop) →
        v.overTol = min a.overTol 100 → v.stopTol = min a.stopTol 200 →
        exec (.setClass l a) s = .next (State.answered
          { u with cfg := { u.cfg with classes := u.cfg.classes.put a.cls v } } l
          ⟨0x2F, .accepted, .none_,
            decide (¬ (v.maxSpeed = a.maxSpeed ∧ v.decel = a.decel ∧ v.margin = a.margin ∧ v.latency = a.latency ∧
              v.period = a.period ∧ v.window = a.window ∧ v.grace = a.grace ∧ v.overTol = a.overTol ∧
              v.stopTol = a.stopTol)),
            [.half v.maxSpeed, .half v.decel, .half v.margin, .half v.latency, .half v.period, .byte v.window,
              .half v.grace, .byte a.early, .byte v.overTol, .byte v.stopTol]⟩))) ∧
    (∀ a : CopyArgs,
      (∀ why detail, FirstFails [
          (.badValue, fun d => 4 ≤ a.rule ∧ d = [.field 0]), (.badValue, fun d => 2 ≤ a.frameKind ∧ d = [.field 2]),
          (.badValue, fun d => 3 ≤ a.flag ∧ d = [.field 5]), (.badValue, fun d => 2 ≤ a.target ∧ d = [.field 6]),
          (.badValue, fun d => 2 ≤ a.enable ∧ d = [.field 1])] why detail →
        exec (.setCopyRule l a) s = .next (u.answered l ⟨0x3C, .refused, why, false, detail⟩)) ∧
      (a.rule < 4 → a.enable ≤ 1 → a.frameKind ≤ 1 → a.flag ≤ 2 → a.target ≤ 1 → ∀ rule : CopyRule,
        rule = ⟨decide (a.enable = 1), (if a.frameKind = 1 then .any else .report), min a.value 127, min a.mask 127,
          (if a.flag = 0 then .nothing else if a.flag = 1 then .fault else .laden),
          (if a.target = 1 then .b else .a)⟩ →
        exec (.setCopyRule l a) s = .next (State.answered
          { u with cfg := { u.cfg with copyRules := u.cfg.copyRules.put a.rule rule } } l
          ⟨0x3C, .accepted, .none_, decide (¬ (a.value ≤ 127 ∧ a.mask ≤ 127)),
            [.byte a.enable, .byte a.frameKind, .byte (min a.value 127), .byte (min a.mask 127), .byte a.flag,
              .byte a.target]⟩))) ∧
    (∀ (rule : CopyRule) (c : Nat), rule.selects c = true ↔
      ∀ i, rule.mask.testBit i = true → c.testBit i = rule.value.testBit i)

/-! ## Recovery and clearing -/

/-- RECOVER_CARRIER of a LOST carrier that was sighted at rest on ground that is free or frozen under it (R45, R70):
it is IDLE where it was sighted, its other segments are free, its route and its intruder marks are gone.
RELEASE_FROZEN of a LOST carrier (R45, R71): its frozen segments become free, its route and marks go, and its record
is that of a new carrier of its class but for its early-report count. The first check of either that fails refuses it
with its reason and detail, and changes nothing but by the reply.
What a new record and its authority fields hold are log entries 15 and 16; that BAD_MODE and UNKNOWN_CARRIER carry no
detail, and RELEASE_FROZEN no state, log entry 35. That the pending list is re-examined only where a segment was freed
or a mark removed, while R70 and R71 name no condition, is log entry 58, and that the front is named before the rear log
entry 67. -/
def Obligations.LostCarriers : Prop :=
  (∀ (s u : State) (l : DLink) (c f b n : Nat) (r : Carrier) (g : Sighting) (v : ClassVals) (ground freed : List Nat),
    u = s.taken l → s.hasRoom l → u.segs.Sorted → u.mode ≠ .config → u.carrier? c = some r → r.state = .lost →
    r.sighting = some g → g.speed = 0 → g.flags.fault = false → g.front = some f → g.rear = some b →
    n = u.grid.lanes * u.grid.bays → f < n → b < n → ground = (if f = b then [f] else [f, b]) →
    (∀ i ∈ ground, (u.seg i).hold = .free ∨ ∃ k, (u.seg i).hold = .frozen (.carrier c) k) →
    (∀ i, i ∈ freed ↔ i ∉ ground ∧ ∃ k, (u.seg i).hold = .frozen (.carrier c) k) → freed.Nodup →
    v = u.classVals (u.classOf c) →
    ∃ w : Work,
      exec (.recoverCarrier l c) s = .next (w.finish.answered l ⟨0x30, .accepted, .none_, false,
        .byte ground.length :: ground.map Val.half ++ [.byte freed.length]⟩) ∧
      Work.Grown { Work.start u none with settled := [c] } w (fun d => d = c) ∧
      w.s.carrier? c = some { r with
        state := .idle, front := g.front, frontRem := g.frontRem, rear := g.rear, speed := g.speed, flags := g.flags
        sighting := none, lostSince := none, applied := v
        timer := some (max (v.period - (u.now - g.time).toNat) (v.period * v.window / 100))
        auth := { r.auth with endPos := if (u.route? c).isSome then none else r.auth.endPos } } ∧
      w.s.route? c = none ∧ (∀ d, d ≠ c → w.s.carrier? d = u.carrier? d ∧ w.s.route? d = u.route? d) ∧
      (∀ i, w.s.seg i = { u.seg i with
        hold := if i ∈ ground then .held (.carrier c) .standing
          else if (u.seg i).holder = some (.carrier c) then .free else (u.seg i).hold
        intruder := if (u.seg i).intruder = some (.carrier c) then none else (u.seg i).intruder }) ∧
      (∀ m, w.s.dlink m =
        (u.dlink m).offers u.now [⟨.carrierState, u.now, .carrier c, [.byte 6, .byte 2]⟩]) ∧
      w.s = { u with segs := w.s.segs, routes := w.s.routes, carriers := w.s.carriers, dispatch := w.s.dispatch } ∧
      (w.reexam = true ↔ ∃ i, (i ∉ ground ∧ (u.seg i).holder = some (.carrier c)) ∨
        (u.seg i).intruder = some (.carrier c))) ∧
  (∀ (s u : State) (l : DLink) (c : Nat) (r : Carrier) (freed : List Nat), u = s.taken l → s.hasRoom l →
    u.segs.Sorted → u.mode ≠ .config → u.carrier? c = some r → r.state = .lost →
    (∀ i, i ∈ freed ↔ ∃ k, (u.seg i).hold = .frozen (.carrier c) k) → freed.Nodup →
    ∃ w : Work,
      exec (.releaseFrozen l c) s =
        .next (w.finish.answered l ⟨0x31, .accepted, .none_, false, [.byte freed.length]⟩) ∧
      (Work.start u none).Grown w (fun d => d = c) ∧
      w.s.carrier? c = some { Carrier.fresh (u.classVals (u.classOf c)) with earlyCount := r.earlyCount } ∧
      w.s.route? c = none ∧ (∀ d, d ≠ c → w.s.carrier? d = u.carrier? d ∧ w.s.route? d = u.route? d) ∧
      (∀ i, w.s.seg i = { u.seg i with
        hold := if i ∈ freed then .free else (u.seg i).hold
        intruder := if (u.seg i).intruder = some (.carrier c) then none else (u.seg i).intruder }) ∧
      (∀ m, w.s.dlink m =
        (u.dlink m).offers u.now [⟨.carrierState, u.now, .carrier c, [.byte 6, .byte 0]⟩]) ∧
      w.s = { u with segs := w.s.segs, routes := w.s.routes, carriers := w.s.carriers, dispatch := w.s.dispatch } ∧
      (w.reexam = true ↔ ∃ i, i ∈ freed ∨ (u.seg i).intruder = some (.carrier c))) ∧
  (∀ (s u : State) (l : DLink) (c n : Nat), u = s.taken l → s.hasRoom l → n = u.grid.lanes * u.grid.bays →
    (∀ why detail, FirstFails [
        (.badMode, fun d => u.mode = .config ∧ d = []), (.unknownCarrier, fun d => u.carrier? c = none ∧ d = []),
        (.badCarrierState, fun d => ∃ r, u.carrier? c = some r ∧ r.state ≠ .lost ∧ d = [.byte r.state.code]),
        (.noSighting, fun d => ∃ r, u.carrier? c = some r ∧ r.sighting = none ∧ d = []),
        (.moving, fun d => ∃ r g, u.carrier? c = some r ∧ r.sighting = some g ∧ (0 < g.speed ∨ g.flags.fault = true) ∧
          d = [.half g.speed, .byte g.flags.code]),
        (.badSegment, fun d => ∃ r g, u.carrier? c = some r ∧ r.sighting = some g ∧
          n ≤ g.front.getD 65535 ∧ d = [.half (g.front.getD 65535)]),
        (.badSegment, fun d => ∃ r g, u.carrier? c = some r ∧ r.sighting = some g ∧
          n ≤ g.rear.getD 65535 ∧ d = [.half (g.rear.getD 65535)]),
        (.conflict, fun d => ∃ r g i, u.carrier? c = some r ∧ r.sighting = some g ∧ g.front = some i ∧
          (u.seg i).hold ≠ .free ∧ (∀ k, (u.seg i).hold ≠ .frozen (.carrier c) k) ∧
          d = .half i :: partyVals (u.seg i).holder),
        (.conflict, fun d => ∃ r g i, u.carrier? c = some r ∧ r.sighting = some g ∧ g.rear = some i ∧
          (u.seg i).hold ≠ .free ∧ (∀ k, (u.seg i).hold ≠ .frozen (.carrier c) k) ∧
          d = .half i :: partyVals (u.seg i).holder)] why detail →
      n ≤ 65535 → exec (.recoverCarrier l c) s = .next (u.answered l ⟨0x30, .refused, why, false, detail⟩)) ∧
    (∀ why detail, FirstFails [
        (.badMode, fun d => u.mode = .config ∧ d = []), (.unknownCarrier, fun d => u.carrier? c = none ∧ d = []),
        (.badCarrierState, fun d => ∃ r, u.carrier? c = some r ∧ r.state ≠ .lost ∧ d = [])] why detail →
      exec (.releaseFrozen l c) s = .next (u.answered l ⟨0x31, .refused, why, false, detail⟩)))

/-- CLEAR_EMERGENCY of a carrier in EMERGENCY that stands at rest, without FAULT, on ground inside the grid that is free
or its own (R72): standing holds there and no other hold, no route, no mark, no cause, and the state IDLE, or AWAY for
a carrier that stands nowhere. The first check that fails refuses it with its reason and detail, and changes nothing but
by the reply.
That a refusal for which the rule names no detail has an empty one is log entry 35, that the pending list is re-examined
only where a segment was freed or a mark removed, while R72 names no condition, log entry 58, and that BAD_SEGMENT is
tested before CONFLICT log entry 61. -/
def Obligations.ClearEmergency : Prop :=
  (∀ (s u : State) (l : DLink) (c : Nat) (r : Carrier) (ground freed : List Nat) (new : CarrierState),
      u = s.taken l → s.hasRoom l → u.segs.Sorted → u.mode ≠ .config → u.carrier? c = some r → r.state = .emergency →
      r.speed = 0 → r.flags.fault = false →
      ground = (r.front.toList ++ if r.rear = r.front then [] else r.rear.toList) →
      (∀ i ∈ ground, i < u.grid.lanes * u.grid.bays) →
      (∀ i ∈ ground, (u.seg i).hold = .free ∨ ∃ k, (u.seg i).hold = .held (.carrier c) k) →
      (∀ i, i ∈ freed ↔ i ∉ ground ∧ (u.seg i).holder = some (.carrier c)) → freed.Nodup →
      new = (if ground = [] then .away else .idle) →
      ∃ w : Work,
        exec (.clearEmergency l c) s = .next (w.finish.answered l ⟨0x32, .accepted, .none_, false,
          .byte new.code :: .byte ground.length :: ground.map Val.half ++ [.byte freed.length]⟩) ∧
        (Work.start u none).Grown w (fun d => d = c) ∧
        w.s.carrier? c = some { r with
          state := new, cause := none, timer := if new = .away then none else r.timer
          auth := { r.auth with endPos := if (u.route? c).isSome then none else r.auth.endPos } } ∧
        w.s.route? c = none ∧ (∀ d, d ≠ c → w.s.carrier? d = u.carrier? d ∧ w.s.route? d = u.route? d) ∧
        (∀ i, w.s.seg i = { u.seg i with
          hold := if i ∈ ground then .held (.carrier c) .standing else if i ∈ freed then .free else (u.seg i).hold
          intruder := if (u.seg i).intruder = some (.carrier c) then none else (u.seg i).intruder }) ∧
        (∀ m, w.s.dlink m =
          (u.dlink m).offers u.now [⟨.carrierState, u.now, .carrier c, [.byte 4, .byte new.code]⟩]) ∧
        w.s = { u with segs := w.s.segs, routes := w.s.routes, carriers := w.s.carriers, dispatch := w.s.dispatch } ∧
        (w.reexam = true ↔ ∃ i, i ∈ freed ∨ (u.seg i).intruder = some (.carrier c))) ∧
  (∀ (s u : State) (l : DLink) (c n : Nat) (why : Reason) (detail : List Val), u = s.taken l → s.hasRoom l →
    n = u.grid.lanes * u.grid.bays → FirstFails [
      (.badMode, fun d => u.mode = .config ∧ d = []), (.unknownCarrier, fun d => u.carrier? c = none ∧ d = []),
      (.badCarrierState, fun d => ∃ r, u.carrier? c = some r ∧ r.state ≠ .emergency ∧ d = []),
      (.moving, fun d => ∃ r, u.carrier? c = some r ∧ (0 < r.speed ∨ r.flags.fault = true) ∧ d = []),
      (.badSegment, fun d => ∃ r i, u.carrier? c = some r ∧ (r.front = some i ∨ r.rear = some i) ∧ n ≤ i ∧ d = []),
      (.conflict, fun d => ∃ r i, u.carrier? c = some r ∧ r.front = some i ∧ (u.seg i).hold ≠ .free ∧
        (∀ k, (u.seg i).hold ≠ .held (.carrier c) k) ∧ d = .half i :: partyVals (u.seg i).holder),
      (.conflict, fun d => ∃ r i, u.carrier? c = some r ∧ r.rear = some i ∧ (u.seg i).hold ≠ .free ∧
        (∀ k, (u.seg i).hold ≠ .held (.carrier c) k) ∧ d = .half i :: partyVals (u.seg i).holder)] why detail →
    exec (.clearEmergency l c) s = .next (u.answered l ⟨0x32, .refused, why, false, detail⟩))


/-! ## Carrier reports -/

/-- How a report is prepared (R54, R172): a speed above 1000 is 1000, a rear of NONE is the front, PARKED at a speed
is FAULT, 65535 names no segment, and a front remaining of 65535 is 65534. The frames that move no carrier: of an id
not in the roster (R54), a duplicate (R123), and an early report that the DROP policy, or the state EMERGENCY, drops
(R56, R57). An early report under policy FAULT is counted and puts an IDLE or AUTHORIZED carrier into EMERGENCY (R57,
R69). An early report is offered to the copy rules with the disposition EARLY (R160, R161), a report of an unknown
carrier or a duplicate is not. That a notification exactly 10 000 ms after the last is posted is log entry 31, that
the run after an early report under FAULT is no run of the report is log entry 38, the order of the notifications log
entry 8, how a COPY is laid out log entry 52, and the order of its rules log entry 64. -/
def Obligations.ReportsPreparedAndDropped : Prop :=
  (∀ a : ReportArgs,
    (prepare a).seq = a.seq ∧
    ((prepare a).front = none ↔ a.front = 65535) ∧ (a.front ≠ 65535 → (prepare a).front = some a.front) ∧
    (a.rear = 65535 → (prepare a).rear = (prepare a).front) ∧ (a.rear ≠ 65535 → (prepare a).rear = some a.rear) ∧
    (prepare a).speed = min a.speed 1000 ∧ (prepare a).frontRem = min a.frontRem 65534 ∧
    ((prepare a).flags.parked = true ↔ a.flags % 2 = 1) ∧ ((prepare a).flags.laden = true ↔ a.flags / 4 % 2 = 1) ∧
    ((prepare a).flags.fault = true ↔ a.flags / 2 % 2 = 1 ∨ (a.flags % 2 = 1 ∧ 0 < a.speed))) ∧
  (∀ (s u : State) (r : Fin 4) (a : ReportArgs), u = s.radioArrival r → (s.radio r).state ≠ .unconfigured →
    (u.carrier? a.carrier = none → ∀ (key : Nat) (v : State), key = min a.carrier 96 →
      v = { u with unregistered := min (u.unregistered + 1) 65535 } →
      ((∃ x, u.unknownTimes.get? key = some x ∧ (u.now - x).toNat < 10000) →
        exec (.positionReport r a) s = .next v.pump) ∧
      ((∀ x, u.unknownTimes.get? key = some x → 10000 ≤ (u.now - x).toNat) →
        exec (.positionReport r a) s = .next (State.pump (State.post
          { v with unknownTimes := u.unknownTimes.put key u.now } .unknownCarrier (.carrier a.carrier)
          [.byte (r.val + 2)])))) ∧
    (∀ x, u.carrier? a.carrier = some x → x.lastSeq = some a.seq →
      exec (.positionReport r a) s = .next (State.pump (u.onRadio r (fun l =>
        { l with duplicates := min (l.duplicates + 1) 65535 })))) ∧
    (∀ x n, u.carrier? a.carrier = some x → x.lastSeq ≠ some a.seq → u.mode ≠ .config →
      x.state = .emergency ∨ ((x.state = .idle ∨ x.state = .authorized) ∧ x.applied.early = .drop) →
      x.timer = some n → x.applied.period * x.applied.window / 100 < n →
      ∃ v t : State, exec (.positionReport r a) s = .next t.pump ∧ v.Copied t r a 1 ∧
        v.carrier? a.carrier =
          some { x with earlyCount := min (x.earlyCount + 1) 65535, earlyRun := true } ∧
        (∀ d, d ≠ a.carrier → v.carrier? d = u.carrier? d) ∧
        (∀ m, v.dlink m = if x.earlyRun then u.dlink m else (u.dlink m).offers u.now
          [⟨.earlyReport, u.now, .carrier a.carrier, [.byte a.seq, .word n]⟩]) ∧
        v = { u with carriers := v.carriers, dispatch := v.dispatch }) ∧
    (∀ x n stale, u.carrier? a.carrier = some x → x.lastSeq ≠ some a.seq → u.mode ≠ .config →
      x.state = .idle ∨ x.state = .authorized → x.applied.early = .fault →
      x.timer = some n → x.applied.period * x.applied.window / 100 < n →
      stale = (if x.state = .idle then (u.entry? a.carrier).toList else []) →
      ∃ (w : Work) (t : State), exec (.positionReport r a) s = .next t.pump ∧ w.finish.Copied t r a 1 ∧
        (Work.start u none).Grown w (fun d => d = a.carrier) ∧ w.reexam = false ∧
        w.s.carrier? a.carrier = some { x with
          earlyCount := min (x.earlyCount + 1) 65535, state := .emergency, cause := some .earlyReport } ∧
        (∀ d, d ≠ a.carrier → w.s.carrier? d = u.carrier? d) ∧
        w.s.waiting = (if stale = [] then u.waiting else u.waiting.filter (fun e => decide (e.carrier ≠ a.carrier))) ∧
        (∀ m, w.s.dlink m = (u.dlink m).offers u.now
          (⟨.carrierState, u.now, .carrier a.carrier, [.byte x.state.code, .byte 4, .byte 5]⟩ ::
            stale.map (fun e => ⟨.pendingStale, u.now, .carrier a.carrier, [.half e.tag, .byte 0]⟩))) ∧
        w.s = { u with waiting := w.s.waiting, carriers := w.s.carriers, dispatch := w.s.dispatch }))

/-- Reports that set a carrier's sequence and learning entry and move nothing: the addressing report in CONFIG (R55) and
the sighting of a LOST carrier (R68, R123, R125). An accepted report of a carrier in EMERGENCY updates its record and
marks the reported ground that it does not hold, and state and cause stay (R43, R61, R64). An accepted report in MISSING
first restores the prior state, or EMERGENCY where a lock has come upon its ground, is notified, and is then handled as
a report in that state (R58, R67). Each is offered to the copy rules with its disposition (R160, R161).
That a report with FAULT or a deviation in EMERGENCY posts no CARRIER_STATE is log entry 42, which INTRUSION entries it
posts log entry 22, how a COPY is laid out log entry 52, and the order of its rules log entry 64. -/
def Obligations.AddressingAndSighting : Prop :=
  (∀ (s u : State) (r : Fin 4) (a : ReportArgs) (x : Carrier), u = s.radioArrival r → (s.radio r).state ≠ .unconfigured →
     u.carrier? a.carrier = some x → x.lastSeq ≠ some a.seq → u.mode = .config ∨ x.state = .lost →
     ∃ (w : Work) (t : State), exec (.positionReport r a) s = .next t.pump ∧ 
       w.finish.Copied t r a (if u.mode = .config then 4 else 3) ∧
       (Work.start u (some a.carrier)).Grown w (fun d => d = a.carrier) ∧ w.reexam = false ∧
       (u.mode = .config → w.s.carrier? a.carrier = some { x with lastSeq := some a.seq, lastTime := some u.now }) ∧
       (u.mode ≠ .config → ∀ p, p = prepare a → w.s.carrier? a.carrier = some { x with
         lastSeq := some a.seq, sighting := some ⟨p.front, p.frontRem, p.rear, p.speed, p.flags, u.now⟩ }) ∧
       (∀ d, d ≠ a.carrier → w.s.carrier? d = u.carrier? d) ∧
       w.s.learning = u.learning.put a.carrier ⟨r, u.now, u.now + BitVec.ofNat 32 (1000 * u.cfg.aging)⟩ ∧
       w.s = { u with carriers := w.s.carriers, learning := w.s.learning }) ∧
  (∀ (s u : State) (r : Fin 4) (a : ReportArgs) (x : Carrier) (p : Report) (v : ClassVals) (dev : Bool),
    u = s.radioArrival r → (s.radio r).state ≠ .unconfigured → p = prepare a → u.Accepts a x → x.state = .emergency →
    v = u.classVals (u.classOf a.carrier) →
    (dev = true ↔ p.front = none ∨ ∃ i ∈ p.ground, ∀ k, (u.seg i).hold ≠ .held (.carrier a.carrier) k) →
    ∃ (w : Work) (t : State), exec (.positionReport r a) s = .next t.pump ∧ w.finish.Copied t r a 0 ∧
      (Work.start u (some a.carrier)).Grown w (fun d => d = a.carrier) ∧ w.reexam = false ∧
      w.s.carrier? a.carrier = some (x.reported v p u.now) ∧ (∀ d, d ≠ a.carrier → w.s.carrier? d = u.carrier? d) ∧
      (∀ i, w.s.seg i = if dev = true ∧ i ∈ p.ground ∧ i < u.grid.lanes * u.grid.bays then
          (u.seg i).mark (.carrier a.carrier)
        else u.seg i) ∧
      (∀ m, w.s.dlink m = (u.dlink m).offers u.now (if dev then u.intrusions a.carrier p.ground else [])) ∧
      w.s.learning = u.heard a.carrier r ∧
      w.s = { u with segs := w.s.segs, carriers := w.s.carriers, learning := w.s.learning,
                     dispatch := w.s.dispatch }) ∧
  (∀ (s u : State) (r : Fin 4) (a : ReportArgs) (x : Carrier) (p : Report) (v : ClassVals) (back : CarrierState)
    (cause : Option EmergencyCause) (locked : Prop),
    u = s.radioArrival r → (s.radio r).state ≠ .unconfigured → p = prepare a → u.Accepts a x →
    v = u.classVals (u.classOf a.carrier) →
    (locked ↔ ∃ i k, (u.seg i).hold = .held (.carrier a.carrier) k ∧ (u.seg i).lock.rows ≠ []) →
    (x.state ≠ .missing ∧ back = x.state ∧ cause = x.cause) ∨
      (x.state = .missing ∧ ((x.prior = some .idle ∧ back = .idle ∧ cause = none) ∨
        (x.prior = some .authorized ∧ ¬ locked ∧ back = .authorized ∧ cause = none) ∨
        (x.prior = some .authorized ∧ locked ∧ back = .emergency ∧ cause = some .hoistViolation) ∨
        (x.prior = some .emergency ∧ back = .emergency ∧ cause = x.cause))) →
    ∃ (w : Work) (t : State), exec (.positionReport r a) s = .next t.pump ∧
      (w.handleReport a.carrier x.front p).finish.Copied t r a 0 ∧
      (Work.start u (some a.carrier)).Grown w (fun d => d = a.carrier) ∧ w.reexam = false ∧
      w.s.carrier? a.carrier = some { x.reported v p u.now with
        state := back, prior := if x.state = .missing then none else x.prior, cause := cause } ∧
      (∀ d, d ≠ a.carrier → w.s.carrier? d = u.carrier? d) ∧
      (∀ m, w.s.dlink m = if x.state = .missing then (u.dlink m).offers u.now [⟨.carrierState, u.now,
          .carrier a.carrier, [.byte 5, .byte back.code] ++ cause.toList.map (fun q => .byte q.code)⟩]
        else u.dlink m) ∧
      w.s.learning = u.heard a.carrier r ∧
      w.s = { u with carriers := w.s.carriers, learning := w.s.learning, dispatch := w.s.dispatch })

/-- An accepted report of an IDLE carrier that stands where it should (R58, R59, R125): its fields are stored with the
values of its class and a fresh period, a pending entry whose list does not begin where it stands is removed as stale,
and nothing else changes. One that carries FAULT, deviates, or shows movement under load (R43, R59, R64, R65) brings
EMERGENCY with the first of these causes: each reported segment that the carrier does not hold is marked and INTRUSION
posted where it belongs to another party, and each crane with a lock over the carrier is sent HOIST_STOP. Which
INTRUSION entries are posted is log entry 22, the order of the notifications log entry 8, how a COPY (R161) is laid
out log entry 52, and the order of its rules log entry 64. -/
def Obligations.IdleReport : Prop :=
  (∀ (s u : State) (r : Fin 4) (a : ReportArgs) (x : Carrier) (p : Report) (v : ClassVals) (stale : List PendingEntry),
     u = s.radioArrival r → (s.radio r).state ≠ .unconfigured → u.segs.Sorted → u.mode ≠ .config → p = prepare a →
     u.carrier? a.carrier = some x → x.lastSeq ≠ some a.seq → x.state = .idle →
     (∀ n, x.timer = some n → n ≤ x.applied.period * x.applied.window / 100) → p.flags.fault = false →
     (∃ f b, p.front = some f ∧ p.rear = some b ∧ (u.seg f).hold = .held (.carrier a.carrier) .standing ∧
       (u.seg b).hold = .held (.carrier a.carrier) .standing) →
     p.speed = 0 ∨ (∀ i, (u.seg i).hold = .held (.carrier a.carrier) .standing → (u.seg i).lock.rows = []) →
     v = u.classVals (u.classOf a.carrier) →
     stale = ((u.entry? a.carrier).filter (fun e => decide (e.list.head? ≠ p.front))).toList →
     ∃ (w : Work) (t : State), exec (.positionReport r a) s = .next t.pump ∧ w.finish.Copied t r a 0 ∧
       (Work.start u (some a.carrier)).Grown w (fun d => d = a.carrier) ∧ w.reexam = false ∧
       w.s.carrier? a.carrier = some { x with
         applied := v, timer := some v.period, lastSeq := some a.seq, front := p.front, frontRem := p.frontRem
         rear := p.rear, speed := p.speed, flags := p.flags, lastTime := some u.now, earlyRun := false } ∧
       (∀ d, d ≠ a.carrier → w.s.carrier? d = u.carrier? d) ∧
       w.s.learning = u.learning.put a.carrier ⟨r, u.now, u.now + BitVec.ofNat 32 (1000 * u.cfg.aging)⟩ ∧
       w.s.waiting = (if stale = [] then u.waiting
         else u.waiting.filter (fun e => decide (e.carrier ≠ a.carrier))) ∧
       (∀ m, w.s.dlink m = (u.dlink m).offers u.now
         (stale.map (fun e => ⟨.pendingStale, u.now, .carrier a.carrier, [.half e.tag, .byte 1]⟩))) ∧
       w.s = { u with waiting := w.s.waiting, carriers := w.s.carriers, learning := w.s.learning,
                      dispatch := w.s.dispatch }) ∧
  (∀ (r : SegDyn) (c : Nat) (q : Party),
    ((∃ k, r.hold = .held q k) ∨ r.intruder ≠ none → r.mark q = r) ∧
    ((∀ k, r.hold ≠ .held q k) → r.intruder = none → r.mark q = { r with intruder := some q }) ∧
    (r.otherParty c = some q ↔
      q ≠ .carrier c ∧ (r.holder = some q ∨ (r.holder = none ∧ r.intruder = some q)))) ∧
  (∀ (s u : State) (r : Fin 4) (a : ReportArgs) (x : Carrier) (p : Report) (v : ClassVals) (own : Nat → Prop)
    (dev load : Bool) (cause : EmergencyCause) (stale : List PendingEntry),
    u = s.radioArrival r → (s.radio r).state ≠ .unconfigured → p = prepare a → u.Accepts a x → x.state = .idle →
    v = u.classVals (u.classOf a.carrier) →
    (∀ i, own i ↔ (u.seg i).hold = .held (.carrier a.carrier) .standing) →
    (dev = true ↔ p.front = none ∨ ∃ i ∈ p.ground, ¬ own i) →
    (load = true ↔ 0 < p.speed ∧ ∃ i, own i ∧ (u.seg i).lock.rows ≠ []) →
    (p.flags.fault = true ∧ cause = .carrierFault) ∨ (p.flags.fault = false ∧ dev = true ∧ cause = .deviation) ∨
      (p.flags.fault = false ∧ dev = false ∧ load = true ∧ cause = .movedUnderLoad) →
    stale = (u.entry? a.carrier).toList →
    ∃ (w : Work) (t : State), exec (.positionReport r a) s = .next t.pump ∧ w.finish.Copied t r a 0 ∧
      (Work.start u (some a.carrier)).Grown w (fun d => d = a.carrier) ∧ w.reexam = false ∧
      w.s.carrier? a.carrier = some { x.reported v p u.now with state := .emergency, cause := some cause } ∧
      (∀ d, d ≠ a.carrier → w.s.carrier? d = u.carrier? d) ∧
      (∀ i, w.s.seg i = if dev = true ∧ i ∈ p.ground ∧ i < u.grid.lanes * u.grid.bays then
          (u.seg i).mark (.carrier a.carrier)
        else u.seg i) ∧
      w.s.waiting = u.waiting.filter (fun e => decide (e.carrier ≠ a.carrier)) ∧
      (∀ m, w.s.dlink m = (u.dlink m).offers u.now
        (⟨.carrierState, u.now, .carrier a.carrier, [.byte 2, .byte 4, .byte cause.code]⟩ ::
          stale.map (fun e => ⟨.pendingStale, u.now, .carrier a.carrier, [.half e.tag, .byte 0]⟩) ++
          if dev then u.intrusions a.carrier p.ground else [])) ∧
      (∀ k, (load = true → (∃ i, own i ∧ k ∈ (u.seg i).lock.keys) →
          w.s.craneLink k = ((u.craneLink k).join (.hoistStop (u.crane k).lastSeq)).transmit) ∧
        (load = false ∨ (∀ i, own i → k ∉ (u.seg i).lock.keys) → w.s.craneLink k = u.craneLink k)) ∧
      w.s.learning = u.heard a.carrier r ∧
      w.s = { u with segs := w.s.segs, waiting := w.s.waiting, carriers := w.s.carriers, craneLinks := w.s.craneLinks,
                     learning := w.s.learning, dispatch := w.s.dispatch })

/-- An accepted report of an AUTHORIZED carrier that moves along its route (R30, R31, R60): the indices follow it and
the entries behind its rear that it holds become free; at rest within the stop tolerance of the stop on the last entry
the route is complete, and the carrier stands IDLE on what it reported, with no other hold. A report that carries
FAULT or deviates (R43, R60, R64) brings EMERGENCY with every hold and the route kept, marks each reported segment
that the carrier does not hold, and posts INTRUSION where it belongs to another party. A report of no front after the
gate that ends the route is the gate exit (R32): every hold and the route go, and the carrier is AWAY.
Each entry behind the rear, and each other hold, that becomes free calls for re-examination (R21).
That a deviating report with FAULT still marks the ground, and one that meets the gate exit does not, is log entry 23,
which INTRUSION entries are posted log entry 22, that CARRIER_STATE comes before them log entry 8, and that a held
segment outside the list deviates log entry 48; how a COPY (R161) is laid out is log entry 52, and the order of its
rules log entry 64. -/
def Obligations.AuthorizedReport : Prop :=
  (∀ (s u : State) (r : Fin 4) (a : ReportArgs) (x : Carrier) (p : Report) (v : ClassVals) (route : Route)
     (i j f b : Nat) (moved : Carrier) (done : Prop),
     u = s.radioArrival r → (s.radio r).state ≠ .unconfigured → u.segs.Sorted → u.mode ≠ .config → p = prepare a →
     u.carrier? a.carrier = some x → x.lastSeq ≠ some a.seq → x.state = .authorized →
     (∀ n, x.timer = some n → n ≤ x.applied.period * x.applied.window / 100) → p.flags.fault = false →
     u.route? a.carrier = some route → route.list.Nodup → p.front = some f → p.rear = some b →
     route.list[i]? = some f → route.list[j]? = some b → route.front ≤ i → j ≤ i →
     (∃ k, (u.seg f).hold = .held (.carrier a.carrier) k) → (∃ k, (u.seg b).hold = .held (.carrier a.carrier) k) →
     v = u.classVals (u.classOf a.carrier) →
     moved = { x with
       applied := v, timer := some v.period, lastSeq := some a.seq, front := p.front, frontRem := p.frontRem
       rear := p.rear, speed := p.speed, flags := p.flags, lastTime := some u.now, earlyRun := false } →
     (done ↔ i + 1 = route.list.length ∧ p.speed = 0 ∧
       stopPos u.grid route ≤ frontPos u.grid { route with front := i } p.frontRem + v.stopTol) →
     ∃ (w : Work) (t : State), exec (.positionReport r a) s = .next t.pump ∧ w.finish.Copied t r a 0 ∧
       (Work.start u (some a.carrier)).Grown w (fun d => d = a.carrier) ∧
       (¬ done → w.s.route? a.carrier = some { route with front := i, rear := j } ∧
         w.s.carrier? a.carrier = some moved ∧ w.s.dispatch = u.dispatch ∧
         (w.reexam = true ↔ ∃ k ∈ route.list.take j, (u.seg k).heldBy (.carrier a.carrier) = true) ∧
         (∀ k, w.s.seg k = if k ∈ route.list.take j ∧ (u.seg k).heldBy (.carrier a.carrier) = true then
             { u.seg k with hold := .free }
           else u.seg k)) ∧
       (done → (w.reexam = true ↔ ∃ k, k ≠ f ∧ k ≠ b ∧ (u.seg k).holder = some (.carrier a.carrier)) ∧
         w.s.route? a.carrier = none ∧
         w.s.carrier? a.carrier = some { moved with state := .idle, auth := { x.auth with endPos := none } } ∧
         (∀ m, w.s.dlink m =
           (u.dlink m).offers u.now [⟨.carrierState, u.now, .carrier a.carrier, [.byte 3, .byte 2]⟩]) ∧
         (∀ k, w.s.seg k = if k = f ∨ k = b then { u.seg k with hold := .held (.carrier a.carrier) .standing }
           else if (u.seg k).holder = some (.carrier a.carrier) then { u.seg k with hold := .free }
           else u.seg k)) ∧
       (∀ d, d ≠ a.carrier → w.s.carrier? d = u.carrier? d ∧ w.s.route? d = u.route? d) ∧
       w.s.learning = u.learning.put a.carrier ⟨r, u.now, u.now + BitVec.ofNat 32 (1000 * u.cfg.aging)⟩ ∧
       w.s = { u with segs := w.s.segs, routes := w.s.routes, carriers := w.s.carriers, learning := w.s.learning,
                      dispatch := w.s.dispatch }) ∧
  (∀ (s u : State) (r : Fin 4) (a : ReportArgs) (x : Carrier) (p : Report) (v : ClassVals) (route : Route)
    (placed exits dev : Bool) (cause : EmergencyCause),
    u = s.radioArrival r → (s.radio r).state ≠ .unconfigured → p = prepare a → u.Accepts a x → x.state = .authorized →
    v = u.classVals (u.classOf a.carrier) → u.route? a.carrier = some route → route.list.Nodup →
    (placed = true ↔ ∃ i j f b, p.front = some f ∧ p.rear = some b ∧ route.list[i]? = some f ∧
      route.list[j]? = some b ∧ route.front ≤ i ∧ j ≤ i ∧ (∃ k, (u.seg f).hold = .held (.carrier a.carrier) k) ∧
      ∃ k, (u.seg b).hold = .held (.carrier a.carrier) k) →
    (exits = true ↔ p.front = none ∧ ∃ last, route.list.getLast? = some last ∧ x.front = some last ∧
      last < u.grid.lanes * u.grid.bays ∧ (u.grid.record last).usable = true ∧ (u.grid.record last).kind = .gate) →
    dev = (!placed && !exits) →
    (p.flags.fault = true ∧ cause = .carrierFault ∨ p.flags.fault = false ∧ dev = true ∧ cause = .deviation →
      ∃ (w : Work) (t : State), exec (.positionReport r a) s = .next t.pump ∧ w.finish.Copied t r a 0 ∧
        (Work.start u (some a.carrier)).Grown w (fun d => d = a.carrier) ∧ w.reexam = false ∧
        w.s.carrier? a.carrier = some { x.reported v p u.now with state := .emergency, cause := some cause } ∧
        (∀ d, d ≠ a.carrier → w.s.carrier? d = u.carrier? d) ∧
        (∀ i, w.s.seg i = if dev = true ∧ i ∈ p.ground ∧ i < u.grid.lanes * u.grid.bays then
            (u.seg i).mark (.carrier a.carrier)
          else u.seg i) ∧
        (∀ m, w.s.dlink m = (u.dlink m).offers u.now
          (⟨.carrierState, u.now, .carrier a.carrier, [.byte 3, .byte 4, .byte cause.code]⟩ ::
            if dev then u.intrusions a.carrier p.ground else [])) ∧
        w.s.learning = u.heard a.carrier r ∧
        w.s = { u with segs := w.s.segs, carriers := w.s.carriers, learning := w.s.learning,
                       dispatch := w.s.dispatch }) ∧
    (p.flags.fault = false → exits = true →
      ∃ (w : Work) (t : State), exec (.positionReport r a) s = .next t.pump ∧ w.finish.Copied t r a 0 ∧
        (Work.start u (some a.carrier)).Grown w (fun d => d = a.carrier) ∧
        (w.reexam = true ↔ ∃ i, (u.seg i).holder = some (.carrier a.carrier)) ∧
        w.s.carrier? a.carrier = some { x.reported v p u.now with
          state := .away, timer := none, auth := { x.auth with endPos := none } } ∧
        w.s.route? a.carrier = none ∧
        (∀ d, d ≠ a.carrier → w.s.carrier? d = u.carrier? d ∧ w.s.route? d = u.route? d) ∧
        (∀ i, w.s.seg i = if (u.seg i).holder = some (.carrier a.carrier) then { u.seg i with hold := .free }
          else u.seg i) ∧
        (∀ m, w.s.dlink m = (u.dlink m).offers u.now
          [⟨.carrierState, u.now, .carrier a.carrier, [.byte 3, .byte 1]⟩]) ∧
        w.s.learning = u.heard a.carrier r ∧
        w.s = { u with segs := w.s.segs, routes := w.s.routes, carriers := w.s.carriers, learning := w.s.learning,
                       dispatch := w.s.dispatch }))

/-- An entry report of a carrier that is OFFLINE or AWAY, outside CONFIG (R58, R62, R63, R125): entry is made on ground
that is inside the grid, free or its own, at rest and without FAULT, from AWAY only at a usable gate; a carrier that
stands nowhere becomes AWAY; otherwise the carrier keeps its state and takes the entry-block note with the reason of the
first line of R62 that matches, and ENTRY_BLOCKED is posted when reason or segment differ from the note before.
That a blocked entry report copies the values of the class too is log entry 15, how a COPY (R161) is laid out log entry
52, the order of its rules log entry 64, and that BAD_SEGMENT names the front before the rear log entry 67. -/
def Obligations.EntryReport : Prop :=
  ∀ (s u : State) (r : Fin 4) (a : ReportArgs) (x seen : Carrier) (p : Report) (v : ClassVals) (may : Prop),
    u = s.radioArrival r → (s.radio r).state ≠ .unconfigured → u.mode ≠ .config → p = prepare a →
    u.carrier? a.carrier = some x → x.lastSeq ≠ some a.seq → x.state = .offline ∨ x.state = .away →
    v = u.classVals (u.classOf a.carrier) →
    seen = { x with
      applied := v, timer := none, lastSeq := some a.seq, front := p.front, frontRem := p.frontRem, rear := p.rear
      speed := p.speed, flags := p.flags, lastTime := some u.now, earlyRun := false } →
    (may ↔ p.flags.fault = false ∧ p.speed = 0 ∧ ∃ f b, p.front = some f ∧ p.rear = some b ∧
      f < u.grid.lanes * u.grid.bays ∧ b < u.grid.lanes * u.grid.bays ∧
      (x.state = .away → (u.grid.record f).usable = true ∧ (u.grid.record f).kind = .gate) ∧
      (∀ i, i = f ∨ i = b → (u.seg i).hold = .free ∨ (u.seg i).holder = some (.carrier a.carrier))) →
    ∃ (w : Work) (t : State), exec (.positionReport r a) s = .next t.pump ∧ w.finish.Copied t r a 2 ∧
      w.reexam = false ∧
      (may → Work.Grown { Work.start u (some a.carrier) with settled := [a.carrier] } w (fun d => d = a.carrier)) ∧
      (¬ may → (Work.start u (some a.carrier)).Grown w (fun d => d = a.carrier)) ∧
      (may → w.s.carrier? a.carrier = some { seen with state := .idle, timer := some v.period, note := none } ∧
        (∀ i, w.s.seg i = if p.front = some i ∨ p.rear = some i then
            { u.seg i with hold := .held (.carrier a.carrier) .standing }
          else u.seg i) ∧
        (∀ m, w.s.dlink m = (u.dlink m).offers u.now
          [⟨.carrierState, u.now, .carrier a.carrier, [.byte x.state.code, .byte 2]⟩])) ∧
      (¬ may → w.s.segs = u.segs) ∧
      (p.front = none → p.rear = none → w.s.carrier? a.carrier = some { seen with state := .away } ∧
        (∀ m, w.s.dlink m = if x.state = .away then u.dlink m else (u.dlink m).offers u.now
          [⟨.carrierState, u.now, .carrier a.carrier, [.byte 0, .byte 1]⟩])) ∧
      (¬ may → ¬ (p.front = none ∧ p.rear = none) → ∀ (n : EntryNote) (holder : List Val) (cells f b : Nat)
          (taken : Nat → Prop), cells = u.grid.lanes * u.grid.bays → f = p.front.getD 65535 → b = p.rear.getD 65535 →
        (∀ i, taken i ↔ (u.seg i).hold ≠ .free ∧ (u.seg i).holder ≠ some (.carrier a.carrier)) →
        (p.flags.fault = true ∧ n = ⟨.carrierFault, none⟩ ∧ holder = []) ∨
        (p.flags.fault = false ∧
          (((p.front = none ∨ cells ≤ f) ∧ n = ⟨.badSegment, some f⟩ ∧ holder = []) ∨
          (p.front = some f ∧ f < cells ∧ cells ≤ b ∧ n = ⟨.badSegment, some b⟩ ∧ holder = []) ∨
          (p.front = some f ∧ f < cells ∧ b < cells ∧
            ((x.state = .away ∧ ¬ ((u.grid.record f).usable = true ∧ (u.grid.record f).kind = .gate) ∧
              n = ⟨.notGate, some f⟩ ∧ holder = []) ∨
            ((x.state = .away → (u.grid.record f).usable = true ∧ (u.grid.record f).kind = .gate) ∧
              ((0 < p.speed ∧ n = ⟨.moving, none⟩ ∧ holder = []) ∨
              (p.speed = 0 ∧ taken f ∧ n = ⟨.conflict, some f⟩ ∧ holder = partyVals (u.seg f).holder) ∨
              (p.speed = 0 ∧ ¬ taken f ∧ taken b ∧ n = ⟨.conflict, some b⟩ ∧
                holder = partyVals (u.seg b).holder))))))) →
        w.s.carrier? a.carrier = some { seen with note := some n } ∧
        (∀ m, w.s.dlink m = if x.note = some n then u.dlink m else (u.dlink m).offers u.now
          [⟨.entryBlocked, u.now, .carrier a.carrier,
            .byte n.reason.code :: (n.segment.map Val.half).toList ++ holder⟩])) ∧
      (∀ d, d ≠ a.carrier → w.s.carrier? d = u.carrier? d) ∧ w.s.learning = u.heard a.carrier r ∧
      w.s = { u with segs := w.s.segs, carriers := w.s.carriers, learning := w.s.learning, dispatch := w.s.dispatch }

/-- A supervision timer that has reached 0: IDLE, AUTHORIZED and EMERGENCY become MISSING for the grace time (R66),
and MISSING becomes LOST, which freezes every segment the carrier holds (R44, R68).
The order of CARRIER_MISSING before PENDING_STALE is log entry 8, PENDING_STALE at the entry to LOST log entry 34, and
the content of CARRIER_MISSING and CARRIER_LOST log entry 41. -/
def Obligations.SupervisionAndGraceExpiry : Prop :=
  ∀ (s : State) (c : Nat) (r : Carrier), s.carrier? c = some r → r.timer = some 0 → s.segs.Sorted →
    (r.state = .idle ∨ r.state = .authorized ∨ r.state = .emergency →
      ∀ stale, stale = (if r.state = .idle then (s.entry? c).toList else []) →
      ∃ w : Work, exec (.supervisionTimerExpiry c) s = .next w.finish.pump ∧
        (Work.start s none).Grown w (fun d => d = c) ∧ w.reexam = false ∧
        w.s.carrier? c = some { r with state := .missing, prior := some r.state, timer := some r.applied.grace } ∧
        (∀ d, d ≠ c → w.s.carrier? d = s.carrier? d) ∧
        w.s.waiting = (if stale = [] then s.waiting else s.waiting.filter (fun e => decide (e.carrier ≠ c))) ∧
        (∀ m, w.s.dlink m = (s.dlink m).offers s.now
          (⟨.carrierMissing, s.now, .carrier c, [.byte r.state.code, timeVal? r.lastTime]⟩ ::
            stale.map (fun e => ⟨.pendingStale, s.now, .carrier c, [.half e.tag, .byte 0]⟩))) ∧
        w.s = { s with waiting := w.s.waiting, carriers := w.s.carriers, dispatch := w.s.dispatch }) ∧
    (r.state = .missing → ∀ held : List Nat,
      (∀ i, i ∈ held ↔ ∃ k, (s.seg i).hold = .held (.carrier c) k) → held.Nodup →
      ∃ w : Work, exec (.graceExpiry c) s = .next w.finish.pump ∧
        (Work.start s none).Grown w (fun d => d = c) ∧ w.reexam = false ∧
        w.s.carrier? c = some { r with
          state := .lost, prior := none, cause := none, timer := none, lostSince := some s.now, sighting := none } ∧
        (∀ d, d ≠ c → w.s.carrier? d = s.carrier? d) ∧
        (∀ i, (∀ k, (s.seg i).hold = .held (.carrier c) k →
            w.s.seg i = { s.seg i with hold := .frozen (.carrier c) k }) ∧
          (i ∉ held → w.s.seg i = s.seg i)) ∧
        w.s.waiting = s.waiting.filter (fun e => decide (e.carrier ≠ c)) ∧
        (∀ m, w.s.dlink m = (s.dlink m).offers s.now
          ((s.entry? c).toList.map (fun e => ⟨.pendingStale, s.now, .carrier c, [.half e.tag, .byte 0]⟩) ++
            [⟨.carrierLost, s.now, .carrier c, [.byte held.length, timeVal? r.lastTime]⟩])) ∧
        w.s = { s with segs := w.s.segs, waiting := w.s.waiting, carriers := w.s.carriers,
                       dispatch := w.s.dispatch })

/-! ## Authority -/

/-- The end of authority of an AUTHORIZED carrier (R79, R80): its own front while it stands in an obstacle, otherwise
the length of the entry before the first obstacle ahead, otherwise the stop of the route. Of any other (R81): in IDLE
its front at the front offset, or failing a front its rear at offset 0; in EMERGENCY, MISSING and LOST, and of an IDLE
carrier being deregistered, the same but only in a segment that it holds, HELD or FROZEN, and otherwise NONE; in OFFLINE
and AWAY NONE. Such an end has no route position. -/
def Obligations.EndOfAuthority : Prop :=
  (∀ (s : State) (c : Nat) (r : Carrier) (route : Route) (off : Nat) (seg : Nat → Nat) (blocks : Nat → Prop),
    r.state = .authorized → s.route? c = some route → route.front < route.list.length →
    (∀ k, seg k = route.list.getD k 0) → (∀ k, blocks k ↔ (s.seg (seg k)).obstacle c = true) →
    off = (s.grid.record (seg route.front)).length - min r.frontRem (s.grid.record (seg route.front)).length →
    ((∃ k, route.rear ≤ k ∧ k ≤ route.front ∧ blocks k) →
      s.endPoint c r false = ⟨some (seg route.front), off, some (routePos s.grid route.list route.front + off),
        route.front, true⟩) ∧
    (∀ k, route.front < k → k < route.list.length → blocks k → (∀ j, route.rear ≤ j → j < k → ¬ blocks j) →
      (∀ j, route.front < j → j < k → ¬ blocks j) →
      s.endPoint c r false = ⟨some (seg (k - 1)), (s.grid.record (seg (k - 1))).length,
        some (routePos s.grid route.list k), k - 1, false⟩) ∧
    ((∀ k, route.rear ≤ k ∨ route.front < k → k < route.list.length → ¬ blocks k) →
      s.endPoint c r false = ⟨some (seg (route.list.length - 1)), route.stop,
        some (routePos s.grid route.list (route.list.length - 1) + route.stop), route.list.length - 1, false⟩)) ∧
  (∀ (s : State) (c : Nat) (r : Carrier) (leaving : Bool) (own : Nat → Prop) (ahead behind : Nat → EndPoint),
    (∀ i, own i ↔ ∃ k, (s.seg i).hold = .held (.carrier c) k ∨ (s.seg i).hold = .frozen (.carrier c) k) →
    (∀ f, ahead f = ⟨some f, (s.grid.record f).length - min r.frontRem (s.grid.record f).length, none, 0, false⟩) →
    (∀ b, behind b = ⟨some b, 0, none, 0, false⟩) →
    (r.state = .offline ∨ r.state = .away → s.endPoint c r leaving = ⟨none, 0, none, 0, false⟩) ∧
    (r.state = .idle → leaving = false →
      (∀ f, r.front = some f → s.endPoint c r leaving = ahead f) ∧
      (∀ b, r.front = none → r.rear = some b → s.endPoint c r leaving = behind b)) ∧
    (r.state = .emergency ∨ r.state = .missing ∨ r.state = .lost ∨ (r.state = .idle ∧ leaving = true) →
      (∀ f, r.front = some f → own f → s.endPoint c r leaving = ahead f) ∧
      ((∀ f, r.front = some f → ¬ own f) →
        (∀ b, r.rear = some b → own b → s.endPoint c r leaving = behind b) ∧
        ((∀ b, r.rear = some b → ¬ own b) → s.endPoint c r leaving = ⟨none, 0, none, 0, false⟩))))

/-- One run for a carrier that no report of it has started (R76 to R78, R82, R83, R86 to R90, R127): the command by
the table of R86, one frame on every UP link that its routing names, the version, of the counter and of the route
record, one higher for an end that falls on the same route and that the request has not counted yet, and the authority
fields from the frame; the check cap follows the cap sent (O40), or is set to it directly for a carrier that the
request has settled in IDLE. A run that a report of the carrier has started makes step 1 first, the promotion and the
overspeed test (O40), and is then such a run on what that leaves. -/
def Obligations.AuthorityRun : Prop :=
  (∀ (s : State) (c : Nat) (r : Carrier) (e : EndPoint),
    (r.state = .emergency → s.commandOf c r false e = (.emergency, 0)) ∧
    (r.state ≠ .emergency → s.mode ≠ .active → s.commandOf c r false e = (.stopNow, 0)) ∧
    (r.state = .offline ∨ r.state = .away ∨ r.state = .missing ∨ r.state = .lost →
      s.commandOf c r false e = (.stopNow, 0)) ∧
    (r.state = .idle → s.mode = .active → s.segs.Sorted → ∀ stop : Prop,
      (stop ↔ ∃ i, (s.seg i).hold = .held (.carrier c) .standing ∧ (s.seg i).obstacle c = true) →
      (stop → s.commandOf c r false e = (.stopNow, 0)) ∧ (¬ stop → s.commandOf c r false e = (.hold, 0))) ∧
    (r.state = .authorized → s.mode = .active → ∀ route code, s.route? c = some route →
      code = s.speedCode r route e →
      (e.blocked = true → s.commandOf c r false e = (.stopNow, 0)) ∧
      (e.blocked = false → code = 0 → s.commandOf c r false e = (.hold, 0)) ∧
      (e.blocked = false → code ≠ 0 → s.commandOf c r false e = (.proceed, code)))) ∧
  (∀ (w : Work) (c : Nat) (r : Carrier) (e : EndPoint) (f : Authority) (bump : Prop) (t : State),
    w.report ≠ some c → w.s.carrier? c = some r → e = w.s.endPoint c r false → t = (w.authorityRun c false).s →
    (bump ↔ r.state = .authorized ∧ c ∉ w.bumped ∧
      ∃ new old, e.pos = some new ∧ r.auth.endPos = some old ∧ new < old) →
    f = ⟨c, r.lastSeq, t.version c, (w.s.commandOf c r false e).1, e.seg, e.off, (w.s.commandOf c r false e).2,
      w.s.upcomingOf c r (w.s.commandOf c r false e).1 e⟩ →
    (bump → t.version c = (w.s.version c + 1) % 256 ∧
      t.route? c = (w.s.route? c).map (fun q => { q with version := t.version c })) ∧
    (¬ bump → t.version c = w.s.version c ∧ t.route? c = w.s.route? c) ∧
    (∀ route, r.state = .authorized → w.s.route? c = some route → f.command = .proceed ∨ f.command = .hold →
      f.upcoming = (((route.list.take (e.entry + 1)).drop route.front).take 8).map some) ∧
    (f.command = .stopNow ∨ f.command = .emergency ∨ r.state ≠ .authorized → f.upcoming = [e.seg]) ∧
    (∀ k, k < 4 → ∀ goes : Prop,
      (goes ↔ (w.s.radio k).state = .up ∧
        (((f.command = .stopNow ∨ f.command = .emergency) ∧ (r.state = .missing ∨ r.state = .lost)) ∨
          w.s.learning.get? c = none ∨ ∃ x, w.s.learning.get? c = some x ∧ x.link = k)) →
      (goes → t.radio k = ((w.s.radio k).join f).transmit) ∧ (¬ goes → t.radio k = w.s.radio k)) ∧
    (∃ x : AuthorityFields, t.carrier? c = some { r with auth := x } ∧ x.command = some f.command ∧
      x.endSeg = f.endSeg ∧ x.endOff = f.endOff ∧ x.lastCap = 10 * f.code ∧ x.overspeeds = r.auth.overspeeds ∧
      (x.endPos = if e.pos.isSome then e.pos else r.auth.endPos) ∧
      (c ∈ w.settled → x.checkCap = 10 * f.code ∧ x.pendingCap = none) ∧
      (c ∉ w.settled → x.checkCap = (r.auth.follow w.s.now r.applied (10 * f.code)).checkCap ∧
        x.pendingCap = (r.auth.follow w.s.now r.applied (10 * f.code)).pendingCap)) ∧
    (∀ d, d ≠ c → t.carrier? d = w.s.carrier? d ∧ t.route? d = w.s.route? d ∧ t.version d = w.s.version d) ∧
    t = { w.s with routes := t.routes, versions := t.versions, carriers := t.carriers, radios := t.radios }) ∧
  (∀ (w : Work) (c : Nat) (leaving : Bool), w.report = some c →
    (w.authorityRun c leaving).s = (Work.authorityRun { w.testSpeed c with report := none } c leaving).s)

/-- The speed code of an AUTHORIZED carrier (R84, R85), with the square root rounded down: the geometric cap of the
effective distance, the carrier's own limit and the lowest limit of the ground up to the end entry, in units of 10 cm/s
rounded down. The check cap (R88, R89) and the overspeed test of a run that a report has started (R76, R89): a rise is
checked at once, a fall after the reaction and braking lag, or later still where an earlier fall is pending for longer;
a report above the check cap and the tolerance is counted, notified and brings EMERGENCY.
How part times are compared across their wrap is log entry 32, the order of the notifications log entry 8, the width of
the check cap in OVERSPEED log entry 9, and that the limit of an unusable rear segment is counted log entry 39. -/
def Obligations.SpeedAndCheckCap : Prop :=
  ((∀ n, n < 2 ^ 40 → isqrt n * isqrt n ≤ n ∧ n < (isqrt n + 1) * (isqrt n + 1)) ∧
  (∀ (s : State) (r : Carrier) (route : Route) (e : EndPoint) (pos cap low : Nat) (d : Int), e.pos = some pos →
    d = (pos : Int) - frontPos s.grid route r.frontRem - r.applied.margin
      - ((r.speed * r.applied.latency + 999) / 1000 : Nat) →
    (d ≤ 0 → cap = 0) → (0 < d → cap = isqrt (2 * r.applied.decel * d.toNat)) →
    (∃ k, route.rear ≤ k ∧ k ≤ e.entry ∧ k < route.list.length ∧
      low = (s.grid.record (route.list.getD k 0)).limit) →
    (∀ k, route.rear ≤ k → k ≤ e.entry → k < route.list.length →
      low ≤ (s.grid.record (route.list.getD k 0)).limit) →
    s.speedCode r route e = min (min cap r.applied.maxSpeed) low / 10)) ∧
  ((∀ (now : Time) (v : ClassVals) (new lag left : Nat) (a : AuthorityFields), 1 ≤ v.decel →
    (a.pendingCap = none → left = 0) →
    (∀ p, a.pendingCap = some p → ((p.effective - p.set).toNat ≤ (now - p.set).toNat → left = 0) ∧
      ((now - p.set).toNat < (p.effective - p.set).toNat → left = (p.effective - now).toNat)) →
    lag = v.latency + (1000 * (a.checkCap - new) + (v.decel - 1)) / v.decel →
    (new = a.lastCap → a.follow now v new = a) ∧
    (new ≠ a.lastCap → a.checkCap ≤ new →
      a.follow now v new = { a with checkCap := new, pendingCap := none, lastCap := new }) ∧
    (new ≠ a.lastCap → new < a.checkCap →
      a.follow now v new =
        { a with pendingCap := some ⟨new, now + BitVec.ofNat 32 (max left lag), now⟩, lastCap := new }) ∧
    (∀ p, a.pendingCap = some p →
      ((p.effective - p.set).toNat ≤ (now - p.set).toNat →
        a.promote now = { a with checkCap := p.cap, pendingCap := none }) ∧
      ((now - p.set).toNat < (p.effective - p.set).toNat → a.promote now = a))) ∧
  (∀ (w : Work) (c : Nat) (r : Carrier) (a : AuthorityFields) (stale : List PendingEntry),
    w.s.carrier? c = some r → r.state = .idle ∨ r.state = .authorized → a = r.auth.promote w.s.now →
    stale = (if r.state = .idle then (w.s.entry? c).toList else []) →
    (r.speed ≤ a.checkCap + r.applied.overTol → (w.testSpeed c).s.carrier? c = some { r with auth := a } ∧
      (w.testSpeed c).s.dispatch = w.s.dispatch ∧ (w.testSpeed c).s.waiting = w.s.waiting) ∧
    (a.checkCap + r.applied.overTol < r.speed →
      (w.testSpeed c).s.waiting =
        (if stale = [] then w.s.waiting else w.s.waiting.filter (fun x => decide (x.carrier ≠ c))) ∧
      (w.testSpeed c).s.carrier? c = some { r with
        state := .emergency, cause := some .overspeed
        auth := { a with overspeeds := min (a.overspeeds + 1) 65535 } } ∧
      (∀ m, (w.testSpeed c).s.dlink m = (w.s.dlink m).offers w.s.now
        ([⟨.overspeed, w.s.now, .carrier c, [.half r.speed, .half a.checkCap, .byte r.applied.overTol]⟩,
          ⟨.carrierState, w.s.now, .carrier c, [.byte r.state.code, .byte 4, .byte 0]⟩] ++
          stale.map (fun x => ⟨.pendingStale, w.s.now, .carrier c, [.half x.tag, .byte 0]⟩))))) ∧
  (∀ (w : Work) (c : Nat) (r : Carrier), w.s.carrier? c = some r →
    (r.state ≠ .idle → r.state ≠ .authorized → (w.testSpeed c).s.dispatch = w.s.dispatch ∧
      (w.testSpeed c).s.waiting = w.s.waiting ∧
      (w.testSpeed c).s.carrier? c = some { r with auth := r.auth.promote w.s.now }) ∧
    (∀ d, d ≠ c → (w.testSpeed c).s.carrier? d = w.s.carrier? d) ∧
    (w.testSpeed c).s = { w.s with
      carriers := (w.testSpeed c).s.carriers, waiting := (w.testSpeed c).s.waiting
      dispatch := (w.testSpeed c).s.dispatch }))

/-! ## The cranes -/

/-- SET_CRANE of either part (R94, R95): the checks, and the effective configuration written whole; a changed filter
length sets the candidate count to 0, and nothing else changes. A part selector of 2 or more names no part and is
refused. The bits of the enable set that name no slot are ignored (R172); that the set is read by its four bits, is
cut to the slots of the list, and sets CLAMPED only for a named bit, is log entry 14; the widths of the values in the
reply are log entry 9, and which of several bad fields is named log entry 38. -/
def Obligations.SetCrane : Prop :=
  ∀ (s u : State) (l : DLink) (k : Nat) (g : GeometryArgs) (o : OperatingArgs) (lanes : List Nat), u = s.taken l →
    s.hasRoom l → lanes = [g.lane0, g.lane1, g.lane2, g.lane3].take g.slotCount →
    (∀ why detail, FirstFails [
        (.unknownCrane, fun d => 8 ≤ k ∧ d = []), (.badMode, fun d => u.mode ≠ .config ∧ d = []),
        (.badValue, fun d => (g.slotCount = 0 ∨ 4 < g.slotCount) ∧ d = [.field 3]),
        (.badValue, fun d => ∃ pre x post, lanes = pre ++ x :: post ∧ (∀ y ∈ pre, y < 16) ∧ 16 ≤ x ∧
          d = [.field (4 + pre.length)]),
        (.badValue, fun d => 16 ≤ g.waterside ∧ d = [.field 8]),
        (.badValue, fun d => 16 ≤ g.landside ∧ d = [.field 9]), (.badValue, fun d => 2 ≤ g.present ∧ d = [.field 2]),
        (.badValue, fun d => 2 ≤ o.fault ∧ d = [.field 15]),
        (.badValue, fun d => 4 ≤ o.crossing ∧ d = [.field 16])] why detail →
      exec (.setCrane l k 0 g o) s = .next (u.answered l ⟨0x34, .refused, why, false, detail⟩)) ∧
    (∀ why detail, FirstFails [
        (.unknownCrane, fun d => 8 ≤ k ∧ d = []), (.badValue, fun d => 2 ≤ o.fault ∧ d = [.field 15]),
        (.badValue, fun d => 4 ≤ o.crossing ∧ d = [.field 16])] why detail →
      exec (.setCraneOperating l k o) s = .next (u.answered l ⟨0x34, .refused, why, false, detail⟩) ∧
      exec (.setCrane l k 1 g o) s = .next (u.answered l ⟨0x34, .refused, why, false, detail⟩)) ∧
    (∀ sel, 2 ≤ sel →
      (8 ≤ k → exec (.setCrane l k sel g o) s = .next (u.answered l ⟨0x34, .refused, .unknownCrane, false, []⟩)) ∧
      (k < 8 → exec (.setCrane l k sel g o) s = .next (u.answered l ⟨0x34, .refused, .badValue, false, [.field 1]⟩))) ∧
    (∀ (i : Instr) (base new : CraneConfig) (vals : List Val), k < 8 → o.fault ≤ 1 → o.crossing ≤ 3 →
      (((i = .setCraneOperating l k o ∨ i = .setCrane l k 1 g o) ∧ base = u.craneCfg k ∧ vals = []) ∨
        (i = .setCrane l k 0 g o ∧ u.mode = .config ∧ 1 ≤ g.slotCount ∧ g.slotCount ≤ 4 ∧ (∀ x ∈ lanes, x < 16) ∧
          g.waterside < 16 ∧ g.landside < 16 ∧ g.present ≤ 1 ∧
          base = { u.craneCfg k with
            present := decide (g.present = 1), slotLanes := lanes, waterside := g.waterside, landside := g.landside } ∧
          vals = [.byte g.present, .byte g.slotCount] ++ lanes.map Val.byte ++
            [.byte g.waterside, .byte g.landside])) →
      new = { base with
        enable := BitVec.ofNat 4 o.enable &&& BitVec.ofNat 4 (2 ^ base.slotLanes.length - 1)
        clearance := max 1000 (min o.clearance 40000)
        ceiling := max (max 1000 (min o.ceiling 60000)) (max 1000 (min o.clearance 40000))
        filter := if 8 ≤ o.filter then 8 else if 4 ≤ o.filter then 4 else if 2 ≤ o.filter then 2 else 1
        window := max 1 (min o.window 60)
        fault := if o.fault = 1 then .all else .slot
        crossing := if o.crossing = 0 then .nothing else if o.crossing = 1 then .down
          else if o.crossing = 2 then .up else .both
        timeout := max 100 (min o.timeout 2000) } →
      exec i s = .next (State.answered { u with
          cfg := { u.cfg with cranes := u.cfg.cranes.put k new }
          cranes := if (u.craneCfg k).filter = new.filter then u.cranes
            else u.cranes.put k { u.crane k with count := 0 } } l
        ⟨0x34, .accepted, .none_,
          decide (¬ (new.enable = BitVec.ofNat 4 o.enable ∧ new.clearance = o.clearance ∧ new.ceiling = o.ceiling ∧
            new.filter = o.filter ∧ new.window = o.window ∧ new.timeout = o.timeout)),
          vals ++ [.byte new.enable.toNat, .half new.clearance, .half new.ceiling, .byte new.filter, .byte new.window,
            .byte o.fault, .byte o.crossing, .half new.timeout]⟩))

/-- CLEAR_CRANE (R112): from STANDING it takes VIOLATION off; from TRAVELLING or HALTED, with the hoist up, the gantry
stopped, no fault episode and no other holder of the legs, it settles the crane at its bay with its legs alone and takes
VIOLATION and the crane's marks off; from LINK_LOST it returns every hold, lock and mark of the crane and its record but
for the counters, and a void claim ends with LOWER_REVOKED and CLAIM_LAPSED. Each of these that goes calls for
re-examination. The first check that fails refuses it with its reason and detail, and changes nothing but by the reply.
That a lock reason calls for it though another keeps the lock is log entry 27, how an absent bay is sent log entry 9,
that a refusal for which the rule names no detail has an empty one log entry 35, what TRAVEL_DONE carries log entry 57,
and that all a CLEAR_CRANE asks for is one request with one end log entry 60. -/
def Obligations.ClearCrane : Prop :=
  ∀ (s u : State) (l : DLink) (k : Nat) (c : Crane) (legs : List Nat), u = s.taken l → s.hasRoom l → u.segs.Sorted →
    c = u.crane k →
    legs = [(u.craneCfg k).waterside * u.grid.bays + c.bay.getD 0,
      (u.craneCfg k).landside * u.grid.bays + c.bay.getD 0] →
    (∀ (why : Reason) (detail : List Val) (moves : Prop), (moves ↔ c.state = .travelling ∨ c.state = .halted) →
      FirstFails [
        (.badMode, fun d => u.mode = .config ∧ d = []), (.unknownCrane, fun d => 8 ≤ k ∧ d = []),
        (.badCraneState, fun d => c.state = .offline ∧ d = []),
        (.hoistDown, fun d => c.state ≠ .linkLost ∧ c.filtered ≠ .up ∧ d = []),
        (.moving, fun d => moves ∧ c.flags.stopped = false ∧ d = []),
        (.faultActive, fun d => moves ∧ c.episode = true ∧ d = []),
        (.conflict, fun d => moves ∧ ∃ pre i post, legs = pre ++ i :: post ∧
          (∀ j ∈ pre, (u.seg j).hold = .free ∨ ∃ x, (u.seg j).hold = .held (.crane k) x) ∧ (u.seg i).hold ≠ .free ∧
          (∀ x, (u.seg i).hold ≠ .held (.crane k) x) ∧ d = .half i :: partyVals (u.seg i).holder)] why detail →
      exec (.clearCrane l k) s = .next (u.answered l ⟨0x35, .refused, why, false, detail⟩)) ∧
    (u.mode ≠ .config → k < 8 → c.state = .standing → c.filtered = .up → ∃ w : Work,
      exec (.clearCrane l k) s = .next (w.finish.answered l
        ⟨0x35, .accepted, .none_, false, [.byte 1, byteVal? c.bay, .byte 0]⟩) ∧
        (Work.start u none).Grown w (fun _ => False) ∧
      w.s = { u with segs := w.s.segs } ∧
      (∀ i, (w.s.seg i).hold = (u.seg i).hold ∧ (w.s.seg i).oos = (u.seg i).oos ∧
        (w.s.seg i).intruder = (if (u.seg i).intruder = some (.crane k) then none else (u.seg i).intruder) ∧
        (w.s.seg i).reasonsOf k = { (u.seg i).reasonsOf k with violation := false } ∧
        (∀ m, m ≠ k → (w.s.seg i).reasonsOf m = (u.seg i).reasonsOf m)) ∧
      (w.reexam = true ↔ ∃ i, (u.seg i).intruder = some (.crane k) ∨ ((u.seg i).reasonsOf k).violation = true)) ∧
    (∀ freed : List Nat, u.mode ≠ .config → k < 8 → c.state = .travelling ∨ c.state = .halted →
      c.filtered = .up → c.flags.stopped = true →
      c.episode = false → (∀ i ∈ legs, (u.seg i).hold = .free ∨ ∃ x, (u.seg i).hold = .held (.crane k) x) →
      (∀ i, i ∈ freed ↔ i ∉ legs ∧ ∃ x, (u.seg i).hold = .held (.crane k) x) → freed.Nodup → ∃ w : Work,
      exec (.clearCrane l k) s = .next (w.finish.answered l
        ⟨0x35, .accepted, .none_, false, [.byte 1, byteVal? c.bay, .byte freed.length]⟩) ∧
        (Work.start u none).Grown w (fun _ => False) ∧
      w.s.crane k = { c with state := .standing, target := none } ∧ (∀ m, m ≠ k → w.s.crane m = u.crane m) ∧
      (∀ i, (w.s.seg i).hold =
          (if i ∈ legs then .held (.crane k) .leg else if i ∈ freed then .free else (u.seg i).hold) ∧
        (w.s.seg i).oos = (u.seg i).oos ∧
        (w.s.seg i).intruder = (if (u.seg i).intruder = some (.crane k) then none else (u.seg i).intruder) ∧
        (w.s.seg i).reasonsOf k = { (u.seg i).reasonsOf k with violation := false } ∧
        (∀ m, m ≠ k → (w.s.seg i).reasonsOf m = (u.seg i).reasonsOf m)) ∧
      (∀ m, w.s.dlink m = if c.state = .halted then u.dlink m else (u.dlink m).offers u.now
        [⟨.travelDone, u.now, .crane k, [.byte (c.bay.getD 0), .byte 1]⟩]) ∧
      (w.reexam = true ↔ ∃ i, i ∈ freed ∨ (u.seg i).intruder = some (.crane k) ∨
        ((u.seg i).reasonsOf k).violation = true) ∧
      w.s = { u with segs := w.s.segs, cranes := w.s.cranes, dispatch := w.s.dispatch }) ∧
    (∀ freed : List Nat, u.mode ≠ .config → k < 8 → c.state = .linkLost →
      (∀ i, i ∈ freed ↔ (u.seg i).holder = some (.crane k)) → freed.Nodup →
      ∃ w : Work,
      exec (.clearCrane l k) s = .next (w.finish.answered l
        ⟨0x35, .accepted, .none_, false, [.byte 0, .absent 1, .byte freed.length]⟩) ∧
        (Work.start u none).Grown w (fun _ => False) ∧
      w.s.crane k = Crane.fresh c.frames c.repeats c.implausible ∧ (∀ m, m ≠ k → w.s.crane m = u.crane m) ∧
      (∀ i, (w.s.seg i).hold = (if i ∈ freed then .free else (u.seg i).hold) ∧ (w.s.seg i).oos = (u.seg i).oos ∧
        (w.s.seg i).intruder = (if (u.seg i).intruder = some (.crane k) then none else (u.seg i).intruder) ∧
        (w.s.seg i).reasonsOf k = ⟨false, false, false, false⟩ ∧
        (∀ m, m ≠ k → (w.s.seg i).reasonsOf m = (u.seg i).reasonsOf m)) ∧
      (∀ m, w.s.dlink m = (u.dlink m).offers u.now (c.claim.toList.map (fun x =>
        ⟨.claimLapsed, u.now, .crane k, [.byte x.slot, .half (u.claimCell k x), .byte 4]⟩))) ∧
      (c.claim = none → w.s.craneLinks = u.craneLinks) ∧
      (∀ x, c.claim = some x →
        w.s.craneLink k = ((u.craneLink k).join (.lowerRevoked c.lastSeq x.slot)).transmit ∧
        ∀ m, m ≠ k → w.s.craneLink m = u.craneLink m) ∧
      (w.reexam = true ↔ c.claim ≠ none ∨ ∃ i, i ∈ freed ∨ (u.seg i).intruder = some (.crane k) ∨
        (u.seg i).reasonsOf k ≠ ⟨false, false, false, false⟩) ∧
      w.s = { u with segs := w.s.segs, cranes := w.s.cranes, craneLinks := w.s.craneLinks, dispatch := w.s.dispatch })

/-- Crane frames (R98 to R100, R108, R173): a crane that is not present is counted and no more; a repeated sequence is
counted; in CONFIG the fields are stored and HOIST_STOP is sent; an unusable frame is counted. The first report of an
OFFLINE crane whose legs are free places it STANDING and feeds the filter; where another party holds a leg cell, the
crane is HALTED after a halt take (R42, R99). Any other report is judged by its bay and then by its hoist sample (R98).
In the travel range the crane moves, its legs settle at the bay and the bays behind it are released, until a stop at the
target ends the travel (R110). Any other bay is a gantry violation (R111): GANTRY_STOP, a halt take from the old bay to
the new, the claim ended under VIOLATION, and the crane HALTED. A bay beyond the grid gives no position.
That a whole frame leaves the receiver in HUNT is log entry 11, what an absent crane counts log entry 17, and what
GANTRY_VIOLATION carries log entry 20; the order of notifications is log entry 8, that of the carriers and
cells of a halt take log entry 56, what TRAVEL_DONE carries log entry 57, that all a CRANE_REPORT asks for is one
request with one end log entry 60, and that the record keeps a trolley slot of 4 to 254 log entry 68. -/
def Obligations.CraneFrames : Prop :=
  (∀ (s u : State) (k : Fin 8) (a : CraneReportArgs) (cfg : CraneConfig) (c : Crane), u = s.craneArrival k →
     cfg = s.craneCfg k → c = u.crane k →
     (c = { s.crane k with
         frames := min ((s.crane k).frames + 1) 65535
         timer := if cfg.present = true ∧ ((s.crane k).state = .standing ∨ (s.crane k).state = .travelling ∨
             (s.crane k).state = .halted) then some cfg.timeout else (s.crane k).timer } ∧
       u.craneLink k = { s.craneLink k with rx := Receiver.hunting } ∧
       u = { s with cranes := u.cranes, craneLinks := u.craneLinks }) ∧
     (cfg.present = false → exec (.craneReport k a) s = .next u.pump) ∧
     (∀ kind p, (∀ i, decodeCrane k kind p ≠ .command i) → exec (.craneUnusableFrame k kind p) s = .next (State.pump
       (u.onCraneLink k (fun x => { x with unusable := min (x.unusable + 1) 65535 })))) ∧
     (cfg.present = true → c.lastSeq = some a.seq → exec (.craneReport k a) s = .next (State.pump
       (u.onCrane k (fun x => { x with repeats := min (x.repeats + 1) 65535 })))) ∧
     (∀ stored : Crane, cfg.present = true → c.lastSeq ≠ some a.seq →
       stored = { c with
         lastSeq := some a.seq, trolley := if a.trolley = 255 then none else some a.trolley, height := a.height
         flags := ⟨decide (a.flags % 2 = 1), decide (a.flags / 2 % 2 = 1)⟩ } →
       (u.mode = .config → ∃ t : State, exec (.craneReport k a) s = .next t.pump ∧ t.crane k = stored ∧
         (∀ m, m ≠ k.val → t.crane m = u.crane m) ∧
         t.craneLink k = ((u.craneLink k).join (.hoistStop (some a.seq))).transmit ∧
         t = { u with cranes := t.cranes, craneLinks := t.craneLinks }) ∧
       (∀ (legs : List Nat) (cls : HoistClass), u.mode ≠ .config → c.state = .offline → c.episode = false →
         a.bay < u.grid.bays → 2 ≤ cfg.filter →
         legs = [cfg.waterside * u.grid.bays + a.bay, cfg.landside * u.grid.bays + a.bay] →
         (∀ i ∈ legs, (u.seg i).hold = .free ∨ ∃ x, (u.seg i).hold = .held (.crane k) x) →
         a.height ≤ cfg.ceiling → (∀ t, stored.trolley = some t → t < cfg.slotLanes.length) →
         a.flags / 2 % 2 = 0 →
         cls = (match stored.trolley with
           | some t => if a.height < cfg.clearance then .down t else .up
           | none => .up) →
         ∃ w : Work, exec (.craneReport k a) s = .next w.finish.pump ∧
           (Work.start u none).Grown w (fun _ => False) ∧ w.reexam = false ∧
           w.s.crane k = { stored with
             state := .standing, bay := some a.bay, timer := some cfg.timeout, filtered := .unknown
             candidate := some cls, count := 1 } ∧
           (∀ m, m ≠ k.val → w.s.crane m = u.crane m) ∧
           (∀ i, w.s.seg i = if i ∈ legs then { u.seg i with hold := .held (.crane k) .leg } else u.seg i) ∧
           (∀ m, w.s.dlink m =
             (u.dlink m).offers u.now [⟨.craneLinkUp, u.now, .crane k, [.byte a.bay, .byte 1]⟩]) ∧
           w.s = { u with segs := w.s.segs, cranes := w.s.cranes, dispatch := w.s.dispatch }))) ∧
  (∀ (s u : State) (k : Fin 8) (a : CraneReportArgs) (stored : Crane) (stopped : Bool) (v : Work),
    u = s.craneArrival k → (s.craneCfg k).present = true → (u.crane k).lastSeq ≠ some a.seq → u.mode ≠ .config →
    stored = { u.crane k with
      lastSeq := some a.seq, trolley := if a.trolley = 255 then none else some a.trolley, height := a.height
      flags := ⟨decide (a.flags % 2 = 1), decide (a.flags / 2 % 2 = 1)⟩ } →
    stopped = decide (a.flags % 2 = 1) → v = Work.start (u.onCrane k (fun _ => stored)) none →
    (a.bay < u.grid.bays →
      (stored.state = .offline → exec (.craneReport k a) s =
        .next ((v.placeCrane k a.bay).judgeHoist k true).finish.pump) ∧
      (stored.state = .linkLost → exec (.craneReport k a) s =
        .next (((v.restoreCrane k a.bay).judgeBay k a.bay stopped).judgeHoist k true).finish.pump) ∧
      (stored.state = .standing ∨ stored.state = .travelling ∨ stored.state = .halted → exec (.craneReport k a) s =
        .next ((v.judgeBay k a.bay stopped).judgeHoist k true).finish.pump)) ∧
    (u.grid.bays ≤ a.bay →
      (stored.state = .offline → exec (.craneReport k a) s =
        .next (v.onCrane k (fun c => { c with implausible := min (c.implausible + 1) 65535 })).finish.pump) ∧
      (stored.state ≠ .offline → exec (.craneReport k a) s =
        .next ((v.on (fun t => t.craneSend k (.gantryStop (some a.seq)))).judgeHoist k false).finish.pump))) ∧
  (∀ (w v : Work) (k : Nat) (cells : List Nat), w.s.segs.Sorted → v = w.haltTake k cells →
    w.s.HaltTaken v.s k cells ∧ w.Grown v (w.s.Moved v.s) ∧ v.reexam = w.reexam) ∧
  (∀ (w v : Work) (k b : Nat) (c : Crane), c = w.s.crane k → w.s.segs.Sorted → v = w.placeCrane k b →
    (w.s.foreign k (w.s.legsAt k b) = [] →
      v.s.crane k = { c with
        state := .standing, bay := some b, filtered := .unknown, candidate := none, count := 0
        timer := some (w.s.craneCfg k).timeout } ∧
      (∀ j, j ≠ k → v.s.crane j = w.s.crane j) ∧
      (∀ i, v.s.seg i =
        if i ∈ w.s.legsAt k b then { w.s.seg i with hold := .held (.crane k) .leg } else w.s.seg i) ∧
      (∀ m, v.s.dlink m =
        (w.s.dlink m).offer w.s.now ⟨.craneLinkUp, w.s.now, .crane k, [.byte b, .byte 1]⟩) ∧
      w.Grown v (fun _ => False) ∧ v.reexam = w.reexam ∧
      v.s = { w.s with segs := v.s.segs, cranes := v.s.cranes, dispatch := v.s.dispatch }) ∧
    (w.s.foreign k (w.s.legsAt k b) ≠ [] → ∃ h : State, w.s.HaltTaken h k (w.s.legsAt k b) ∧
      v.s.crane k = { c with
        state := .halted, bay := some b, filtered := .unknown, candidate := none, count := 0
        timer := some (w.s.craneCfg k).timeout } ∧
      (∀ j, j ≠ k → v.s.crane j = w.s.crane j) ∧
      (∀ m, v.s.dlink m = (h.dlink m).offer w.s.now ⟨.craneLinkUp, w.s.now, .crane k, [.byte b, .byte 3]⟩) ∧
      w.Grown v (w.s.Moved v.s) ∧ v.reexam = w.reexam ∧
      v.s = { h with cranes := v.s.cranes, dispatch := v.s.dispatch })) ∧
  (∀ (w v : Work) (k g g' b : Nat) (stopped : Bool) (c : Crane), c = w.s.crane k → w.s.segs.Sorted → c.bay = some g →
    v = w.judgeBay k b stopped →
    ((c.state = .standing ∨ c.state = .halted) ∧ b = g → v = w) ∧
    (c.state = .travelling → c.target = some g' → g < w.s.grid.bays → g' < w.s.grid.bays →
      (g ≤ b ∧ b ≤ g') ∨ (g' ≤ b ∧ b ≤ g) →
      v.s.crane k = { c with
        bay := some b, state := if b = g' ∧ stopped = true then .standing else .travelling
        target := if b = g' ∧ stopped = true then none else some g' } ∧
      (∀ j, j ≠ k → v.s.crane j = w.s.crane j) ∧
      (∀ i, v.s.seg i = if b = g then w.s.seg i
        else if i ∈ w.s.legsAt k b ∧ (w.s.seg i).hold = .held (.crane k) .travel then
          { w.s.seg i with hold := .held (.crane k) .leg }
        else if i ∈ w.s.legsFrom k g b ∧ i ∉ w.s.legsAt k b ∧ (w.s.seg i).heldBy (.crane k) = true then
          { w.s.seg i with hold := .free }
        else w.s.seg i) ∧
      (∀ m, v.s.dlink m = if b = g' ∧ stopped = true then
          (w.s.dlink m).offers w.s.now [⟨.travelDone, w.s.now, .crane k, [.byte b, .byte 0]⟩]
        else w.s.dlink m) ∧
      (v.reexam = true ↔ w.reexam = true ∨ (b ≠ g ∧ ∃ i ∈ w.s.legsFrom k g b, i ∉ w.s.legsAt k b ∧
        (w.s.seg i).heldBy (.crane k) = true)) ∧
      w.Grown v (fun _ => False) ∧
      v.s = { w.s with segs := v.s.segs, cranes := v.s.cranes, dispatch := v.s.dispatch }) ∧
    ((c.state = .travelling ∧ c.target = some g' ∧ ¬ ((g ≤ b ∧ b ≤ g') ∨ (g' ≤ b ∧ b ≤ g))) ∨
      ((c.state = .standing ∨ c.state = .halted) ∧ b ≠ g) →
      ∃ (h : State) (entry : Notif), w.s.HaltTaken h k (w.s.legsFrom k g b) ∧
        entry = ⟨.gantryViolation, w.s.now, .crane k,
          [.byte g, .byte b, .byte (w.s.foreign k (w.s.legsFrom k g b)).length]⟩ ∧
        v.s.crane k = { c with bay := some b, target := none, state := .halted, claim := none } ∧
        (∀ j, j ≠ k → v.s.crane j = w.s.crane j ∧ v.s.craneLink j = w.s.craneLink j) ∧
        (c.claim = none → v.s.segs = h.segs ∧ v.s.carriers = h.carriers ∧
          v.s.craneLink k = ((w.s.craneLink k).join (.gantryStop c.lastSeq)).transmit ∧
          (∀ m, v.s.dlink m = (h.dlink m).offer w.s.now entry)) ∧
        (∀ x i, c.claim = some x → i = w.s.claimCell k x →
          (v.s.seg i).reasonsOf k = { (w.s.seg i).reasonsOf k with violation := true, claim := false } ∧
          (∀ j, j ≠ k → (v.s.seg i).reasonsOf j = (w.s.seg i).reasonsOf j) ∧
          (v.s.seg i).hold = (h.seg i).hold ∧ (v.s.seg i).intruder = (h.seg i).intruder ∧
          (v.s.seg i).oos = (h.seg i).oos ∧ (∀ j, j ≠ i → v.s.seg j = h.seg j) ∧
          (∀ q, v.s.carrier? q = (h.carrier? q).map (fun r =>
            if r.state = .authorized ∧ (w.s.seg i).heldBy (.carrier q) = true then r.asked .hoistViolation else r)) ∧
          v.s.craneLink k =
            ((((w.s.craneLink k).join (.gantryStop c.lastSeq)).transmit).join (.lowerRevoked c.lastSeq x.slot)).transmit ∧
          (∀ m, v.s.dlink m = (h.dlink m).offers w.s.now (h.lockEntries ⟨false, true, false, false⟩ [i] ++
            [⟨.claimLapsed, w.s.now, .crane k, [.byte x.slot, .half i, .byte 2]⟩, entry]))) ∧
        w.Grown v (w.s.Moved v.s) ∧ v.reexam = w.reexam ∧
        v.s = { h with segs := v.s.segs, carriers := v.s.carriers, cranes := v.s.cranes,
                       craneLinks := v.s.craneLinks, dispatch := v.s.dispatch }))

/-- The hoist (R98, R100 to R102, R107): which samples are plausible and their class, DOWN over the trolley slot below
the clearance height and UP otherwise; an implausible sample places FAULT in the lock of its slot, or of every slot,
resets the filter and the fault run and begins a fault episode with CRANE_FAULT, and the UP samples that fill the
fault run end it; the filter takes a class after the filter length of samples of it; HOIST_CROSSING is posted for the
crossings that are selected; a crossing down that a claim takes is a use, a crossing up from a use raises it, and any
other crossing up changes nothing. A crossing down that no claim takes, for want of a claim, under a void one, at a
disabled or another slot, in IN_USE or of a crane that is not STANDING, is a violation: VIOLATION joins the lock,
HOIST_STOP is sent, a carrier that holds the segment IDLE, AUTHORIZED or MISSING is asked into EMERGENCY, and a claim
on that slot that is void or disabled ends, with no LOWER_REVOKED. A change to UP takes LINK off every segment.
Which of several causes CRANE_FAULT names is log entry 26, the end of a run that a lowered filter length has overtaken
log entry 45, the phase start in IN_USE log entry 44, that a claim which ends so sends no LOWER_REVOKED log entry 19,
the order of the notifications log entry 8, that of the slots and carriers log entry 56, what CRANE_FAULT CLEARED
carries log entry 57, that all a sample asks for belongs to one request log entry 60, and that a crossing down from
UNKNOWN under a claim is a use log entry 62. -/
def Obligations.HoistFilterAndCrossings : Prop :=
  (∀ (cfg : CraneConfig) (c : Crane) (position : Bool), faultCause cfg c position = none ↔
    c.height ≤ cfg.ceiling ∧ (∀ t, c.trolley = some t → t < cfg.slotLanes.length) ∧ c.flags.sensorFault = false ∧
      position = true) ∧
  (∀ (n : Nat) (cls : HoistClass) (c : Crane), 1 ≤ n →
    (c.candidate ≠ some cls → c.feed n cls =
      { c with candidate := some cls, count := 1, filtered := if n = 1 then cls else c.filtered }) ∧
    (c.candidate = some cls → c.feed n cls =
      { c with count := min (c.count + 1) n, filtered := if n ≤ c.count + 1 then cls else c.filtered })) ∧
  (∀ t t', crossingsOf .unknown (.down t) = [⟨t, true⟩] ∧ crossingsOf .up (.down t) = [⟨t, true⟩] ∧
    crossingsOf (.down t) .up = [⟨t, false⟩] ∧ crossingsOf .unknown .up = [] ∧
    (t ≠ t' → crossingsOf (.down t) (.down t') = [⟨t, false⟩, ⟨t', true⟩])) ∧
  (∀ (w : Work) (k t : Nat) (c : Crane) (m : Claim), c = w.s.crane k → c.claim = some m → m.slot = t →
    m.void = false →
    (c.state = .standing → (w.s.craneCfg k).enable.getLsbD t = true → m.phase ≠ .inUse →
      (w.cross k ⟨t, true⟩).s.crane k = { c with claim := some { m with phase := .inUse } } ∧
      w.cross k ⟨t, true⟩ = { w with s := { w.s with cranes := (w.cross k ⟨t, true⟩).s.cranes } }) ∧
    (m.phase = .inUse → ∀ n, n = { m with
        phase := .raised, start := w.s.now, window := 1000 * (w.s.craneCfg k).window } →
      (w.cross k ⟨t, false⟩).s.crane k = { c with claim := some n } ∧
      w.cross k ⟨t, false⟩ = { w with s := { w.s with cranes := (w.cross k ⟨t, false⟩).s.cranes } })) ∧
  (∀ (w : Work) (k t : Nat) (c : Crane), c = w.s.crane k →
    (∀ m, c.claim = some m → m.slot = t → m.void = false → m.phase ≠ .inUse) → w.cross k ⟨t, false⟩ = w) ∧
  (∀ (w v : Work) (k t i : Nat) (c : Crane) (ends : Bool), c = w.s.crane k → v = w.cross k ⟨t, true⟩ →
    i = (w.s.craneCfg k).slotLanes.getD t 0 * w.s.grid.bays + c.bay.getD 0 →
    ¬ (c.state = .standing ∧ (w.s.craneCfg k).enable.getLsbD t = true ∧
      ∃ m, c.claim = some m ∧ m.slot = t ∧ m.void = false ∧ m.phase ≠ .inUse) →
    (ends = true ↔ ∃ m, c.claim = some m ∧ m.slot = t ∧
      (m.void = true ∨ (w.s.craneCfg k).enable.getLsbD t = false)) →
    (v.s.seg i).reasonsOf k = { (w.s.seg i).reasonsOf k with
      violation := true, claim := if ends then false else ((w.s.seg i).reasonsOf k).claim } ∧
    (∀ j, j ≠ k → (v.s.seg i).reasonsOf j = (w.s.seg i).reasonsOf j) ∧ (v.s.seg i).hold = (w.s.seg i).hold ∧
    (v.s.seg i).oos = (w.s.seg i).oos ∧ (v.s.seg i).intruder = (w.s.seg i).intruder ∧
    (∀ j, j ≠ i → v.s.seg j = w.s.seg j) ∧ v.reexam = w.reexam ∧
    w.Grown v (w.s.Moved v.s) ∧
    v.s.craneLink k = ((w.s.craneLink k).join (.hoistStop c.lastSeq)).transmit ∧
    (∀ j, j ≠ k → v.s.craneLink j = w.s.craneLink j ∧ v.s.crane j = w.s.crane j) ∧
    v.s.crane k = (if ends then { c with claim := none } else c) ∧
    (∀ q, v.s.carrier? q = (w.s.carrier? q).map (fun r =>
      if (w.s.seg i).heldBy (.carrier q) then r.asked .hoistViolation else r)) ∧
    v.s.waiting = w.s.waiting.filter (fun e =>
      !((w.s.seg i).heldBy (.carrier e.carrier) && w.s.carrierIs e.carrier .idle)) ∧
    (∀ es : List Notif, ((∀ b x, (w.s.seg i).hold ≠ .held (.carrier b) x) → es = []) →
      (∀ b x, (w.s.seg i).hold = .held (.carrier b) x →
        (w.s.carrierIs b .authorized = true →
          es = w.s.askEntries .hoistViolation (some ⟨false, true, false, false⟩) b) ∧
        (w.s.carrierIs b .idle = true ∨ w.s.carrierIs b .missing = true → es = w.s.askEntries .hoistViolation none b) ∧
        (w.s.carrierIs b .authorized = false → w.s.carrierIs b .idle = false → w.s.carrierIs b .missing = false →
          es = [])) →
      ∀ m, v.s.dlink m = (w.s.dlink m).offers w.s.now (es ++ [⟨.hoistViolation, w.s.now, .crane k,
        [.byte t, .half i, .byte c.state.code] ++ partyVals (w.s.seg i).holder⟩])) ∧
    v.s = { w.s with segs := v.s.segs, waiting := v.s.waiting, carriers := v.s.carriers, cranes := v.s.cranes,
                     craneLinks := v.s.craneLinks, dispatch := v.s.dispatch }) ∧
  (∀ (cfg : CraneConfig) (c : Crane), (∀ t, c.trolley = some t → c.height < cfg.clearance →
      sampleClass cfg c = .down t) ∧ (c.trolley = none ∨ cfg.clearance ≤ c.height → sampleClass cfg c = .up)) ∧
  (∀ (w v : Work) (k : Nat) (position : Bool) (cfg : CraneConfig) (c : Crane), cfg = w.s.craneCfg k →
    c = w.s.crane k → w.s.segs.Sorted → v = w.judgeHoist k position →
    (faultCause cfg c position = none → ∀ (cls : HoistClass) (z : Work), cls = sampleClass cfg c →
      z = (w.onCrane k (Crane.feed cfg.filter cls)).faultRun k cfg.filter cls →
      v = z.filteredChange k c.filtered (z.s.crane k).filtered) ∧
    (∀ (cause : FaultCause) (slots cells : List Nat), faultCause cfg c position = some cause →
      (∀ t, c.trolley = some t → t < cfg.slotLanes.length → cfg.fault = .slot → slots = [t]) →
      (c.trolley = none ∨ (∃ t, c.trolley = some t ∧ cfg.slotLanes.length ≤ t) ∨ cfg.fault = .all →
        slots = List.range cfg.slotLanes.length) →
      cells = slots.map (fun t => cfg.slotLanes.getD t 0 * w.s.grid.bays + c.bay.getD 0) →
      (cfg.ceiling < c.height → cause = .height) ∧
      (c.height ≤ cfg.ceiling → (∃ t, c.trolley = some t ∧ cfg.slotLanes.length ≤ t) → cause = .trolley) ∧
      (c.height ≤ cfg.ceiling → (∀ t, c.trolley = some t → t < cfg.slotLanes.length) →
        (c.flags.sensorFault = true → cause = .sensor) ∧ (c.flags.sensorFault = false → cause = .bay)) ∧
      v.s.crane k = { c with
        implausible := min (c.implausible + 1) 65535, candidate := none, count := 0, faultRun := 0, episode := true } ∧
      (∀ j, j ≠ k → v.s.crane j = w.s.crane j) ∧
      (∀ i, (v.s.seg i).reasonsOf k = (if i ∈ cells then { (w.s.seg i).reasonsOf k with fault := true }
          else (w.s.seg i).reasonsOf k) ∧
        (∀ j, j ≠ k → (v.s.seg i).reasonsOf j = (w.s.seg i).reasonsOf j) ∧
        (v.s.seg i).hold = (w.s.seg i).hold ∧ (v.s.seg i).oos = (w.s.seg i).oos ∧
        (v.s.seg i).intruder = (w.s.seg i).intruder) ∧
      (∀ q, v.s.carrier? q = (w.s.carrier? q).map (fun r =>
        if r.state = .authorized ∧ cells.any (fun i => (w.s.seg i).heldBy (.carrier q)) = true then
          r.asked .hoistViolation
        else r)) ∧
      (∀ m, v.s.dlink m = (w.s.dlink m).offers w.s.now (w.s.lockEntries ⟨false, false, true, false⟩ cells ++
        if c.episode then [] else
          [⟨.craneFault, w.s.now, .crane k, [.byte cause.code, .byte slots.length] ++ slots.map Val.byte⟩])) ∧
      w.Grown v (w.s.Moved v.s) ∧ v.reexam = w.reexam ∧
      v.s = { w.s with segs := v.s.segs, carriers := v.s.carriers, cranes := v.s.cranes, dispatch := v.s.dispatch })) ∧
  (∀ (w v : Work) (k n : Nat) (cls : HoistClass) (c : Crane), c = w.s.crane k → w.s.segs.Sorted →
    v = w.faultRun k n cls →
    (c.episode = false → v = w) ∧
    (c.episode = true → cls ≠ .up → v.s.crane k = { c with faultRun := 0 } ∧
      v = { w with s := { w.s with cranes := v.s.cranes } }) ∧
    (c.episode = true → cls = .up → c.faultRun + 1 < n → v.s.crane k = { c with faultRun := c.faultRun + 1 } ∧
      v = { w with s := { w.s with cranes := v.s.cranes } }) ∧
    (c.episode = true → cls = .up → n ≤ c.faultRun + 1 →
      (∀ i, (v.s.seg i).reasonsOf k = { (w.s.seg i).reasonsOf k with fault := false } ∧
        (∀ j, j ≠ k → (v.s.seg i).reasonsOf j = (w.s.seg i).reasonsOf j) ∧
        (v.s.seg i).hold = (w.s.seg i).hold ∧ (v.s.seg i).oos = (w.s.seg i).oos ∧
        (v.s.seg i).intruder = (w.s.seg i).intruder) ∧
      (∀ m, v.s.dlink m = (w.s.dlink m).offers w.s.now [⟨.craneFault, w.s.now, .crane k, [.byte 4]⟩]) ∧
      (∀ j, v.s.crane j = if j = k then { c with faultRun := 0, episode := false } else w.s.crane j) ∧
      w.Grown v (fun _ => False) ∧ w.Calls v ∧
      v.s = { w.s with segs := v.s.segs, cranes := v.s.cranes, dispatch := v.s.dispatch })) ∧
  (∀ (w v : Work) (k : Nat) (old new : HoistClass) (xs : List Crossing) (cfg : CraneConfig), w.s.segs.Sorted →
    cfg = w.s.craneCfg k → v = w.filteredChange k old new → xs = crossingsOf old new →
    (old = new → v = w) ∧
    (old ≠ new → ∃ z y : Work, z = { w with s := { w.s with dispatch := z.s.dispatch } } ∧
      (∀ m, z.s.dlink m = (w.s.dlink m).offers w.s.now ((xs.filter (fun x => decide (cfg.crossing = .both ∨
          (cfg.crossing = .down ∧ x.down = true) ∨ (cfg.crossing = .up ∧ x.down = false)))).map (fun x =>
        ⟨.hoistCrossing, w.s.now, .crane k, [.byte x.slot,
          .half (cfg.slotLanes.getD x.slot 0 * w.s.grid.bays + (w.s.crane k).bay.getD 0),
          .byte (if x.down then 0 else 1)]⟩))) ∧
      y = xs.foldl (fun w x => w.cross k x) z ∧ (new ≠ .up → v = y) ∧
      (new = .up → (∀ i, (v.s.seg i).reasonsOf k = { (y.s.seg i).reasonsOf k with link := false } ∧
          (∀ j, j ≠ k → (v.s.seg i).reasonsOf j = (y.s.seg i).reasonsOf j) ∧
          (v.s.seg i).hold = (y.s.seg i).hold ∧ (v.s.seg i).oos = (y.s.seg i).oos ∧
          (v.s.seg i).intruder = (y.s.seg i).intruder) ∧
        y.Grown v (fun _ => False) ∧ y.Calls v ∧ v.s = { y.s with segs := v.s.segs })))

/-- A claim's life (R103 to R106): LOWER_REQUEST of a STANDING crane on an enabled slot whose segment is in service,
unmarked, unlocked, and free or under an IDLE carrier at rest, is GRANTED with CLAIM in the lock; SLOT_RELEASE and the
deadline of a granted or raised claim end it, take CLAIM off and call for re-examination, the deadline with
LOWER_REVOKED and CLAIM_LAPSED. The first check that fails refuses LOWER_REQUEST or SLOT_RELEASE with its reason and
detail, and changes nothing but by the reply. Any request frame of a crane that is not present is counted and no more,
and one that finds 16 replies waiting is discarded and counted as unusable (R98, R108).
That a claim not yet due stays is log entry 3, that SLOT_RELEASE in LINK_LOST is refused BAD_CRANE_STATE log entry 18,
what an absent crane counts log entry 17, how an absent target is sent log entry 9, and the order of the cranes of a
lock log entry 66. -/
def Obligations.Claims : Prop :=
  ∀ (s u : State) (k : Fin 8) (c : Crane), u = s.craneArrival k → c = u.crane k → s.segs.Sorted →
    (∀ (t i : Nat) (m : Claim), (s.craneCfg k).present = true → s.craneRoom k → u.mode = .active →
      c.state = .standing → c.claim = none → t < (s.craneCfg k).slotLanes.length →
      (s.craneCfg k).enable.getLsbD t = true →
      i = (s.craneCfg k).slotLanes.getD t 0 * u.grid.bays + c.bay.getD 0 →
      (u.seg i).oos = ⟨false, false, false⟩ → (u.seg i).intruder = none → (u.seg i).lock.rows = [] →
      ((u.seg i).hold = .free ∨ ∃ b r, (u.seg i).hold = .held (.carrier b) .standing ∧ u.carrier? b = some r ∧
        r.state = .idle ∧ r.speed = 0) →
      m = ⟨t, .granted, u.now, 1000 * (s.craneCfg k).window, false⟩ →
      ∃ w : Work, exec (.lowerRequest k t) s = .next (w.finish.craneAnswered k
          ⟨0x11, .granted, .none_, false, [.byte t, .half i]⟩) ∧
          (Work.start u none).Grown w (fun _ => False) ∧ w.reexam = false ∧
        w.s.crane k = { c with claim := some m } ∧ (∀ j, j ≠ k.val → w.s.crane j = u.crane j) ∧
        (∀ j, w.s.seg j = if j = i then { u.seg i with lock := ⟨[(k.val, ⟨true, false, false, false⟩)]⟩ }
          else u.seg j) ∧
        w.s = { u with segs := w.s.segs, cranes := w.s.cranes }) ∧
    (∀ m i, (s.craneCfg k).present = true → s.craneRoom k → u.mode = .active → c.state ≠ .linkLost →
      c.claim = some m → m.phase ≠ .inUse → i = u.claimCell k m →
      ∃ w : Work, exec (.slotRelease k) s = .next (w.finish.craneAnswered k
          ⟨0x12, .accepted, .none_, false, [.byte m.slot]⟩) ∧
          (Work.start u none).Grown w (fun _ => False) ∧ w.reexam = true ∧
        w.s.crane k = { c with claim := none } ∧ (∀ j, j ≠ k.val → w.s.crane j = u.crane j) ∧
        (w.s.seg i).reasonsOf k = { (u.seg i).reasonsOf k with claim := false } ∧
        (∀ j, j ≠ k.val → (w.s.seg i).reasonsOf j = (u.seg i).reasonsOf j) ∧
        (∀ j, j ≠ i → w.s.seg j = u.seg j) ∧ (w.s.seg i).hold = (u.seg i).hold ∧
        (w.s.seg i).oos = (u.seg i).oos ∧ (w.s.seg i).intruder = (u.seg i).intruder ∧
        w.s = { u with segs := w.s.segs, cranes := w.s.cranes }) ∧
    (∀ (t i : Nat) (r : SegDyn) (why : Reason) (detail : List Val), (s.craneCfg k).present = true → s.craneRoom k →
      i = (s.craneCfg k).slotLanes.getD t 0 * u.grid.bays + c.bay.getD 0 → r = u.seg i →
      (u.mode ≠ .active ∧ why = .badMode ∧ detail = [.byte u.mode.code]) ∨
      (u.mode = .active ∧ c.state = .travelling ∧ why = .inTransit ∧ detail = [byteVal? c.target]) ∨
      (u.mode = .active ∧ c.state ≠ .travelling ∧ c.state ≠ .standing ∧ why = .badCraneState ∧
        detail = [.byte c.state.code]) ∨
      (u.mode = .active ∧ c.state = .standing ∧
        ((∃ m, c.claim = some m ∧ why = .claimActive ∧ detail = [.byte m.slot, .byte m.phase.code]) ∨
        (c.claim = none ∧ (s.craneCfg k).slotLanes.length ≤ t ∧ why = .badSlot ∧ detail = [.byte t]) ∨
        (c.claim = none ∧ t < (s.craneCfg k).slotLanes.length ∧
          (((s.craneCfg k).enable.getLsbD t = false ∧ why = .slotDisabled ∧ detail = [.byte t]) ∨
          ((s.craneCfg k).enable.getLsbD t = true ∧
            ((r.oos ≠ ⟨false, false, false⟩ ∧ why = .outOfService ∧ detail = [.half i]) ∨
            (r.oos = ⟨false, false, false⟩ ∧ r.intruder ≠ none ∧ why = .intruded ∧ detail = [.half i]) ∨
            (r.oos = ⟨false, false, false⟩ ∧ r.intruder = none ∧ r.lock.rows ≠ [] ∧ why = .locked ∧
              detail = [.half i, .byte r.lock.rows.length] ++ r.lock.rows.map (fun x => .half x.1)) ∨
            (r.oos = ⟨false, false, false⟩ ∧ r.intruder = none ∧ r.lock.rows = [] ∧ r.hold ≠ .free ∧
              (∀ b x, r.hold = .held (.carrier b) .standing → u.carrier? b = some x → x.state = .idle → 0 < x.speed) ∧
              why = .conflict ∧ detail = .half i :: partyVals r.holder))))))) →
      exec (.lowerRequest k t) s = .next (u.craneAnswered k ⟨0x11, .refused, why, false, detail⟩)) ∧
    ((s.craneCfg k).present = true → s.craneRoom k →
      (u.mode ≠ .active →
        exec (.slotRelease k) s = .next (u.craneAnswered k ⟨0x12, .refused, .badMode, false, []⟩)) ∧
      (u.mode = .active → c.state = .linkLost →
        exec (.slotRelease k) s = .next (u.craneAnswered k ⟨0x12, .refused, .badCraneState, false, []⟩)) ∧
      (u.mode = .active → c.state ≠ .linkLost → c.claim = none →
        exec (.slotRelease k) s = .next (u.craneAnswered k ⟨0x12, .refused, .noClaim, false, []⟩)) ∧
      (∀ m, u.mode = .active → c.state ≠ .linkLost → c.claim = some m → m.phase = .inUse →
        exec (.slotRelease k) s = .next (u.craneAnswered k ⟨0x12, .refused, .hoistDown, false, []⟩))) ∧
    (∀ (t b : Nat) (i : Instr), i = .lowerRequest k t ∨ i = .slotRelease k ∨ i = .gantryRequest k b →
      ((s.craneCfg k).present = false → exec i s = .next u.pump) ∧
      ((s.craneCfg k).present = true → ¬ s.craneRoom k → exec i s = .next (State.pump
        (u.onCraneLink k (fun x => { x with unusable := min (x.unusable + 1) 65535 }))))) ∧
    (∀ m i, (s.crane k).claim = some m → m.void = false → m.phase ≠ .inUse → i = s.claimCell k m →
      ((s.now - m.start).toNat < m.window → exec (.claimLapsed k) s = .next s.pump) ∧
      (m.window ≤ (s.now - m.start).toNat →
        ∃ w : Work, exec (.claimLapsed k) s = .next w.finish.pump ∧
          (Work.start s none).Grown w (fun _ => False) ∧ w.reexam = true ∧
          w.s.crane k = { s.crane k with claim := none } ∧ (∀ j, j ≠ k.val → w.s.crane j = s.crane j) ∧
          (w.s.seg i).reasonsOf k = { (s.seg i).reasonsOf k with claim := false } ∧
          (∀ j, j ≠ k.val → (w.s.seg i).reasonsOf j = (s.seg i).reasonsOf j) ∧
          (∀ j, j ≠ i → w.s.seg j = s.seg j) ∧ (w.s.seg i).hold = (s.seg i).hold ∧
          (w.s.seg i).oos = (s.seg i).oos ∧ (w.s.seg i).intruder = (s.seg i).intruder ∧
          w.s.craneLink k = ((s.craneLink k).join (.lowerRevoked (s.crane k).lastSeq m.slot)).transmit ∧
          (∀ j, j ≠ k.val → w.s.craneLink j = s.craneLink j) ∧
          (∀ l, w.s.dlink l = (s.dlink l).offers s.now [⟨.claimLapsed, s.now, .crane k,
            [.byte m.slot, .half i, .byte (if m.phase = .raised then 1 else 0)]⟩]) ∧
          w.s = { s with segs := w.s.segs, cranes := w.s.cranes, craneLinks := w.s.craneLinks,
                         dispatch := w.s.dispatch }))

/-- GANTRY_REQUEST (R42, R109): a STANDING crane with its hoist up, no claim and no locked slot takes every leg cell
at the bays beyond its own up to the bay asked for, when all of them are free, in service and unmarked, and is
TRAVELLING. The first of the eight checks that fails refuses it with its reason and detail, and changes nothing but by
the reply. That LOCKED gives the reasons of all cranes together is log entry 24, that the crane's own FAULT lock at an
earlier bay does not refuse travel log entry 55, and that LOCKED names the lowest slot log entry 63. -/
def Obligations.GantryRequest : Prop :=
  ∀ (s u : State) (k : Fin 8) (c : Crane) (b g : Nat) (cells : List Nat), u = s.craneArrival k → c = u.crane k →
    (s.craneCfg k).present = true → s.craneRoom k → g = c.bay.getD 0 →
    (∀ (why : Reason) (detail : List Val),
      (u.mode ≠ .active ∧ why = .badMode ∧ detail = []) ∨
      (u.mode = .active ∧ c.state ≠ .standing ∧ why = .badCraneState ∧ detail = [.byte c.state.code]) ∨
      (u.mode = .active ∧ c.state = .standing ∧ ((u.grid.bays ≤ b ∧ why = .badBay ∧ detail = []) ∨
        (b < u.grid.bays ∧ b = g ∧ why = .sameBay ∧ detail = []) ∨
        (b < u.grid.bays ∧ b ≠ g ∧ c.filtered ≠ .up ∧ why = .hoistDown ∧ detail = [.byte c.filtered.code]) ∨
        (b < u.grid.bays ∧ b ≠ g ∧ c.filtered = .up ∧ c.claim ≠ none ∧ why = .claimActive ∧ detail = []))) →
      exec (.gantryRequest k b) s = .next (u.craneAnswered k ⟨0x13, .refused, why, false, detail⟩)) ∧
    (∀ (pre post : List Nat) (lane i : Nat) (reasons : Reasons), u.mode = .active → c.state = .standing →
      b < u.grid.bays → b ≠ g → c.filtered = .up → c.claim = none → (s.craneCfg k).slotLanes = pre ++ lane :: post →
      i = lane * u.grid.bays + g → (∀ x ∈ pre, (u.seg (x * u.grid.bays + g)).lock.rows = []) →
      (u.seg i).lock.rows ≠ [] →
      (reasons.claim = true ↔ ∃ x ∈ (u.seg i).lock.rows, x.2.claim = true) →
      (reasons.violation = true ↔ ∃ x ∈ (u.seg i).lock.rows, x.2.violation = true) →
      (reasons.fault = true ↔ ∃ x ∈ (u.seg i).lock.rows, x.2.fault = true) →
      (reasons.link = true ↔ ∃ x ∈ (u.seg i).lock.rows, x.2.link = true) →
      exec (.gantryRequest k b) s = .next (u.craneAnswered k
        ⟨0x13, .refused, .locked, false, [.half i, .byte reasons.code]⟩)) ∧
    (∀ (pre post : List Nat) (i : Nat) (why : Reason) (detail : List Val), u.mode = .active → c.state = .standing →
      b < u.grid.bays → b ≠ g → c.filtered = .up → c.claim = none →
      (∀ lane ∈ (s.craneCfg k).slotLanes, (u.seg (lane * u.grid.bays + g)).lock.rows = []) →
      (u.legsFrom k g b).drop 2 = pre ++ i :: post →
      (∀ j ∈ pre, (u.seg j).hold = .free ∧ (u.seg j).oos = ⟨false, false, false⟩ ∧ (u.seg j).intruder = none) →
      ((u.seg i).hold ≠ .free ∧ why = .conflict ∧ detail = partyVals (u.seg i).holder ++ [.half i]) ∨
        ((u.seg i).hold = .free ∧ (u.seg i).oos ≠ ⟨false, false, false⟩ ∧ why = .outOfService ∧ detail = [.half i]) ∨
        ((u.seg i).hold = .free ∧ (u.seg i).oos = ⟨false, false, false⟩ ∧ (u.seg i).intruder ≠ none ∧
          why = .intruded ∧ detail = [.half i]) →
      exec (.gantryRequest k b) s = .next (u.craneAnswered k ⟨0x13, .refused, why, false, detail⟩)) ∧
    (u.mode = .active → c.state = .standing → b < u.grid.bays → b ≠ g → c.filtered = .up → c.claim = none →
      (∀ lane ∈ (s.craneCfg k).slotLanes, (u.seg (lane * u.grid.bays + g)).lock.rows = []) →
      (∀ i, i ∈ cells ↔ ∃ x, ((g < x ∧ x ≤ b) ∨ (b ≤ x ∧ x < g)) ∧
        (i = (s.craneCfg k).waterside * u.grid.bays + x ∨ i = (s.craneCfg k).landside * u.grid.bays + x)) →
      (∀ i ∈ cells, (u.seg i).hold = .free ∧ (u.seg i).oos = ⟨false, false, false⟩ ∧ (u.seg i).intruder = none) →
      ∃ w : Work, exec (.gantryRequest k b) s = .next (w.finish.craneAnswered k
          ⟨0x13, .granted, .none_, false, [.byte b, .byte (2 * (b - g + (g - b)))]⟩) ∧ 
        (Work.start u none).Grown w (fun _ => False) ∧
        w.reexam = false ∧ w.s.crane k = { c with state := .travelling, target := some b } ∧
        (∀ j, j ≠ k.val → w.s.crane j = u.crane j) ∧
        (∀ i, w.s.seg i = if i ∈ cells then { u.seg i with hold := .held (.crane k) .travel } else u.seg i) ∧
        w.s = { u with segs := w.s.segs, cranes := w.s.cranes })

/-- A crane's link timer that has reached 0 (R41, R44, R113): LINK_LOST with the state before it, no filtered class, a
void claim, LINK in the lock of every slot segment at its bay, an AUTHORIZED carrier there in EMERGENCY, a TRAVELLING
crane's legs frozen, and CRANE_LINK_DOWN posted last. A completed crane transmission (R108) makes room for the head of
the queue. The first report after loss (R45, R114) restores the crane: STANDING with its void claim ended, HALTED as
it was, and after travel with its cells free but for the legs at the reported bay, or HALTED after a halt take where
another party holds one; only cells that become free call for re-examination; CRANE_LINK_UP is posted last.
That the travel target is kept in LINK_LOST is log entry 21, that an expiry of an OFFLINE or LINK_LOST crane is no
event log entry 3, how an absent value is sent log entry 9, which values of the claim CRANE_LINK_DOWN carries log
entry 50, the order of the carriers and cells log entry 56, and that all the loss asks for, and all the return asks
for, is one request with one end log entry 60. -/
def Obligations.CraneLinkDownAndTransmission : Prop :=
  (∀ (s : State) (k : Fin 8) (c : Crane), c = s.crane k → s.segs.Sorted →
     (∀ slots : List Nat, c.state = .standing ∨ c.state = .travelling ∨ c.state = .halted → c.timer = some 0 →
       slots = (s.craneCfg k).slotLanes.map (fun lane => lane * s.grid.bays + c.bay.getD 0) →
       ∃ w : Work, exec (.craneLinkDown k) s = .next w.finish.pump ∧ 
         (Work.start s none).Grown w (s.Moved w.s) ∧ w.reexam = false ∧
         w.s.crane k = { c with
           state := .linkLost, before := some c.state, timer := none, filtered := .unknown, candidate := none
           count := 0, claim := c.claim.map (fun m => { m with void := true }) } ∧
         (∀ j, j ≠ k.val → w.s.crane j = s.crane j) ∧
         w.s.craneLink k = { s.craneLink k with rx := Receiver.hunting } ∧
         (∀ j, j ≠ k.val → w.s.craneLink j = s.craneLink j) ∧
         (∀ i, (w.s.seg i).reasonsOf k = (if i ∈ slots then { (s.seg i).reasonsOf k with link := true }
             else (s.seg i).reasonsOf k) ∧
           (∀ j, j ≠ k.val → (w.s.seg i).reasonsOf j = (s.seg i).reasonsOf j) ∧
           (w.s.seg i).oos = (s.seg i).oos ∧ (w.s.seg i).intruder = (s.seg i).intruder ∧
           (w.s.seg i).hold = (if c.state = .travelling ∧ (s.seg i).hold = .held (.crane k) .leg then
               .frozen (.crane k) .leg
             else if c.state = .travelling ∧ (s.seg i).hold = .held (.crane k) .travel then .frozen (.crane k) .travel
             else (s.seg i).hold)) ∧
         (∀ q, w.s.carrier? q = (s.carrier? q).map (fun r =>
           if r.state = .authorized ∧ slots.any (fun i => (s.seg i).heldBy (.carrier q)) = true then
             r.asked .hoistViolation
           else r)) ∧
         (∀ m, w.s.dlink m = (s.dlink m).offers s.now (s.lockEntries ⟨false, false, false, true⟩ slots ++
           [⟨.craneLinkDown, s.now, .crane k, [.byte c.state.code, .byte (c.bay.getD 0)] ++ (match c.claim with
             | some x => [.byte x.slot, .byte x.phase.code, .word x.start.toNat, .absent 4, .byte 1]
             | none => [.absent 1, .absent 1, .absent 4, .absent 4, .absent 1])⟩])) ∧
         w.s = { s with segs := w.s.segs, carriers := w.s.carriers, cranes := w.s.cranes,
                        craneLinks := w.s.craneLinks, dispatch := w.s.dispatch }) ∧
     (c.state = .offline ∨ c.state = .linkLost → exec (.craneLinkDown k) s = .next s.pump) ∧
     (∃ t : State, exec (.craneTransmitComplete k) s = .next t.pump ∧
       (∀ f rest, (s.craneLink k).queue = f :: rest →
         t.craneLink k = { s.craneLink k with sending := some f, queue := rest }) ∧
       ((s.craneLink k).queue = [] → t.craneLink k = { s.craneLink k with sending := none }) ∧
       (∀ j, j ≠ k.val → t.craneLink j = s.craneLink j) ∧ t = { s with craneLinks := t.craneLinks })) ∧
  (∀ (w v : Work) (k b : Nat) (c back : Crane) (legs : List Nat), c = w.s.crane k → w.s.segs.Sorted →
    v = w.restoreCrane k b → legs = w.s.legsAt k b →
    back = { c with before := none, timer := some (w.s.craneCfg k).timeout } →
    (∀ j, j ≠ k → v.s.crane j = w.s.crane j ∧ v.s.craneLink j = w.s.craneLink j) ∧ w.Grown v (w.s.Moved v.s) ∧
    (c.before ≠ some .travelling → w.Calls v) ∧
    (c.before = some .standing → v.s.crane k = { back with state := .standing, claim := none } ∧
      (c.claim = none → v.s = { w.s with cranes := v.s.cranes, dispatch := v.s.dispatch }) ∧
      (∀ x i, c.claim = some x → i = w.s.claimCell k x →
        (v.s.seg i).reasonsOf k = { (w.s.seg i).reasonsOf k with claim := false } ∧
        (∀ j, j ≠ k → (v.s.seg i).reasonsOf j = (w.s.seg i).reasonsOf j) ∧
        (v.s.seg i).hold = (w.s.seg i).hold ∧ (v.s.seg i).oos = (w.s.seg i).oos ∧
        (v.s.seg i).intruder = (w.s.seg i).intruder ∧ (∀ j, j ≠ i → v.s.seg j = w.s.seg j) ∧
        v.s.craneLink k = ((w.s.craneLink k).join (.lowerRevoked c.lastSeq x.slot)).transmit ∧
        v.s = { w.s with segs := v.s.segs, cranes := v.s.cranes, craneLinks := v.s.craneLinks,
                         dispatch := v.s.dispatch }) ∧
      (∀ m, v.s.dlink m = (w.s.dlink m).offers w.s.now (c.claim.toList.map (fun x =>
          ⟨.claimLapsed, w.s.now, .crane k, [.byte x.slot, .half (w.s.claimCell k x), .byte 3]⟩) ++
        [⟨.craneLinkUp, w.s.now, .crane k, [.byte b, .byte 1]⟩]))) ∧
    (c.before = some .halted → v.s.crane k = { back with state := .halted } ∧
      (∀ m, v.s.dlink m =
        (w.s.dlink m).offers w.s.now [⟨.craneLinkUp, w.s.now, .crane k, [.byte b, .byte 3]⟩]) ∧
      v.s = { w.s with cranes := v.s.cranes, dispatch := v.s.dispatch }) ∧
    (c.before = some .travelling → ∀ returned : State,
      (∀ i, returned.seg i = { w.s.seg i with
        hold := if i ∈ legs ∧ ((w.s.seg i).hold = .free ∨ (w.s.seg i).holder = some (.crane k)) then
            .held (.crane k) .leg
          else if (w.s.seg i).frozenBy (.crane k) = true then .free else (w.s.seg i).hold }) →
      returned = { w.s with segs := returned.segs } →
      (v.reexam = true ↔ w.reexam = true ∨ ∃ i, i ∉ legs ∧ (w.s.seg i).frozenBy (.crane k) = true) ∧
      (returned.foreign k legs = [] → v.s.crane k = { back with state := .standing, bay := some b, target := none } ∧
        (∀ i, v.s.seg i = returned.seg i) ∧
        (∀ m, v.s.dlink m =
          (w.s.dlink m).offers w.s.now [⟨.craneLinkUp, w.s.now, .crane k, [.byte b, .byte 1]⟩]) ∧
        v.s = { w.s with segs := v.s.segs, cranes := v.s.cranes, dispatch := v.s.dispatch }) ∧
      (returned.foreign k legs ≠ [] → ∃ h : State, returned.HaltTaken h k legs ∧
        v.s.crane k = { back with state := .halted, bay := some b, target := none } ∧
        (∀ i, v.s.seg i = h.seg i) ∧
        v.s.craneLink k = ((w.s.craneLink k).join (.gantryStop c.lastSeq)).transmit ∧
        (∀ m, v.s.dlink m = (h.dlink m).offer w.s.now ⟨.craneLinkUp, w.s.now, .crane k, [.byte b, .byte 3]⟩) ∧
        v.s = { h with segs := v.s.segs, cranes := v.s.cranes, craneLinks := v.s.craneLinks,
                       dispatch := v.s.dispatch })))

/-! ## The radio links -/

/-- SET_RADIO (R118, R40): a value that is neither yes nor no refuses it, and outside CONFIG a change of the
configured links; otherwise the aging period and the timeouts are clamped and take effect for the next starts, a link
added is DOWN, a link taken out is UNCONFIGURED, and a link state report follows, which brings the closures into line
as one request where radio-loss closure changes. A link taken out while it is UP goes DOWN first (R121), with its own
report: its queues are emptied, the learning entries that name it are gone and no others, and RADIO_DOWN with their
number is offered to both queues.
That the links are taken in order, with one report at the end, is log entry 33, the widths of the values in the reply
log entry 9, and which of several bad fields is named log entry 38. -/
def Obligations.SetRadio : Prop :=
  ∀ (s u : State) (l : DLink) (a : RadioArgs) (set : List RadioSetting) (new : Nat → RadioConfig) (same : Prop),
    u = s.taken l → s.hasRoom l → set = [a.link0, a.link1, a.link2, a.link3] →
    (∀ r, new r = ⟨decide ((set.getD r a.link0).configured = 1), max 100 (min (set.getD r a.link0).timeout 2000)⟩) →
    (same ↔ ∀ r, r < 4 → (new r).configured = (u.radioCfg r).configured) →
    (∀ why detail, FirstFails [
        (.badValue, fun d => ∃ pre x post, set = pre ++ x :: post ∧ (∀ y ∈ pre, y.configured ≤ 1) ∧ 2 ≤ x.configured ∧
          d = [.field (1 + 2 * pre.length)]),
        (.badMode, fun d => u.mode ≠ .config ∧ ¬ same ∧ d = [])] why detail →
      exec (.setRadio l a) s = .next (u.answered l ⟨0x37, .refused, why, false, detail⟩)) ∧
    ((∀ x ∈ set, x.configured ≤ 1) → u.mode = .config ∨ same → ∃ t : State,
      exec (.setRadio l a) s = .next (t.answered l ⟨0x37, .accepted, .none_,
        decide (¬ (1 ≤ a.aging ∧ a.aging ≤ 120 ∧ ∀ x ∈ set, 100 ≤ x.timeout ∧ x.timeout ≤ 2000)),
        .byte (max 1 (min a.aging 120)) ::
          set.flatMap (fun x => [.byte x.configured, .half (max 100 (min x.timeout 2000))])⟩) ∧
      t.cfg = { u.cfg with
        aging := max 1 (min a.aging 120), radios := ⟨(List.range 4).map (fun r => (r, new r))⟩ } ∧
      (same → t = { u with cfg := t.cfg }) ∧
      (∃ p : Nat → State, p 0 = { u with cfg := t.cfg } ∧
        (∀ r, r < 4 →
          ((new r).configured = (u.radioCfg r).configured → p (r + 1) = p r) ∧
          ((new r).configured = true → (u.radioCfg r).configured = false →
            p (r + 1) = (p r).onRadio r (fun l => { l with state := .down, timer := none })) ∧
          ((new r).configured = false → (u.radioCfg r).configured = true → ∃ x : State,
            (((p r).radio r).state ≠ .up → x = p r) ∧
            (((p r).radio r).state = .up → ∃ y, (p r).RadioLost y r ∧ y.Reported x) ∧
            p (r + 1) =
              x.onRadio r (fun l => { l with state := .unconfigured, timer := none, rx := Receiver.hunting }))) ∧
        (same → t = p 4) ∧ (¬ same → (p 4).Reported t)) ∧
      (∀ r, r < 4 → (t.radio r).state = (if (new r).configured = false ∧ (u.radioCfg r).configured = true then
          .unconfigured
        else if (new r).configured = true ∧ (u.radioCfg r).configured = false then .down
        else (u.radio r).state)) ∧
      (¬ same → (t.rlcClosed = true ↔ ∃ r, r < 4 ∧ (t.radio r).state = .down)) ∧
      (t.rlcClosed ≠ u.rlcClosed → ∀ i, i < u.grid.lanes * u.grid.bays →
        (t.seg i).oos.rlc = (t.rlcClosed && (u.grid.record i).rlc)) ∧
      (∀ r, r < 4 → (new r).configured = (u.radioCfg r).configured → RadioLink.Fed (u.radio r) (t.radio r)) ∧
      (∀ r, r < 4 → (new r).configured = true → (u.radioCfg r).configured = false → (u.radio r).state ≠ .up →
        t.radio r = { u.radio r with state := .down, timer := none }) ∧
      (∀ r, r < 4 → (new r).configured = false → (u.radioCfg r).configured = true →
        ((u.radio r).state ≠ .up →
          t.radio r = { u.radio r with state := .unconfigured, timer := none, rx := Receiver.hunting }) ∧
        ((u.radio r).state = .up →
          t.radio r = { u.radio r with
            state := .unconfigured, timer := none, rx := Receiver.hunting, urgent := [], normal := []
            sending := none } ∧
          ∀ m, ∃ (n : Nat) (d : DispatchLink), DispatchLink.Notified (u.dlink m) d ∧
            DispatchLink.Notified (d.offer u.now ⟨.radioDown, u.now, .link (r + 2),
              [.byte (u.learning.countWhere (fun e => decide (e.link = r))), .byte n]⟩) (t.dlink m))) ∧
      (u.learning.Sorted → ∀ c, t.learning.get? c = (u.learning.get? c).filter (fun e =>
        !(decide (e.link < 4) && !(new e.link).configured && (u.radioCfg e.link).configured &&
          decide ((u.radio e.link).state = .up)))))

/-- Frames on a radio link (R119, R122, R124, R131, R161): on an UNCONFIGURED link a valid frame is counted and
discarded; an UP link's timer is loaded; a DOWN link is UP with RADIO_UP, and where radio-loss closure changes with it
the closures come into line as one request (R40), whose end O25 says. A modem heartbeat does no more; an event of a
registered carrier with a new sequence is offered to the copy rules; another kind or length is counted as unusable.
That a whole frame leaves the receiver in HUNT is log entry 11, that an event of more than 32 detail bytes is unusable
log entry 13, how a COPY is laid out log entry 52, and the order of its rules log entry 64. -/
def Obligations.RadioFrames : Prop :=
  ∀ (s u : State) (r : Fin 4) (a : EventArgs) (kind : Nat) (p : List Byte), u = s.radioArrival r →
    ((s.radio r).state = .unconfigured → ∀ x, x = { s.radio r with
        good := min ((s.radio r).good + 1) 65535, rx := Receiver.hunting
        unusable := min ((s.radio r).unusable + 1) 65535 } →
      exec (.modemHeartbeat r) s = .next (State.pump (s.onRadio r (fun _ => x))) ∧
      exec (.carrierEvent r a) s = .next (State.pump (s.onRadio r (fun _ => x))) ∧
      exec (.radioUnusableFrame r kind p) s = .next (State.pump (s.onRadio r (fun _ => x))) ∧
      ∀ b : ReportArgs, exec (.positionReport r b) s = .next (State.pump (s.onRadio r (fun _ => x)))) ∧
    ((s.radio r).state = .up → u = s.onRadio r (fun x => { x with
      good := min (x.good + 1) 65535, rx := Receiver.hunting, timer := some (s.radioCfg r).timeout })) ∧
    ((s.radio r).state = .down → ∀ v : State,
      v = State.post (s.onRadio r (fun x => { x with
        good := min (x.good + 1) 65535, rx := Receiver.hunting, state := .up, timer := some (s.radioCfg r).timeout }))
        .radioUp (.link (r.val + 2)) [] → v.Reported u) ∧
    ((s.radio r).state ≠ .unconfigured →
      exec (.modemHeartbeat r) s = .next u.pump ∧
      ((∀ i, decodeRadio r kind p ≠ .command i) → exec (.radioUnusableFrame r kind p) s = .next (State.pump
        (u.onRadio r (fun x => { x with unusable := min (x.unusable + 1) 65535 })))) ∧
      (u.carrier? a.carrier = none ∨ 32 < a.bytes.length → exec (.carrierEvent r a) s = .next (State.pump
        (u.onRadio r (fun x => { x with unusable := min (x.unusable + 1) 65535 })))) ∧
      (u.carrier? a.carrier ≠ none → a.bytes.length ≤ 32 →
        (u.eventSeqs.get? a.carrier = some a.seq → exec (.carrierEvent r a) s = .next (State.pump
          (u.onRadio r (fun x => { x with duplicates := min (x.duplicates + 1) 65535 })))) ∧
        (u.eventSeqs.get? a.carrier ≠ some a.seq → ∃ t : State,
          exec (.carrierEvent r a) s = .next t.pump ∧ t.eventSeqs = u.eventSeqs.put a.carrier a.seq ∧
          t = { u with eventSeqs := t.eventSeqs, dispatch := t.dispatch } ∧
          (∀ m rules, rules = u.cfg.copyRules.keysWhere (fun x => x.enable && decide (x.kind = .any) &&
              x.selects a.carrier && decide (x.flag = .nothing) && decide (x.target = m)) →
            (rules = [] → t.dlink m = u.dlink m) ∧
            (rules ≠ [] → t.dlink m = (u.dlink m).offers u.now [⟨.copy, u.now, .carrier a.carrier,
              [.byte (r.val + 2), .byte 5, .byte rules.length] ++ rules.map Val.byte ++
                [.raw (2 :: a.payload)]⟩])))))

/-- A radio link whose timer has reached 0 (R121, R40): it is DOWN with nothing queued or sent, and the learning
entries of the link are gone and no others. The rows among the emptied frames are reported dropped (R138). The
authorities among them, those of the urgent queue first and an abandoned one at the head of the queue it was taken
from, unless a later one for its carrier was emptied too, are offered again to every UP link when their carrier has no
learning entry left; RADIO_DOWN with both numbers is offered; and the link state report brings the closures into line
as one request, whose end O25 says, where radio-loss closure comes into force.
A row reported dropped (R138) counts while its cycle is in progress, and the last outstanding one ends the cycle:
BROADCAST_DONE under the completion notice, the next number, and in ON_CHANGE a new cycle where the rerun flag was
set, which is cleared. The width of the cycle number in BROADCAST_DONE is log entry 9, and that an expiry of a link that
is not UP, or whose timer is not at 0, is no event log entry 3. -/
def Obligations.RadioLinkTimeout : Prop :=
  (∀ (s : State) (r : Fin 4) (q : RadioLink) (normal order moved : List Authority), q = s.radio r →
    q.state = .up → q.timer = some 0 → s.learning.Sorted →
    normal = q.normal.filterMap (fun f => match f with | .authority a => some a | .row _ => none) →
    (((∀ a, q.sending ≠ some (.authority a)) → order = q.urgent ++ normal) ∧
      ∀ a, q.sending = some (.authority a) →
        ((∃ x ∈ q.urgent ++ normal, x.carrier = a.carrier) → order = q.urgent ++ normal) ∧
        ((∀ x ∈ q.urgent ++ normal, x.carrier ≠ a.carrier) →
          (a.command = .stopNow ∨ a.command = .emergency → order = a :: q.urgent ++ normal) ∧
          (a.command = .proceed ∨ a.command = .hold → order = q.urgent ++ a :: normal))) →
    ((∀ k, k < 4 → k ≠ r.val → (s.radio k).state ≠ .up) → moved = []) →
    ((∃ k, k < 4 ∧ k ≠ r.val ∧ (s.radio k).state = .up) → moved = order.filter (fun a =>
      ((s.learning.get? a.carrier).filter (fun e => decide (e.link ≠ r.val))).isNone)) →
    ∃ t : State, exec (.radioLinkTimeout r) s = .next t.pump ∧
      (∃ y, s.RadioLost y r ∧ y.Reported t) ∧
      t.radio r = { s.radio r with
        state := .down, timer := none, rx := Receiver.hunting, urgent := [], normal := [], sending := none } ∧
      (∀ k, k ≠ r.val → (t.radio k).state = (s.radio k).state ∧ (t.radio k).timer = (s.radio k).timer) ∧
      (∀ c, t.learning.get? c = (s.learning.get? c).filter (fun e => decide (e.link ≠ r.val))) ∧
      t.rlcClosed = true ∧
      (s.rlcClosed = false → ∀ i, s.grid.inside i = true → (t.seg i).oos.rlc = (s.grid.record i).rlc) ∧
      (∀ i, (t.seg i).oos.block = (s.seg i).oos.block ∧ (t.seg i).lock = (s.seg i).lock) ∧
      (∀ k, k < 4 → k ≠ r.val → (s.radio k).state = .up → ∃ l : RadioLink, RadioLink.Fed (s.radio k) l ∧
        RadioLink.Fed (moved.foldl (fun x a => (x.join a).transmit) l) (t.radio k)) ∧
      (s.rlcClosed = true → (∀ row, .row row ∉ q.normal ∧ q.sending ≠ some (.row row)) →
        (∀ k, k < 4 → k ≠ r.val → (s.radio k).state = .up →
          t.radio k = moved.foldl (fun x a => (x.join a).transmit) (s.radio k)) ∧
        t = { s with radios := t.radios, learning := t.learning, dispatch := t.dispatch }) ∧
      (∀ rows : List PictureRow, rows = (q.sending.toList ++ q.normal).filterMap
          (fun f => match f with | .authority _ => none | .row row => some row) →
        s.rlcClosed = true → s.cycle.since ≠ none →
        (rows.filter (fun row => decide (row.cycle = s.cycle.number))).length < s.cycle.outstanding →
        t.cycle = { s.cycle with
          dropped := s.cycle.dropped + (rows.filter (fun row => decide (row.cycle = s.cycle.number))).length
          outstanding := s.cycle.outstanding -
            (rows.filter (fun row => decide (row.cycle = s.cycle.number))).length }) ∧
      (∀ m, ∃ d : DispatchLink, DispatchLink.Notified (s.dlink m) d ∧
        DispatchLink.Notified (d.offer s.now ⟨.radioDown, s.now, .link (r.val + 2),
          [.byte (s.learning.countWhere (fun e => decide (e.link = r.val))), .byte moved.length]⟩) (t.dlink m)) ∧
      t.mode = s.mode ∧ t.cfg = s.cfg ∧ t.cranes = s.cranes) ∧
  (∀ (s : State) (r : Fin 4), (s.radio r).state ≠ .up ∨ (s.radio r).timer ≠ some 0 →
    exec (.radioLinkTimeout r) s = .next s.pump) ∧
  (∀ (s : State) (row : PictureRow),
    (s.cycle.since = none ∨ (row.cycle ≠ s.cycle.number ∧ s.cycle.outstanding ≠ 0) → s.rowFate row false = s) ∧
    (s.cycle.since ≠ none → row.cycle = s.cycle.number → 2 ≤ s.cycle.outstanding →
      s.rowFate row false = { s with cycle := { s.cycle with
        dropped := s.cycle.dropped + 1, outstanding := s.cycle.outstanding - 1 } }) ∧
    (∀ start (x : State), s.cycle.since = some start → row.cycle = s.cycle.number → s.cycle.outstanding = 1 →
      x.cycle = { s.cycle with
        since := none, dropped := s.cycle.dropped + 1, outstanding := 0, number := (s.cycle.number + 1) % 256
        completed := min (s.cycle.completed + 1) 65535, rerun := false } →
      x = { (if s.cfg.broadcast.notice then s.post .broadcastDone .nothing [.byte s.cycle.number,
          .byte s.cycle.rows, .byte s.cycle.sent, .byte (s.cycle.dropped + 1), .word (s.now - start).toNat]
        else s) with cycle := x.cycle } →
      (s.cycle.rerun = false ∨ s.mode ≠ .active ∨ s.cfg.broadcast.mode ≠ .onChange → s.rowFate row false = x) ∧
      (s.cycle.rerun = true → s.mode = .active → s.cfg.broadcast.mode = .onChange →
        s.rowFate row false = x.startCycle)))

/-- The queues of an UP radio link (R128, R129): an urgent authority takes the place of the carrier's urgent one, or
joins at the end, and puts out the carrier's normal one; a normal authority does so in the normal queue; and a picture
row takes the place of the row of its lane, which is reported dropped, or joins at the end. A completed transmission
makes room for the oldest urgent frame, or failing one the oldest normal frame, of the link. The last row of a cycle
ends it (R138, R140): BROADCAST_DONE under the completion notice, the next number, and in ON_CHANGE a new cycle where
the rerun flag was set, which is cleared. The width of the cycle number in BROADCAST_DONE is log entry 9. -/
def Obligations.RadioQueuesAndTransmission : Prop :=
  (∀ (q : RadioLink) (a : Authority),
    (a.command = .stopNow ∨ a.command = .emergency →
      (q.join a).normal = q.normal.filter (fun f => !f.isFor a.carrier) ∧
      (∀ pre b post, q.urgent = pre ++ b :: post → b.carrier = a.carrier → (∀ x ∈ pre, x.carrier ≠ a.carrier) →
        (q.join a).urgent = pre ++ a :: post) ∧
      ((∀ x ∈ q.urgent, x.carrier ≠ a.carrier) → (q.join a).urgent = q.urgent ++ [a])) ∧
    (a.command = .proceed ∨ a.command = .hold → (q.join a).urgent = q.urgent ∧
      (∀ pre f post, q.normal = pre ++ f :: post → f.isFor a.carrier = true →
        (∀ x ∈ pre, x.isFor a.carrier = false) → (q.join a).normal = pre ++ .authority a :: post) ∧
      ((∀ x ∈ q.normal, x.isFor a.carrier = false) → (q.join a).normal = q.normal ++ [.authority a]))) ∧
  (∀ (s t : State) (r : Nat) (q : RadioLink) (row : PictureRow), q = s.radio r → t = s.offerRow r row →
    (∀ pre old post, q.normal = pre ++ .row old :: post → old.lane = row.lane →
      (∀ y, .row y ∈ pre → y.lane ≠ row.lane) →
      t.radio r = RadioLink.transmit { q with normal := pre ++ .row row :: post } ∧
      t.cycle = if s.cycle.since ≠ none ∧ old.cycle = s.cycle.number ∧ 0 < s.cycle.outstanding then
          { s.cycle with dropped := s.cycle.dropped + 1, outstanding := s.cycle.outstanding - 1 }
        else s.cycle) ∧
    ((∀ y, .row y ∈ q.normal → y.lane ≠ row.lane) →
      t.radio r = RadioLink.transmit { q with normal := q.normal ++ [.row row] } ∧ t.cycle = s.cycle) ∧
    (∀ k, k ≠ r → t.radio k = s.radio k) ∧ t = { s with radios := t.radios, cycle := t.cycle }) ∧
  (∀ (s : State) (r : Fin 4) (f : RadioFrame), (s.radio r).state = .up → (s.radio r).sending = some f →
    ∃ v : State, exec (.radioTransmitComplete r) s =
        .next (State.pump (v.onRadio r (fun x => RadioLink.transmit { x with sending := none }))) ∧
      (∀ a, f = .authority a → v = s ∧
        (∀ b rest, (s.radio r).urgent = b :: rest →
          RadioLink.transmit { s.radio r with sending := none } =
            { s.radio r with urgent := rest, sending := some (.authority b) }) ∧
        (∀ g rest, (s.radio r).urgent = [] → (s.radio r).normal = g :: rest →
          RadioLink.transmit { s.radio r with sending := none } =
            { s.radio r with normal := rest, sending := some g }) ∧
        ((s.radio r).urgent = [] → (s.radio r).normal = [] →
          RadioLink.transmit { s.radio r with sending := none } = { s.radio r with sending := none })) ∧
      (∀ row, f = .row row → s.cycle.since ≠ none → row.cycle = s.cycle.number → 2 ≤ s.cycle.outstanding →
        v = { s with cycle := { s.cycle with
          sent := s.cycle.sent + 1, outstanding := s.cycle.outstanding - 1 } }) ∧
      (∀ row start (x : State), f = .row row → s.cycle.since = some start → row.cycle = s.cycle.number →
        s.cycle.outstanding = 1 →
        x.cycle = { s.cycle with
          since := none, sent := s.cycle.sent + 1, outstanding := 0, number := (s.cycle.number + 1) % 256
          completed := min (s.cycle.completed + 1) 65535, rerun := false } →
        x = { (if s.cfg.broadcast.notice then s.post .broadcastDone .nothing [.byte s.cycle.number,
            .byte s.cycle.rows, .byte (s.cycle.sent + 1), .byte s.cycle.dropped, .word (s.now - start).toNat]
          else s) with cycle := x.cycle } →
        (s.cycle.rerun = false ∨ s.mode ≠ .active ∨ s.cfg.broadcast.mode ≠ .onChange → v = x) ∧
        (s.cycle.rerun = true → s.mode = .active → s.cfg.broadcast.mode = .onChange → v = x.startCycle)) ∧
      (∀ row, f = .row row → s.cycle.since = none ∨ (row.cycle ≠ s.cycle.number ∧ s.cycle.outstanding ≠ 0) → v = s))

/-- The learning table (R125, R126), the flush sweep (R130) and the expiry of a pending entry (R35). A learning entry
goes at its expiry time and not before; FLUSH_ROUTING starts a sweep, or is BUSY during one; id k is visited k + 1 ms
after the acceptance, and the visit of id 95 ends the sweep with FLUSH_DONE and the number of entries removed; a
pending entry leaves the list as PENDING_EXPIRED. An event before its time is none (the model's choice, log entry 3). -/
def Obligations.AgingAndExpiry : Prop :=
  (∀ (s u : State) (l : DLink) (c : Nat), u = s.taken l → s.hasRoom l →
    (∀ e, s.learning.get? c = some e →
      ((s.now - e.set).toNat < (e.expiry - e.set).toNat → exec (.learningEntryExpiry c) s = .next s.pump) ∧
      ((e.expiry - e.set).toNat ≤ (s.now - e.set).toNat →
        exec (.learningEntryExpiry c) s = .next (State.pump { s with learning := s.learning.del c }))) ∧
    (u.flush = none → exec (.flushRouting l) s =
      .next (State.answered { u with flush := some ⟨u.now, 0, 0⟩ } l ⟨0x38, .accepted, .none_, false, []⟩)) ∧
    (∀ f, u.flush = some f →
      exec (.flushRouting l) s = .next (u.answered l ⟨0x38, .busy, .sweep, false, [.half f.next]⟩)) ∧
    (∀ (f : Flush) (n : Nat), s.flush = some f →
      n = f.removed + (if (s.learning.get? f.next).isSome then 1 else 0) →
      ((s.now - f.start).toNat ≤ f.next → exec .flushVisit s = .next s.pump) ∧
      (f.next < (s.now - f.start).toNat → f.next < 95 → exec .flushVisit s = .next (State.pump
        { s with learning := s.learning.del f.next, flush := some ⟨f.start, f.next + 1, n⟩ })) ∧
      (f.next < (s.now - f.start).toNat → f.next = 95 → exec .flushVisit s = .next (State.pump (State.post
        { s with learning := s.learning.del 95, flush := none } .flushDone .nothing [.byte n]))))) ∧
  (∀ (s : State) (c : Nat),
    ((∀ x ∈ s.waiting, x.carrier ≠ c) → exec (.pendingExpired c) s = .next s.pump) ∧
    (∀ before e after, s.waiting = before ++ e :: after → e.carrier = c → (∀ x ∈ before ++ after, x.carrier ≠ c) →
      ((s.now - e.arrival).toNat < (e.expiry - e.arrival).toNat → exec (.pendingExpired c) s = .next s.pump) ∧
      ((e.expiry - e.arrival).toNat ≤ (s.now - e.arrival).toNat →
        exec (.pendingExpired c) s = .next (State.pump (State.post { s with waiting := before ++ after }
          .pendingExpired (.carrier c) [.half e.tag, .half e.lastBlock])))))

/-! ## The picture -/

/-- BROADCAST_CONFIG (R133 to R135, R142) and QUERY_BROADCAST (R143): the stored and effective configuration; while the
effective mode stays as it was, nothing else changes, when it becomes OFF or ONE_SHOT the period timer stops and the
rerun is forgotten, when it becomes CONTINUOUS the period timer is loaded and a cycle starts or is skipped, and when it
becomes ON_CHANGE a cycle starts or the rerun is asked for (what a cycle start does: O54). QUERY_BROADCAST answers the
stored configuration (R133), the effective window (R134), the effective mode and every field of the cycle state (R136)
and changes nothing.
The widths of the values in the replies are log entry 9, and which of two bad fields is named log entry 38. -/
def Obligations.BroadcastConfigAndQuery : Prop :=
  ∀ (s u : State) (l : DLink) (a : BroadcastArgs), u = s.taken l → s.hasRoom l →
    (∀ why detail, FirstFails [
        (.badValue, fun d => 4 ≤ a.mode ∧ d = [.field 4]),
        (.badValue, fun d => 2 ≤ a.notice ∧ d = [.field 6])] why detail →
      exec (.broadcastConfig l a) s = .next (u.answered l ⟨0x39, .refused, why, false, detail⟩)) ∧
    (∀ (b : BroadcastConfig) (w : Rect) (old new : BroadcastMode) (v : State), a.mode ≤ 3 → a.notice ≤ 1 →
      b = ⟨min a.lane 15, max 1 (min a.lanes 16), min a.bay 63, max 1 (min a.bays 64),
        (if a.mode = 0 then .off else if a.mode = 1 then .continuous else if a.mode = 2 then .onChange else .oneShot),
        max 100 (min a.period 5000), decide (a.notice = 1)⟩ →
      w.lanes = max 1 (min b.lanes u.grid.lanes) → w.lane = min b.lane (u.grid.lanes - w.lanes) →
      w.bays = max 1 (min b.bays u.grid.bays) → w.bay = min b.bay (u.grid.bays - w.bays) →
      old = (if u.mode = .active then u.cfg.broadcast.mode else .off) →
      new = (if u.mode = .active then b.mode else .off) →
      v = { u with cfg := { u.cfg with broadcast := b } } →
      ∃ t : State, exec (.broadcastConfig l a) s = .next (t.answered l ⟨0x39, .accepted, .none_,
          decide (¬ (b.period = a.period ∧ (b.lane = a.lane ∧ b.lanes = a.lanes ∧ b.bay = a.bay ∧ b.bays = a.bays) ∧
            (w.lane = b.lane ∧ w.lanes = b.lanes ∧ w.bay = b.bay ∧ w.bays = b.bays))),
          [.byte b.lane, .byte b.lanes, .byte b.bay, .byte b.bays, .byte a.mode, .half b.period, .byte a.notice,
            .byte w.lane, .byte w.lanes, .byte w.bay, .byte w.bays, .byte new.code]⟩) ∧
        t.cfg = v.cfg ∧ (new = old → t = v) ∧
        (new ≠ old → new = .off ∨ new = .oneShot →
          t = { v with cycle := { u.cycle with timer := none, rerun := false } }) ∧
        (new ≠ old → new = .continuous → t.cycle.timer = some b.period ∧
          (u.cycle.since = none → t = State.startCycle { v with cycle := { u.cycle with timer := some b.period } }) ∧
          (u.cycle.since ≠ none →
            t = { v with cycle := { u.cycle with
              timer := some b.period, skipped := min (u.cycle.skipped + 1) 65535 } })) ∧
        (new ≠ old → new = .onChange → t.cycle.timer = none ∧
          (u.cycle.since = none → t = State.startCycle { v with cycle := { u.cycle with timer := none } }) ∧
          (u.cycle.since ≠ none → t = { v with cycle := { u.cycle with timer := none, rerun := true } }))) ∧
    (∀ (b : BroadcastConfig) (w : Rect) (x : Cycle), b = u.cfg.broadcast → x = u.cycle →
      w.lanes = max 1 (min b.lanes u.grid.lanes) → w.lane = min b.lane (u.grid.lanes - w.lanes) →
      w.bays = max 1 (min b.bays u.grid.bays) → w.bay = min b.bay (u.grid.bays - w.bays) →
      exec (.queryBroadcast l) s = .next (u.answered l ⟨0x3B, .accepted, .none_, false,
        [.byte b.lane, .byte b.lanes, .byte b.bay, .byte b.bays,
          .byte (match b.mode with | .off => 0 | .continuous => 1 | .onChange => 2 | .oneShot => 3),
          .half b.period, .byte (if b.notice then 1 else 0),
          .byte w.lane, .byte w.lanes, .byte w.bay, .byte w.bays,
          .byte (if u.mode = .active then
            (match b.mode with | .off => 0 | .continuous => 1 | .onChange => 2 | .oneShot => 3) else 0),
          .byte (if x.since = none then 0 else 1), .byte x.number, .byte (if x.rerun then 1 else 0),
          .byte x.outstanding, .byte x.rows, .byte x.sent, .byte x.dropped,
          (match x.since with | some t => .word t.toNat | none => .absent 4),
          (match x.timer with | some n => .word n | none => .absent 4), .half x.skipped, .half x.completed]⟩))

/-- A cycle starts (R137, R139, R141): by BROADCAST_TRIGGER in ONE_SHOT, refused BAD_MODE otherwise and BUSY during a
cycle, and by the period timer in CONTINUOUS, which a cycle still running skips. The rows of the effective window, one
a lane, stand on every UP link; with no link UP every row is dropped and the cycle ends at once, with BROADCAST_DONE
under the completion notice.
That an expiry of a timer not at 0 is no event is log entry 3, that the reply carries the number of the cycle
started though it has ended log entry 51, and the width of that number log entry 9. -/
def Obligations.CycleStarts : Prop :=
  ∀ (s u : State) (l : DLink), u = s.taken l → s.hasRoom l →
    (u.mode ≠ .active → exec (.broadcastTrigger l) s =
      .next (u.answered l ⟨0x3A, .refused, .badMode, false, [.byte u.mode.code]⟩)) ∧
    (u.mode = .active → u.cfg.broadcast.mode ≠ .oneShot → exec (.broadcastTrigger l) s =
      .next (u.answered l ⟨0x3A, .refused, .badMode, false, [.byte u.cfg.broadcast.mode.code]⟩)) ∧
    (u.mode = .active → u.cfg.broadcast.mode = .oneShot → u.cycle.since ≠ none → exec (.broadcastTrigger l) s =
      .next (u.answered l ⟨0x3A, .busy, .cycle, false, [.byte u.cycle.number, .byte u.cycle.outstanding]⟩)) ∧
    (u.mode = .active → u.cfg.broadcast.mode = .oneShot → u.cycle.since = none → exec (.broadcastTrigger l) s =
      .next (u.startCycle.answered l ⟨0x3A, .accepted, .none_, false, [.byte u.cycle.number, .byte u.window.lanes]⟩)) ∧
    (s.cycle.timer = some 0 → ∀ c, c = { s.cycle with timer := some s.cfg.broadcast.period } →
      (s.cycle.since = none → exec .periodTimerExpiry s = .next (State.startCycle { s with cycle := c }).pump) ∧
      (s.cycle.since ≠ none → exec .periodTimerExpiry s = .next (State.pump
        { s with cycle := { c with skipped := min (c.skipped + 1) 65535 } }))) ∧
    (s.cycle.timer ≠ some 0 → exec .periodTimerExpiry s = .next s.pump) ∧
    (s.cycle.since = none →
      ((∀ r, r < 4 → (s.radio r).state ≠ .up) → s.cycle.rerun = false →
        s.startCycle.cycle = { s.cycle with
          rows := s.window.lanes, outstanding := 0, sent := 0, dropped := s.window.lanes
          number := (s.cycle.number + 1) % 256, completed := min (s.cycle.completed + 1) 65535 } ∧
        s.startCycle = { (if s.cfg.broadcast.notice then s.post .broadcastDone .nothing [.byte s.cycle.number,
            .byte s.window.lanes, .byte 0, .byte s.window.lanes, .word 0]
          else s) with cycle := s.startCycle.cycle }) ∧
      ((∃ r, r < 4 ∧ (s.radio r).state = .up) → (∀ r row, .row row ∉ (s.radio r).normal) →
        s.startCycle.cycle = { s.cycle with
          since := some s.now, rows := s.window.lanes, sent := 0, dropped := 0
          outstanding := s.window.lanes *
            ((List.range 4).filter (fun r => decide ((s.radio r).state = .up))).length } ∧
        (∀ r lane, r < 4 → (s.radio r).state = .up → s.window.lane ≤ lane →
          lane < s.window.lane + s.window.lanes → ∃ row : PictureRow, row.cycle = s.cycle.number ∧ row.lane = lane ∧
            row.bay = s.window.bay ∧
            row.codes = (List.range s.window.bays).map (fun b =>
              (s.seg (lane * s.grid.bays + (s.window.bay + b))).picture) ∧
            (.row row ∈ (s.startCycle.radio r).normal ∨ (s.startCycle.radio r).sending = some (.row row))) ∧
        s.startCycle = { s with radios := s.startCycle.radios, cycle := s.startCycle.cycle }))

/-! ## Modes and settings -/

/-- ACTIVATE (R165, R166): from CONFIG, once the validation passes, RECOVERY with the recovery time clamped; from
RECOVERY, once the recovery time has passed, ACTIVE, where the stored broadcast mode takes effect (R142): CONTINUOUS
loads the period timer and starts or skips a cycle, ON_CHANGE starts one or asks for the rerun, ONE_SHOT stops the
timer and forgets the rerun, and OFF changes nothing; refused while the validation fails, too early, and in ACTIVE.
The width of the recovery time in the reply is log entry 9. -/
def Obligations.Activate : Prop :=
  ∀ (s u : State) (l : DLink) (time : Nat), u = s.taken l → s.hasRoom l →
    (u.mode = .active → exec (.activate l time) s = .next (u.answered l ⟨0x3D, .refused, .badMode, false, []⟩)) ∧
    (∀ f, u.mode = .config → u.cfg.validate = some f →
      exec (.activate l time) s = .next (u.answered l ⟨0x3D, .refused, .invalid, false, resultVals (some f)⟩)) ∧
    (u.mode = .config → u.cfg.validate = none → ∀ t, t = max 1 (min time 30) →
      exec (.activate l time) s = .next (State.answered (State.post
        { u with cfg := { u.cfg with recoveryTime := t }, mode := .recovery, recoveryStart := some u.now }
        .mode .nothing [.byte 0, .byte 1, .byte 0x3D]) l
        ⟨0x3D, .accepted, .none_, decide (t ≠ time),
          [.byte t, .word (u.now + BitVec.ofNat 32 (1000 * t)).toNat]⟩)) ∧
    (∀ start spent, u.mode = .recovery → u.recoveryStart = some start → spent = (u.now - start).toNat →
      (spent < 1000 * u.cfg.recoveryTime → exec (.activate l time) s = .next (u.answered l
        ⟨0x3D, .refused, .tooEarly, false, [.word (1000 * u.cfg.recoveryTime - spent)]⟩)) ∧
      (1000 * u.cfg.recoveryTime ≤ spent → ∃ t v : State,
        exec (.activate l time) s = .next (t.answered l ⟨0x3D, .accepted, .none_, false,
          [.byte (u.carriers.rows.filter (fun x => decide (x.2.state = .offline))).length,
            .byte ((List.range 8).filter (fun k => (u.craneCfg k).present &&
              decide ((u.crane k).state = .offline))).length]⟩) ∧
        v = State.post { u with mode := .active, recoveryStart := none } .mode .nothing
          [.byte 1, .byte 2, .byte 0x3D] ∧
        t.mode = .active ∧ t.recoveryStart = none ∧ (u.cfg.broadcast.mode = .off → t = v) ∧
        (u.cfg.broadcast.mode = .oneShot → t = { v with cycle := { u.cycle with timer := none, rerun := false } }) ∧
        (∀ c, c = { u.cycle with timer := some u.cfg.broadcast.period } → u.cfg.broadcast.mode = .continuous →
          (u.cycle.since = none → t = State.startCycle { v with cycle := c }) ∧
          (u.cycle.since ≠ none → t = { v with cycle := { c with skipped := min (u.cycle.skipped + 1) 65535 } })) ∧
        (∀ c, c = { u.cycle with timer := none } → u.cfg.broadcast.mode = .onChange →
          (u.cycle.since = none → t = State.startCycle { v with cycle := c }) ∧
          (u.cycle.since ≠ none → t = { v with cycle := { c with rerun := true } })) ∧
        t = { v with radios := t.radios, cycle := t.cycle, dispatch := t.dispatch }))

/-- ENTER_CONFIG (R74, R117, R167): refused in CONFIG, and BUSY_APRON while a carrier is AUTHORIZED, in EMERGENCY,
MISSING or LOST, a segment FROZEN, a claim standing or a crane TRAVELLING, the detail naming the lowest subject of the
first of these tests that finds one; otherwise the part is in CONFIG with fresh segment records but for the closures, no
route or pending entry, carriers as new but for their early-report counts, cranes as new but for their counters; each
pending entry is notified as dropped, each carrier that was not OFFLINE as OFFLINE, and MODE last; and each
of these carriers is sent STOP_NOW on every UP link that its routing names (R74). The effective
broadcast mode is then OFF. The configuration, the versions, the learning table, the crane links, the image, a save or a
sweep in progress and the counters stand.
That a fresh record holds the values of its class as applied is log entry 15, what its authority fields hold log
entry 16, how an absent target is sent log entry 9, that PENDING_DROPPED carries the tag log entry 53, and that the
carriers come by ascending id log entry 7. -/
def Obligations.EnterConfig : Prop :=
  ∀ (s u : State) (l : DLink) (quiet : Prop), u = s.taken l → s.hasRoom l → u.carriers.Sorted → u.segs.Sorted →
    (quiet ↔ (∀ c r, u.carrier? c = some r → r.state = .offline ∨ r.state = .away ∨ r.state = .idle) ∧
      (∀ i p x, (u.seg i).hold ≠ .frozen p x) ∧
      (∀ k, k < 8 → (u.crane k).claim = none ∧ (u.crane k).state ≠ .travelling)) →
    (u.mode = .config → exec (.enterConfig l) s = .next (u.answered l ⟨0x3E, .refused, .badMode, false, []⟩)) ∧
    (u.mode ≠ .config → ¬ quiet → ∃ detail,
      exec (.enterConfig l) s = .next (u.answered l ⟨0x3E, .refused, .busyApron, false, detail⟩)) ∧
    (u.mode ≠ .config → ∀ (detail : List Val) (busy frozen : Nat → Prop),
      (∀ c, busy c ↔ ∃ r, u.carrier? c = some r ∧ r.state ≠ .offline ∧ r.state ≠ .away ∧ r.state ≠ .idle) →
      (∀ i, frozen i ↔ ∃ p x, (u.seg i).hold = .frozen p x) →
      ((∃ c r, busy c ∧ (∀ b, b < c → ¬ busy b) ∧ u.carrier? c = some r ∧ detail = [.half c, .byte r.state.code]) ∨
        ((∀ c, ¬ busy c) ∧ ((∃ i, frozen i ∧ (∀ j, j < i → ¬ frozen j) ∧
            detail = .half i :: partyVals (u.seg i).holder) ∨
          ((∀ i, ¬ frozen i) ∧ ((∃ k m, k < 8 ∧ (u.crane k).claim = some m ∧
              (∀ j, j < k → (u.crane j).claim = none) ∧ detail = [.half k, .byte m.slot, .byte m.phase.code]) ∨
            ((∀ k, k < 8 → (u.crane k).claim = none) ∧ ∃ k, k < 8 ∧ (u.crane k).state = .travelling ∧
              (∀ j, j < k → (u.crane j).state ≠ .travelling) ∧
              detail = [.half k, byteVal? (u.crane k).target])))))) →
      exec (.enterConfig l) s = .next (u.answered l ⟨0x3E, .refused, .busyApron, false, detail⟩)) ∧
    (u.mode ≠ .config → quiet → ∃ (t : State) (w : Work),
      exec (.enterConfig l) s = .next (t.answered l ⟨0x3E, .accepted, .none_, false,
        [.byte (u.carriers.rows.filter (fun x => decide (x.2.state ≠ .offline))).length,
          .byte ((List.range 8).filter (fun k => decide ((u.crane k).state ≠ .offline))).length]⟩) ∧
      t = State.post { w.finish with cranes := t.cranes } .mode .nothing [.byte u.mode.code, .byte 0, .byte 0x3E] ∧
      w.touched = [] ∧ w.reexam = false ∧ w.report = none ∧
      (∀ c, c ∈ w.runs ↔ ∃ r, u.carrier? c = some r ∧ r.state ≠ .offline) ∧
      w.s = { u with
        mode := .config, recoveryStart := none, segs := w.s.segs, routes := Table.empty, waiting := []
        carriers := w.s.carriers, cycle := w.s.cycle, dispatch := w.s.dispatch } ∧
      (∀ c r k, u.carrier? c = some r → r.state ≠ .offline → k < 4 → (u.radio k).state = .up →
        (u.learning.get? c = none ∨ ∃ e, u.learning.get? c = some e ∧ e.link = k) →
        ∃ f : Authority, f.carrier = c ∧ f.command = .stopNow ∧
          (f ∈ (t.radio k).urgent ∨ (t.radio k).sending = some (.authority f))) ∧
      t.mode = .config ∧ t.recoveryStart = none ∧ t.waiting = [] ∧ t.routes = Table.empty ∧
      (∀ i, i < u.grid.lanes * u.grid.bays → t.seg i = ⟨.free, Table.empty,
        ⟨false, u.dlcClosed && (u.grid.record i).dlc, u.rlcClosed && (u.grid.record i).rlc⟩, none⟩) ∧
      (∀ c r, u.carrier? c = some r → ∃ x, t.carrier? c =
        some { Carrier.fresh (u.classVals (u.classOf c)) with earlyCount := r.earlyCount, auth := x }) ∧
      (∀ c, u.carrier? c = none → t.carrier? c = none) ∧
      (∀ k, k < 8 → t.crane k =
        Crane.fresh (u.crane k).frames (u.crane k).repeats (u.crane k).implausible) ∧
      (∀ c, t.version c = u.version c) ∧ t.cfg = u.cfg ∧ t.learning = u.learning ∧ t.eventSeqs = u.eventSeqs ∧
      t.cycle = (if u.mode = .active ∧ u.cfg.broadcast.mode ≠ .off then
          { u.cycle with timer := none, rerun := false }
        else u.cycle) ∧
      (∀ k, RadioLink.Fed (u.radio k) (t.radio k)) ∧
      (∀ m, t.dlink m = (u.dlink m).offers u.now
        (u.waiting.map (fun e => ⟨.pendingDropped, u.now, .carrier e.carrier, [.byte 0, .half e.tag]⟩) ++
          (u.carriers.rows.filter (fun x => decide (x.2.state ≠ .offline))).map
            (fun x => ⟨.carrierState, u.now, .carrier x.1, [.byte x.2.state.code, .byte 0]⟩) ++
          [⟨.mode, u.now, .nothing, [.byte u.mode.code, .byte 0, .byte 0x3E]⟩])) ∧
      t = { u with
        mode := .config, recoveryStart := none, segs := t.segs, routes := t.routes, waiting := []
        carriers := t.carriers, cranes := t.cranes, radios := t.radios, cycle := t.cycle, dispatch := t.dispatch })

/-- SAVE_SETTINGS and the end of its write (R169): the snapshot of the configuration is taken, the image is not valid
while it is written, which takes 1500 ms, and the read-back either makes the snapshot the image, with SAVE_DONE, or
leaves none, with SAVE_FAILED and the item; a save during a save is BUSY, and nothing ends before its time. That a
completion before its time is no event is log entry 3, and that the content of an image that is not valid stands as it
was log entry 54. -/
def Obligations.Saves : Prop :=
  ∀ (s u : State) (l : DLink), u = s.taken l → s.hasRoom l →
    (∀ v, u.save = some v →
      exec (.saveSettings l) s = .next (u.answered l ⟨0x3F, .busy, .save, false, [.word v.accepted.toNat]⟩)) ∧
    (u.save = none → exec (.saveSettings l) s = .next (State.answered
      { u with save := some ⟨u.now, u.cfg⟩, image := ⟨false, u.image.content⟩ } l
      ⟨0x3F, .accepted, .none_, false, [.word u.now.toNat]⟩)) ∧
    (∀ d, s.save = none → exec (.saveWriteCompletion d) s = .next s.pump) ∧
    (∀ v, s.save = some v →
      (∀ d, (s.now - v.accepted).toNat < 1500 → exec (.saveWriteCompletion d) s = .next s.pump) ∧
      (1500 ≤ (s.now - v.accepted).toNat →
        exec (.saveWriteCompletion none) s = .next (State.pump (State.post
          { s with save := none, image := ⟨true, v.snapshot⟩ } .saveDone .nothing [.word v.accepted.toNat])) ∧
        ∀ item : Fin 8, exec (.saveWriteCompletion (some item)) s = .next (State.pump (State.post
          { s with save := none } .saveFailed .nothing [.word v.accepted.toNat, .byte item.val]))))

/-! ## The line -/

/-- The receiver (R170, R171) in HUNT: bytes before the sync byte are skipped; a frame with a payload of 4 to 250
bytes and the CRC of its length, kind and payload is handed to its link whole, as the command that carries it; another
length, or another CRC, is one bad frame, counted on its link, and the receiver is in HUNT again with nothing else
changed. A frame left part-way leaves the receiver in HEADER or BODY with the bytes it has taken, and the bytes that
arrive later finish it as if all had arrived together.
The frames that the part sends (R170, R172, R174, R175): the envelope, and the payload of each kind byte by byte, with
the codes of its fields; and which frame a dispatch transmitter sends (R149). Numbers go high byte first; how an
absent value and a field's name are sent is log entry 9, so only the widths stand here. -/
def Obligations.ReceiverAndFrames : Prop :=
  (∀ (link : Link) (s h : State) (kind : Nat) (p : List Byte) (covered : List Byte), (s.receiver link).state = .hunt →
    h = s.putReceiver link ⟨.hunt, []⟩ →
    covered = [BitVec.ofNat 8 (p.length / 256), BitVec.ofNat 8 p.length, BitVec.ofNat 8 kind] ++ p →
    (∀ b bytes, b ≠ 0xA5 → exec (.badFrame link (b :: bytes)) s = exec (.badFrame link bytes) h) ∧
    (4 ≤ p.length → p.length ≤ 250 → kind < 256 → exec (.badFrame link (0xA5 :: covered ++
      [BitVec.ofNat 8 ((crc16 covered).toNat / 256), BitVec.ofNat 8 (crc16 covered).toNat])) s =
      .next (h.takeFrame link kind p)) ∧
    (∀ hi lo : Byte, 4 ≤ p.length → p.length ≤ 250 →
      (hi, lo) ≠ (BitVec.ofNat 8 ((crc16 covered).toNat / 256), BitVec.ofNat 8 (crc16 covered).toNat) →
      exec (.badFrame link (0xA5 :: covered ++ [hi, lo])) s = .next (h.countBad link)) ∧
    (∀ hi lo : Byte, hi.toNat * 256 + lo.toNat < 4 ∨ 250 < hi.toNat * 256 + lo.toNat →
      exec (.badFrame link [0xA5, hi, lo]) s = .next (h.countBad link)) ∧
    (∀ (hi lo : Byte) (taken rest : List Byte), 4 ≤ p.length → p.length ≤ 250 → covered ++ [hi, lo] = taken ++ rest →
      rest ≠ [] → exec (.badFrame link (0xA5 :: taken)) s =
        .next (s.putReceiver link ⟨if taken.length < 2 then .header else .body, taken⟩)) ∧
    (∀ l, (h.countBad (.dispatch l)) = h.onDlink l (fun d => { d with crcErrors := min (d.crcErrors + 1) 65535 })) ∧
    (∀ r, (h.countBad (.radio r)) = h.onRadio r (fun d => { d with crcErrors := min (d.crcErrors + 1) 65535 })) ∧
    (∀ k, (h.countBad (.crane k)) = h.onCraneLink k (fun d => { d with crcErrors := min (d.crcErrors + 1) 65535 }))) ∧
  (∀ (link : Link) (s t : State) (first later : List Byte), exec (.badFrame link first) s = .next t →
    exec (.badFrame link (first ++ later)) s = exec (.badFrame link later) t) ∧
  (∀ (s : State) (kind : Nat) (p : List Byte) (rx : Receiver),
    (∀ l, exec (.dispatchFrame l kind p) s = .next (s.takeFrame (.dispatch l) kind p) ∧
      s.putReceiver (.dispatch l) rx = s.onDlink l (fun d => { d with rx := rx })) ∧
    (∀ r, exec (.radioUnusableFrame r kind p) s = .next (s.takeFrame (.radio r) kind p) ∧
      s.putReceiver (.radio r) rx = s.onRadio r (fun d => { d with rx := rx })) ∧
    (∀ k, exec (.craneUnusableFrame k kind p) s = .next (s.takeFrame (.crane k) kind p) ∧
      s.putReceiver (.crane k) rx = s.onCraneLink k (fun d => { d with rx := rx }))) ∧
  (∀ (b : Nat → Byte) (h : Nat → List Byte) (w : Nat → List Byte), (∀ n, b n = BitVec.ofNat 8 n) →
    (∀ n, h n = [b (n / 256), b n]) → (∀ n, w n = [b (n / 16777216), b (n / 65536), b (n / 256), b n]) →
    (∀ kind p covered, covered = h p.length ++ [b kind] ++ p →
      envelope kind p = 0xA5 :: covered ++ h (crc16 covered).toNat) ∧
    (∀ n, (Val.byte n).bytes = [b n] ∧ (Val.half n).bytes = h n ∧ (Val.word n).bytes = w n ∧
      (Val.absent n).bytes.length = n ∧ (Val.field n).bytes.length = 1) ∧ (∀ bs, (Val.raw bs).bytes = bs) ∧
    (∀ r : Reply, r.line = envelope 0x7F ([b r.kind, b r.status.code] ++ h r.reason.code ++
      [b (if r.clamped then 1 else 0)] ++ r.detail.flatMap Val.bytes)) ∧
    (∀ (n : Notif) (subject : List Byte), (n.subject = .nothing → subject = b 0 :: h 65535) →
      (∀ c, n.subject = .carrier c → subject = b 1 :: h c) → (∀ c, n.subject = .crane c → subject = b 2 :: h c) →
      (∀ c, n.subject = .segment c → subject = b 3 :: h c) → (∀ c, n.subject = .link c → subject = b 4 :: h c) →
      n.line = envelope 0x7E (b n.kind.code :: w n.time.toNat ++ subject ++ n.detail.flatMap Val.bytes)) ∧
    (∀ a : Authority, (RadioFrame.authority a).line = envelope 0x08 (h a.carrier ++ h (a.echo.getD 65535) ++
      [b a.version, b a.command.code] ++ h (a.endSeg.getD 65535) ++ h a.endOff ++ [b a.code, b a.upcoming.length] ++
      a.upcoming.flatMap (fun i => h (i.getD 65535)))) ∧
    (∀ r : PictureRow, (RadioFrame.row r).line = envelope 0x09 ([b r.cycle, b r.lane, b r.bay, b r.codes.length] ++
      r.codes.map (fun c => b c.code))) ∧
    (∀ (r : Reply) (q : Option Nat) (t : Nat), (CraneFrame.reply r).line = r.line ∧
      (CraneFrame.hoistStop q).line = envelope 0x18 (h (q.getD 65535) ++ [0, 0]) ∧
      (CraneFrame.gantryStop q).line = envelope 0x19 (h (q.getD 65535) ++ [0, 0]) ∧
      (CraneFrame.lowerRevoked q t).line = envelope 0x1A (h (q.getD 65535) ++ [b t, 0])) ∧
    (∀ d : DispatchLink, (d.tx = .idle → d.line = []) ∧ (∀ r, d.tx = .reply r → d.line = r.line) ∧
      (∀ n rest, d.tx = .notification → d.notifs = n :: rest → d.line = n.line)) ∧
    (∀ a : ReportArgs, a.bytes = h a.carrier ++ [b a.seq] ++ h a.front ++ h a.frontRem ++ h a.rear ++ h a.speed ++
      [b a.flags]) ∧
    (∀ a : EventArgs, a.payload = h a.carrier ++ [b a.seq, b a.code, b a.bytes.length] ++ a.bytes)) ∧
  ([Status.granted, .accepted, .queued, .refused, .busy].map Status.code = List.range 5 ∧
    [Command.proceed, .hold, .stopNow, .emergency].map Command.code = List.range 4 ∧
    [PictureCode.free, .held, .locked, .closed].map PictureCode.code = List.range 4 ∧
    [Reason.none_, .badMode, .badKind, .badLength, .badValue, .badSegment, .unknownCarrier, .unknownCrane, .badClass,
      .alreadyRegistered, .badCarrierState, .badCraneState, .routeActive, .noRoute, .notAtStart, .notAdjacent,
      .repeated, .tooLong, .locked, .conflict, .outOfService, .intruded, .queueFull, .notPending, .noSighting, .moving,
      .invalid, .tooEarly, .busyApron, .inTransit, .claimActive, .badSlot, .slotDisabled, .noClaim, .hoistDown, .badBay,
      .sameBay, .faultActive, .sweep, .cycle, .save].map Reason.code = List.range 41 ∧
    [NotifKind.carrierState, .unknownCarrier, .earlyReport, .carrierMissing, .carrierLost, .overspeed, .intrusion,
      .entryBlocked, .pendingGranted, .pendingExpired, .pendingStale, .pendingDropped, .replaced, .claimLapsed,
      .hoistViolation, .gantryViolation, .craneFault, .hoistCrossing, .travelDone, .craneLinkDown, .craneLinkUp,
      .radioDown, .radioUp, .dispatchLost, .dispatchRegained, .broadcastDone, .flushDone, .saveDone, .saveFailed, .mode,
      .dropped, .copy].map NotifKind.code = List.range 32)

/-! ## The invariant -/

/-- The part right after reset is as the manual allows it. -/
def Obligations.ResetIsSound : Prop :=
State.Inv State.reset

/-- Every step keeps the part as the manual allows it (R17, R34, R39, R40, R41, R96, R108, R109, R118, R121, R125,
R128, R144, R147, R152, R153, R156, R158, R159, R164, R169): from every such state, whatever the command, and as time
passes. In particular no hoist lock keeps an entry without a reason, so that a lock is gone with its last reason. -/
def Obligations.EveryStepIsSound : Prop :=
∀ s t : State, State.Inv s → step s = .next t → State.Inv t
end

