-- ==== Sys2Proof/Laws/Table.lean ====
section
/-! SUPPORT. The laws of keyed tables: a read after a write, writes to other keys, removal, filled tables, the keys that
pass a test, and the canonical form (strictly rising keys) that every table operation keeps. -/

namespace Sys2Proof

variable {α β : Type}

/-! ## Reads -/

@[simp] theorem findRow_putRow_self (k : Nat) (v : α) (l : List (Nat × α)) : findRow k (putRow k v l) = some v := by
  induction l with
  | nil => simp [putRow, findRow]
  | cons p rest ih =>
    obtain ⟨j, u⟩ := p
    unfold putRow
    split
    · simp [findRow]
    · split
      · simp [findRow]
      · rename_i h1 h2
        simp [findRow, Ne.symm h2, ih]

theorem findRow_putRow_ne {k m : Nat} (h : m ≠ k) (v : α) (l : List (Nat × α)) :
    findRow m (putRow k v l) = findRow m l := by
  induction l with
  | nil => simp [putRow, findRow, Ne.symm h]
  | cons p rest ih =>
    obtain ⟨j, u⟩ := p
    unfold putRow
    split
    · simp [findRow, Ne.symm h]
    · split
      · rename_i h2
        subst h2
        simp [findRow, Ne.symm h]
      · simp only [findRow, ih]

@[simp] theorem Table.get?_put_self (t : Table α) (k : Nat) (v : α) : (t.put k v).get? k = some v :=
  findRow_putRow_self k v t.rows

theorem Table.get?_put_ne (t : Table α) {k m : Nat} (v : α) (h : m ≠ k) : (t.put k v).get? m = t.get? m :=
  findRow_putRow_ne h v t.rows

theorem Table.get?_put (t : Table α) (k m : Nat) (v : α) :
    (t.put k v).get? m = if m = k then some v else t.get? m := by
  split
  · next h => rw [h, get?_put_self]
  · next h => exact get?_put_ne t v h

@[simp] theorem Table.get_put_self (t : Table α) (k : Nat) (v d : α) : (t.put k v).get k d = v := by
  simp [Table.get]

theorem Table.get_put_ne (t : Table α) {k m : Nat} (v d : α) (h : m ≠ k) : (t.put k v).get m d = t.get m d := by
  simp [Table.get, get?_put_ne t v h]

theorem Table.get_put (t : Table α) (k m : Nat) (v d : α) :
    (t.put k v).get m d = if m = k then v else t.get m d := by
  split
  · next h => rw [h, get_put_self]
  · next h => exact get_put_ne t v d h

theorem findRow_filter_key (q : Nat → Bool) (k : Nat) (l : List (Nat × α)) :
    findRow k (l.filter (fun r => q r.1)) = if q k then findRow k l else none := by
  induction l with
  | nil => simp [findRow]
  | cons p rest ih =>
    obtain ⟨j, u⟩ := p
    by_cases hj : j = k
    · subst hj
      by_cases hq : q j <;> simp [findRow, hq, ih]
    · by_cases hq : q j <;> simp [findRow, hq, ih, hj]

theorem Table.get?_del (t : Table α) (k m : Nat) : (t.del k).get? m = if m = k then none else t.get? m := by
  have h := findRow_filter_key (fun x => decide (x ≠ k)) m t.rows
  simp only [Table.del, Table.get?, ne_eq, decide_not] at h ⊢
  rw [h]
  by_cases hm : m = k <;> simp [hm]

@[simp] theorem Table.get?_del_self (t : Table α) (k : Nat) : (t.del k).get? k = none := by simp [get?_del]

theorem Table.get?_del_ne (t : Table α) {k m : Nat} (h : m ≠ k) : (t.del k).get? m = t.get? m := by
  simp [get?_del, h]

@[simp] theorem Table.get?_mapVals (t : Table α) (f : α → β) (k : Nat) :
    (t.mapVals f).get? k = (t.get? k).map f := by
  obtain ⟨l⟩ := t
  simp only [Table.mapVals, Table.get?]
  induction l with
  | nil => rfl
  | cons p rest ih =>
    obtain ⟨j, u⟩ := p
    simp only [List.map_cons, findRow]
    split
    · rfl
    · exact ih

theorem Table.get_mapVals (t : Table α) (f : α → α) (k : Nat) (d : α) (h : f d = d) :
    (t.mapVals f).get k d = f (t.get k d) := by
  simp only [Table.get, get?_mapVals]
  cases t.get? k <;> simp [h]

@[simp] theorem Table.get?_empty (k : Nat) : (Table.empty : Table α).get? k = none := rfl

@[simp] theorem Table.has_eq (t : Table α) (k : Nat) : t.has k = (t.get? k).isSome := rfl

theorem findRow_map_range (f : Nat → α) (k n : Nat) :
    ∀ m, m ≤ k → findRow k ((List.range' m n).map (fun i => (i, f i))) = if k < m + n then some (f k) else none := by
  induction n with
  | zero => intro m h; simp [findRow]; omega
  | succ n ih =>
    intro m h
    simp only [List.range'_succ, List.map_cons, findRow]
    by_cases hm : m = k
    · subst hm; simp
    · rw [if_neg hm, ih (m + 1) (by omega)]
      congr 1
      simp only [eq_iff_iff]
      omega

/-- A table written out over the keys below `n`. -/
theorem Table.get?_map_range (f : Nat → α) (n k : Nat) :
    (Table.mk ((List.range n).map (fun i => (i, f i)))).get? k = if k < n then some (f k) else none := by
  have h := findRow_map_range f k n 0 (Nat.zero_le k)
  rw [List.range_eq_range']
  simpa [Table.get?] using h

theorem Table.get?_filled (n k : Nat) (v : α) : (Table.filled n v).get? k = if k < n then some v else none :=
  Table.get?_map_range (fun _ => v) n k

@[simp] theorem Table.get_filled (n k : Nat) (v : α) : (Table.filled n v).get k v = v := by
  simp only [Table.get, get?_filled]
  split <;> rfl

/-! ## The canonical form -/

theorem Table.sorted_empty : (Table.empty : Table α).Sorted := List.Pairwise.nil

theorem mem_putRow_key {k : Nat} {v : α} {l : List (Nat × α)} {r : Nat × α} (h : r ∈ putRow k v l) :
    r.1 = k ∨ r ∈ l := by
  induction l with
  | nil => simp [putRow] at h; simp [h]
  | cons p rest ih =>
    obtain ⟨j, u⟩ := p
    unfold putRow at h
    split at h
    · rcases List.mem_cons.1 h with h | h
      · simp [h]
      · exact Or.inr h
    · split at h
      · rcases List.mem_cons.1 h with h | h
        · simp [h]
        · exact Or.inr (List.mem_cons_of_mem _ h)
      · rcases List.mem_cons.1 h with h | h
        · simp [h]
        · rcases ih h with h | h
          · exact Or.inl h
          · exact Or.inr (List.mem_cons_of_mem _ h)

theorem Table.sorted_put {t : Table α} (k : Nat) (v : α) (h : t.Sorted) : (t.put k v).Sorted := by
  obtain ⟨l⟩ := t
  simp only [Table.Sorted, Table.put] at h ⊢
  induction l with
  | nil => simp [putRow]
  | cons p rest ih =>
    obtain ⟨j, u⟩ := p
    rw [List.pairwise_cons] at h
    unfold putRow
    split
    · next hk =>
      refine List.pairwise_cons.2 ⟨?_, List.pairwise_cons.2 h⟩
      intro r hr
      rcases List.mem_cons.1 hr with hr | hr
      · simpa [hr] using hk
      · exact Nat.lt_trans hk (h.1 r hr)
    · split
      · next hk =>
        subst hk
        exact List.pairwise_cons.2 ⟨h.1, h.2⟩
      · refine List.pairwise_cons.2 ⟨?_, ih h.2⟩
        intro r hr
        rcases mem_putRow_key hr with hr | hr
        · show j < r.1
          omega
        · exact h.1 r hr

theorem Table.sorted_del {t : Table α} (k : Nat) (h : t.Sorted) : (t.del k).Sorted := List.Pairwise.filter _ h

theorem Table.sorted_filter {t : Table α} (p : Nat → α → Bool) (h : t.Sorted) : (t.filter p).Sorted :=
  List.Pairwise.filter _ h

theorem Table.sorted_mapVals {t : Table α} (f : α → β) (h : t.Sorted) : (t.mapVals f).Sorted := by
  simp only [Table.Sorted, Table.mapVals, List.pairwise_map] at h ⊢
  exact h

theorem Table.sorted_map_range (f : Nat → α) (n : Nat) :
    (Table.mk ((List.range n).map (fun i => (i, f i)))).Sorted := by
  simp only [Table.Sorted, List.pairwise_map]
  exact List.pairwise_lt_range

theorem Table.sorted_filled (n : Nat) (v : α) : (Table.filled n v).Sorted := Table.sorted_map_range (fun _ => v) n

/-! ## Rows and reads of a table in canonical form -/

theorem findRow_of_mem {l : List (Nat × α)} (h : l.Pairwise (fun a b => a.1 < b.1)) {k : Nat} {v : α}
    (hm : (k, v) ∈ l) : findRow k l = some v := by
  induction l with
  | nil => cases hm
  | cons p rest ih =>
    obtain ⟨j, u⟩ := p
    rw [List.pairwise_cons] at h
    rcases List.mem_cons.1 hm with hm | hm
    · simp only [Prod.mk.injEq] at hm
      simp [findRow, hm.1, hm.2]
    · have hlt := h.1 _ hm
      have hne : j ≠ k := Nat.ne_of_lt hlt
      simp [findRow, hne, ih h.2 hm]

theorem mem_of_findRow {l : List (Nat × α)} {k : Nat} {v : α} (h : findRow k l = some v) : (k, v) ∈ l := by
  induction l with
  | nil => simp [findRow] at h
  | cons p rest ih =>
    obtain ⟨j, u⟩ := p
    simp only [findRow] at h
    split at h
    · next hj => simp_all
    · exact List.mem_cons_of_mem _ (ih h)

theorem Table.mem_rows_iff {t : Table α} (h : t.Sorted) (k : Nat) (v : α) : (k, v) ∈ t.rows ↔ t.get? k = some v :=
  ⟨findRow_of_mem h, mem_of_findRow⟩

/-- The keys that pass a test are those whose value passes it. -/
theorem Table.mem_keysWhere {t : Table α} (h : t.Sorted) (p : α → Bool) (k : Nat) :
    k ∈ t.keysWhere p ↔ ∃ v, t.get? k = some v ∧ p v = true := by
  simp only [Table.keysWhere, List.mem_map, List.mem_filter]
  constructor
  · rintro ⟨⟨j, v⟩, ⟨hm, hp⟩, rfl⟩
    exact ⟨v, (mem_rows_iff h _ _).1 hm, hp⟩
  · rintro ⟨v, hv, hp⟩
    exact ⟨(k, v), ⟨(mem_rows_iff h _ _).2 hv, hp⟩, rfl⟩

/-- A key that passes a test has a row that does, in canonical form or not. -/
theorem Table.get?_isSome_of_mem_keysWhere {t : Table α} (p : α → Bool) {k : Nat} (h : k ∈ t.keysWhere p) :
    (t.get? k).isSome = true := by
  obtain ⟨l⟩ := t
  simp only [Table.keysWhere, Table.get?, List.mem_map, List.mem_filter] at h ⊢
  obtain ⟨⟨j, v⟩, ⟨hm, -⟩, rfl⟩ := h
  induction l with
  | nil => cases hm
  | cons r rest ih =>
    obtain ⟨i, u⟩ := r
    simp only [findRow]
    split
    · rfl
    · rcases List.mem_cons.1 hm with hm | hm
      · simp_all
      · exact ih hm

theorem Table.mem_keysWhere_of_get? {t : Table α} {p : α → Bool} {k : Nat} {v : α} (hv : t.get? k = some v)
    (hp : p v = true) : k ∈ t.keysWhere p := by
  simp only [Table.keysWhere, List.mem_map, List.mem_filter]
  exact ⟨(k, v), ⟨mem_of_findRow hv, hp⟩, rfl⟩

theorem Table.nodup_keysWhere {t : Table α} (h : t.Sorted) (p : α → Bool) : (t.keysWhere p).Nodup := by
  simp only [Table.keysWhere, List.Nodup, List.pairwise_map]
  exact (List.Pairwise.filter _ h).imp (fun hlt => Nat.ne_of_lt hlt)

theorem Table.mem_keys {t : Table α} (k : Nat) : k ∈ t.keys ↔ (t.get? k).isSome = true := by
  constructor
  · intro hk
    simp only [Table.keys, List.mem_map] at hk
    obtain ⟨r, hr, rfl⟩ := hk
    exact Table.get?_isSome_of_mem_keysWhere (fun _ => true) (by
      simp only [Table.keysWhere, List.mem_map, List.mem_filter]
      exact ⟨r, ⟨hr, trivial⟩, rfl⟩)
  · intro hk
    obtain ⟨v, hv⟩ := Option.isSome_iff_exists.1 hk
    simp only [Table.keys, List.mem_map]
    exact ⟨(k, v), mem_of_findRow hv, rfl⟩

end Sys2Proof
end

