-- ==== Sys2Proof/Laws/State.lean ====
section
/-! SUPPORT. What each named update of the part leaves unchanged, field by field, and what a read after an update
gives. -/

namespace Sys2Proof.Machine

variable (s : State)

/-! ### State.putSeg -/

@[simp] theorem State.putSeg_pending (i : Nat) (r : SegDyn) : (s.putSeg i r).pending = s.pending := rfl
@[simp] theorem State.putSeg_now (i : Nat) (r : SegDyn) : (s.putSeg i r).now = s.now := rfl
@[simp] theorem State.putSeg_mode (i : Nat) (r : SegDyn) : (s.putSeg i r).mode = s.mode := rfl
@[simp] theorem State.putSeg_recoveryStart (i : Nat) (r : SegDyn) : (s.putSeg i r).recoveryStart = s.recoveryStart := rfl
@[simp] theorem State.putSeg_cfg (i : Nat) (r : SegDyn) : (s.putSeg i r).cfg = s.cfg := rfl
@[simp] theorem State.putSeg_image (i : Nat) (r : SegDyn) : (s.putSeg i r).image = s.image := rfl
@[simp] theorem State.putSeg_save (i : Nat) (r : SegDyn) : (s.putSeg i r).save = s.save := rfl
@[simp] theorem State.putSeg_routes (i : Nat) (r : SegDyn) : (s.putSeg i r).routes = s.routes := rfl
@[simp] theorem State.putSeg_versions (i : Nat) (r : SegDyn) : (s.putSeg i r).versions = s.versions := rfl
@[simp] theorem State.putSeg_waiting (i : Nat) (r : SegDyn) : (s.putSeg i r).waiting = s.waiting := rfl
@[simp] theorem State.putSeg_dlcClosed (i : Nat) (r : SegDyn) : (s.putSeg i r).dlcClosed = s.dlcClosed := rfl
@[simp] theorem State.putSeg_rlcClosed (i : Nat) (r : SegDyn) : (s.putSeg i r).rlcClosed = s.rlcClosed := rfl
@[simp] theorem State.putSeg_carriers (i : Nat) (r : SegDyn) : (s.putSeg i r).carriers = s.carriers := rfl
@[simp] theorem State.putSeg_unregistered (i : Nat) (r : SegDyn) : (s.putSeg i r).unregistered = s.unregistered := rfl
@[simp] theorem State.putSeg_unknownTimes (i : Nat) (r : SegDyn) : (s.putSeg i r).unknownTimes = s.unknownTimes := rfl
@[simp] theorem State.putSeg_cranes (i : Nat) (r : SegDyn) : (s.putSeg i r).cranes = s.cranes := rfl
@[simp] theorem State.putSeg_craneLinks (i : Nat) (r : SegDyn) : (s.putSeg i r).craneLinks = s.craneLinks := rfl
@[simp] theorem State.putSeg_radios (i : Nat) (r : SegDyn) : (s.putSeg i r).radios = s.radios := rfl
@[simp] theorem State.putSeg_learning (i : Nat) (r : SegDyn) : (s.putSeg i r).learning = s.learning := rfl
@[simp] theorem State.putSeg_eventSeqs (i : Nat) (r : SegDyn) : (s.putSeg i r).eventSeqs = s.eventSeqs := rfl
@[simp] theorem State.putSeg_flush (i : Nat) (r : SegDyn) : (s.putSeg i r).flush = s.flush := rfl
@[simp] theorem State.putSeg_cycle (i : Nat) (r : SegDyn) : (s.putSeg i r).cycle = s.cycle := rfl
@[simp] theorem State.putSeg_dispatch (i : Nat) (r : SegDyn) : (s.putSeg i r).dispatch = s.dispatch := rfl
@[simp] theorem State.putSeg_lossSince (i : Nat) (r : SegDyn) : (s.putSeg i r).lossSince = s.lossSince := rfl

/-! ### State.putCarrier -/

@[simp] theorem State.putCarrier_pending (c : Nat) (r : Carrier) : (s.putCarrier c r).pending = s.pending := rfl
@[simp] theorem State.putCarrier_now (c : Nat) (r : Carrier) : (s.putCarrier c r).now = s.now := rfl
@[simp] theorem State.putCarrier_mode (c : Nat) (r : Carrier) : (s.putCarrier c r).mode = s.mode := rfl
@[simp] theorem State.putCarrier_recoveryStart (c : Nat) (r : Carrier) : (s.putCarrier c r).recoveryStart = s.recoveryStart := rfl
@[simp] theorem State.putCarrier_cfg (c : Nat) (r : Carrier) : (s.putCarrier c r).cfg = s.cfg := rfl
@[simp] theorem State.putCarrier_image (c : Nat) (r : Carrier) : (s.putCarrier c r).image = s.image := rfl
@[simp] theorem State.putCarrier_save (c : Nat) (r : Carrier) : (s.putCarrier c r).save = s.save := rfl
@[simp] theorem State.putCarrier_segs (c : Nat) (r : Carrier) : (s.putCarrier c r).segs = s.segs := rfl
@[simp] theorem State.putCarrier_routes (c : Nat) (r : Carrier) : (s.putCarrier c r).routes = s.routes := rfl
@[simp] theorem State.putCarrier_versions (c : Nat) (r : Carrier) : (s.putCarrier c r).versions = s.versions := rfl
@[simp] theorem State.putCarrier_waiting (c : Nat) (r : Carrier) : (s.putCarrier c r).waiting = s.waiting := rfl
@[simp] theorem State.putCarrier_dlcClosed (c : Nat) (r : Carrier) : (s.putCarrier c r).dlcClosed = s.dlcClosed := rfl
@[simp] theorem State.putCarrier_rlcClosed (c : Nat) (r : Carrier) : (s.putCarrier c r).rlcClosed = s.rlcClosed := rfl
@[simp] theorem State.putCarrier_unregistered (c : Nat) (r : Carrier) : (s.putCarrier c r).unregistered = s.unregistered := rfl
@[simp] theorem State.putCarrier_unknownTimes (c : Nat) (r : Carrier) : (s.putCarrier c r).unknownTimes = s.unknownTimes := rfl
@[simp] theorem State.putCarrier_cranes (c : Nat) (r : Carrier) : (s.putCarrier c r).cranes = s.cranes := rfl
@[simp] theorem State.putCarrier_craneLinks (c : Nat) (r : Carrier) : (s.putCarrier c r).craneLinks = s.craneLinks := rfl
@[simp] theorem State.putCarrier_radios (c : Nat) (r : Carrier) : (s.putCarrier c r).radios = s.radios := rfl
@[simp] theorem State.putCarrier_learning (c : Nat) (r : Carrier) : (s.putCarrier c r).learning = s.learning := rfl
@[simp] theorem State.putCarrier_eventSeqs (c : Nat) (r : Carrier) : (s.putCarrier c r).eventSeqs = s.eventSeqs := rfl
@[simp] theorem State.putCarrier_flush (c : Nat) (r : Carrier) : (s.putCarrier c r).flush = s.flush := rfl
@[simp] theorem State.putCarrier_cycle (c : Nat) (r : Carrier) : (s.putCarrier c r).cycle = s.cycle := rfl
@[simp] theorem State.putCarrier_dispatch (c : Nat) (r : Carrier) : (s.putCarrier c r).dispatch = s.dispatch := rfl
@[simp] theorem State.putCarrier_lossSince (c : Nat) (r : Carrier) : (s.putCarrier c r).lossSince = s.lossSince := rfl

/-! ### State.onCarrier -/

@[simp] theorem State.onCarrier_pending (c : Nat) (f : Carrier → Carrier) : (s.onCarrier c f).pending = s.pending := by unfold State.onCarrier; split <;> rfl
@[simp] theorem State.onCarrier_now (c : Nat) (f : Carrier → Carrier) : (s.onCarrier c f).now = s.now := by unfold State.onCarrier; split <;> rfl
@[simp] theorem State.onCarrier_mode (c : Nat) (f : Carrier → Carrier) : (s.onCarrier c f).mode = s.mode := by unfold State.onCarrier; split <;> rfl
@[simp] theorem State.onCarrier_recoveryStart (c : Nat) (f : Carrier → Carrier) : (s.onCarrier c f).recoveryStart = s.recoveryStart := by unfold State.onCarrier; split <;> rfl
@[simp] theorem State.onCarrier_cfg (c : Nat) (f : Carrier → Carrier) : (s.onCarrier c f).cfg = s.cfg := by unfold State.onCarrier; split <;> rfl
@[simp] theorem State.onCarrier_image (c : Nat) (f : Carrier → Carrier) : (s.onCarrier c f).image = s.image := by unfold State.onCarrier; split <;> rfl
@[simp] theorem State.onCarrier_save (c : Nat) (f : Carrier → Carrier) : (s.onCarrier c f).save = s.save := by unfold State.onCarrier; split <;> rfl
@[simp] theorem State.onCarrier_segs (c : Nat) (f : Carrier → Carrier) : (s.onCarrier c f).segs = s.segs := by unfold State.onCarrier; split <;> rfl
@[simp] theorem State.onCarrier_routes (c : Nat) (f : Carrier → Carrier) : (s.onCarrier c f).routes = s.routes := by unfold State.onCarrier; split <;> rfl
@[simp] theorem State.onCarrier_versions (c : Nat) (f : Carrier → Carrier) : (s.onCarrier c f).versions = s.versions := by unfold State.onCarrier; split <;> rfl
@[simp] theorem State.onCarrier_waiting (c : Nat) (f : Carrier → Carrier) : (s.onCarrier c f).waiting = s.waiting := by unfold State.onCarrier; split <;> rfl
@[simp] theorem State.onCarrier_dlcClosed (c : Nat) (f : Carrier → Carrier) : (s.onCarrier c f).dlcClosed = s.dlcClosed := by unfold State.onCarrier; split <;> rfl
@[simp] theorem State.onCarrier_rlcClosed (c : Nat) (f : Carrier → Carrier) : (s.onCarrier c f).rlcClosed = s.rlcClosed := by unfold State.onCarrier; split <;> rfl
@[simp] theorem State.onCarrier_unregistered (c : Nat) (f : Carrier → Carrier) : (s.onCarrier c f).unregistered = s.unregistered := by unfold State.onCarrier; split <;> rfl
@[simp] theorem State.onCarrier_unknownTimes (c : Nat) (f : Carrier → Carrier) : (s.onCarrier c f).unknownTimes = s.unknownTimes := by unfold State.onCarrier; split <;> rfl
@[simp] theorem State.onCarrier_cranes (c : Nat) (f : Carrier → Carrier) : (s.onCarrier c f).cranes = s.cranes := by unfold State.onCarrier; split <;> rfl
@[simp] theorem State.onCarrier_craneLinks (c : Nat) (f : Carrier → Carrier) : (s.onCarrier c f).craneLinks = s.craneLinks := by unfold State.onCarrier; split <;> rfl
@[simp] theorem State.onCarrier_radios (c : Nat) (f : Carrier → Carrier) : (s.onCarrier c f).radios = s.radios := by unfold State.onCarrier; split <;> rfl
@[simp] theorem State.onCarrier_learning (c : Nat) (f : Carrier → Carrier) : (s.onCarrier c f).learning = s.learning := by unfold State.onCarrier; split <;> rfl
@[simp] theorem State.onCarrier_eventSeqs (c : Nat) (f : Carrier → Carrier) : (s.onCarrier c f).eventSeqs = s.eventSeqs := by unfold State.onCarrier; split <;> rfl
@[simp] theorem State.onCarrier_flush (c : Nat) (f : Carrier → Carrier) : (s.onCarrier c f).flush = s.flush := by unfold State.onCarrier; split <;> rfl
@[simp] theorem State.onCarrier_cycle (c : Nat) (f : Carrier → Carrier) : (s.onCarrier c f).cycle = s.cycle := by unfold State.onCarrier; split <;> rfl
@[simp] theorem State.onCarrier_dispatch (c : Nat) (f : Carrier → Carrier) : (s.onCarrier c f).dispatch = s.dispatch := by unfold State.onCarrier; split <;> rfl
@[simp] theorem State.onCarrier_lossSince (c : Nat) (f : Carrier → Carrier) : (s.onCarrier c f).lossSince = s.lossSince := by unfold State.onCarrier; split <;> rfl

/-! ### State.dropEntry -/

@[simp] theorem State.dropEntry_pending (c : Nat) : (s.dropEntry c).pending = s.pending := rfl
@[simp] theorem State.dropEntry_now (c : Nat) : (s.dropEntry c).now = s.now := rfl
@[simp] theorem State.dropEntry_mode (c : Nat) : (s.dropEntry c).mode = s.mode := rfl
@[simp] theorem State.dropEntry_recoveryStart (c : Nat) : (s.dropEntry c).recoveryStart = s.recoveryStart := rfl
@[simp] theorem State.dropEntry_cfg (c : Nat) : (s.dropEntry c).cfg = s.cfg := rfl
@[simp] theorem State.dropEntry_image (c : Nat) : (s.dropEntry c).image = s.image := rfl
@[simp] theorem State.dropEntry_save (c : Nat) : (s.dropEntry c).save = s.save := rfl
@[simp] theorem State.dropEntry_segs (c : Nat) : (s.dropEntry c).segs = s.segs := rfl
@[simp] theorem State.dropEntry_routes (c : Nat) : (s.dropEntry c).routes = s.routes := rfl
@[simp] theorem State.dropEntry_versions (c : Nat) : (s.dropEntry c).versions = s.versions := rfl
@[simp] theorem State.dropEntry_dlcClosed (c : Nat) : (s.dropEntry c).dlcClosed = s.dlcClosed := rfl
@[simp] theorem State.dropEntry_rlcClosed (c : Nat) : (s.dropEntry c).rlcClosed = s.rlcClosed := rfl
@[simp] theorem State.dropEntry_carriers (c : Nat) : (s.dropEntry c).carriers = s.carriers := rfl
@[simp] theorem State.dropEntry_unregistered (c : Nat) : (s.dropEntry c).unregistered = s.unregistered := rfl
@[simp] theorem State.dropEntry_unknownTimes (c : Nat) : (s.dropEntry c).unknownTimes = s.unknownTimes := rfl
@[simp] theorem State.dropEntry_cranes (c : Nat) : (s.dropEntry c).cranes = s.cranes := rfl
@[simp] theorem State.dropEntry_craneLinks (c : Nat) : (s.dropEntry c).craneLinks = s.craneLinks := rfl
@[simp] theorem State.dropEntry_radios (c : Nat) : (s.dropEntry c).radios = s.radios := rfl
@[simp] theorem State.dropEntry_learning (c : Nat) : (s.dropEntry c).learning = s.learning := rfl
@[simp] theorem State.dropEntry_eventSeqs (c : Nat) : (s.dropEntry c).eventSeqs = s.eventSeqs := rfl
@[simp] theorem State.dropEntry_flush (c : Nat) : (s.dropEntry c).flush = s.flush := rfl
@[simp] theorem State.dropEntry_cycle (c : Nat) : (s.dropEntry c).cycle = s.cycle := rfl
@[simp] theorem State.dropEntry_dispatch (c : Nat) : (s.dropEntry c).dispatch = s.dispatch := rfl
@[simp] theorem State.dropEntry_lossSince (c : Nat) : (s.dropEntry c).lossSince = s.lossSince := rfl

/-! ### State.onCrane -/

@[simp] theorem State.onCrane_pending (k : Nat) (f : Crane → Crane) : (s.onCrane k f).pending = s.pending := rfl
@[simp] theorem State.onCrane_now (k : Nat) (f : Crane → Crane) : (s.onCrane k f).now = s.now := rfl
@[simp] theorem State.onCrane_mode (k : Nat) (f : Crane → Crane) : (s.onCrane k f).mode = s.mode := rfl
@[simp] theorem State.onCrane_recoveryStart (k : Nat) (f : Crane → Crane) : (s.onCrane k f).recoveryStart = s.recoveryStart := rfl
@[simp] theorem State.onCrane_cfg (k : Nat) (f : Crane → Crane) : (s.onCrane k f).cfg = s.cfg := rfl
@[simp] theorem State.onCrane_image (k : Nat) (f : Crane → Crane) : (s.onCrane k f).image = s.image := rfl
@[simp] theorem State.onCrane_save (k : Nat) (f : Crane → Crane) : (s.onCrane k f).save = s.save := rfl
@[simp] theorem State.onCrane_segs (k : Nat) (f : Crane → Crane) : (s.onCrane k f).segs = s.segs := rfl
@[simp] theorem State.onCrane_routes (k : Nat) (f : Crane → Crane) : (s.onCrane k f).routes = s.routes := rfl
@[simp] theorem State.onCrane_versions (k : Nat) (f : Crane → Crane) : (s.onCrane k f).versions = s.versions := rfl
@[simp] theorem State.onCrane_waiting (k : Nat) (f : Crane → Crane) : (s.onCrane k f).waiting = s.waiting := rfl
@[simp] theorem State.onCrane_dlcClosed (k : Nat) (f : Crane → Crane) : (s.onCrane k f).dlcClosed = s.dlcClosed := rfl
@[simp] theorem State.onCrane_rlcClosed (k : Nat) (f : Crane → Crane) : (s.onCrane k f).rlcClosed = s.rlcClosed := rfl
@[simp] theorem State.onCrane_carriers (k : Nat) (f : Crane → Crane) : (s.onCrane k f).carriers = s.carriers := rfl
@[simp] theorem State.onCrane_unregistered (k : Nat) (f : Crane → Crane) : (s.onCrane k f).unregistered = s.unregistered := rfl
@[simp] theorem State.onCrane_unknownTimes (k : Nat) (f : Crane → Crane) : (s.onCrane k f).unknownTimes = s.unknownTimes := rfl
@[simp] theorem State.onCrane_craneLinks (k : Nat) (f : Crane → Crane) : (s.onCrane k f).craneLinks = s.craneLinks := rfl
@[simp] theorem State.onCrane_radios (k : Nat) (f : Crane → Crane) : (s.onCrane k f).radios = s.radios := rfl
@[simp] theorem State.onCrane_learning (k : Nat) (f : Crane → Crane) : (s.onCrane k f).learning = s.learning := rfl
@[simp] theorem State.onCrane_eventSeqs (k : Nat) (f : Crane → Crane) : (s.onCrane k f).eventSeqs = s.eventSeqs := rfl
@[simp] theorem State.onCrane_flush (k : Nat) (f : Crane → Crane) : (s.onCrane k f).flush = s.flush := rfl
@[simp] theorem State.onCrane_cycle (k : Nat) (f : Crane → Crane) : (s.onCrane k f).cycle = s.cycle := rfl
@[simp] theorem State.onCrane_dispatch (k : Nat) (f : Crane → Crane) : (s.onCrane k f).dispatch = s.dispatch := rfl
@[simp] theorem State.onCrane_lossSince (k : Nat) (f : Crane → Crane) : (s.onCrane k f).lossSince = s.lossSince := rfl

/-! ### State.onCraneLink -/

@[simp] theorem State.onCraneLink_pending (k : Nat) (f : CraneLink → CraneLink) : (s.onCraneLink k f).pending = s.pending := rfl
@[simp] theorem State.onCraneLink_now (k : Nat) (f : CraneLink → CraneLink) : (s.onCraneLink k f).now = s.now := rfl
@[simp] theorem State.onCraneLink_mode (k : Nat) (f : CraneLink → CraneLink) : (s.onCraneLink k f).mode = s.mode := rfl
@[simp] theorem State.onCraneLink_recoveryStart (k : Nat) (f : CraneLink → CraneLink) : (s.onCraneLink k f).recoveryStart = s.recoveryStart := rfl
@[simp] theorem State.onCraneLink_cfg (k : Nat) (f : CraneLink → CraneLink) : (s.onCraneLink k f).cfg = s.cfg := rfl
@[simp] theorem State.onCraneLink_image (k : Nat) (f : CraneLink → CraneLink) : (s.onCraneLink k f).image = s.image := rfl
@[simp] theorem State.onCraneLink_save (k : Nat) (f : CraneLink → CraneLink) : (s.onCraneLink k f).save = s.save := rfl
@[simp] theorem State.onCraneLink_segs (k : Nat) (f : CraneLink → CraneLink) : (s.onCraneLink k f).segs = s.segs := rfl
@[simp] theorem State.onCraneLink_routes (k : Nat) (f : CraneLink → CraneLink) : (s.onCraneLink k f).routes = s.routes := rfl
@[simp] theorem State.onCraneLink_versions (k : Nat) (f : CraneLink → CraneLink) : (s.onCraneLink k f).versions = s.versions := rfl
@[simp] theorem State.onCraneLink_waiting (k : Nat) (f : CraneLink → CraneLink) : (s.onCraneLink k f).waiting = s.waiting := rfl
@[simp] theorem State.onCraneLink_dlcClosed (k : Nat) (f : CraneLink → CraneLink) : (s.onCraneLink k f).dlcClosed = s.dlcClosed := rfl
@[simp] theorem State.onCraneLink_rlcClosed (k : Nat) (f : CraneLink → CraneLink) : (s.onCraneLink k f).rlcClosed = s.rlcClosed := rfl
@[simp] theorem State.onCraneLink_carriers (k : Nat) (f : CraneLink → CraneLink) : (s.onCraneLink k f).carriers = s.carriers := rfl
@[simp] theorem State.onCraneLink_unregistered (k : Nat) (f : CraneLink → CraneLink) : (s.onCraneLink k f).unregistered = s.unregistered := rfl
@[simp] theorem State.onCraneLink_unknownTimes (k : Nat) (f : CraneLink → CraneLink) : (s.onCraneLink k f).unknownTimes = s.unknownTimes := rfl
@[simp] theorem State.onCraneLink_cranes (k : Nat) (f : CraneLink → CraneLink) : (s.onCraneLink k f).cranes = s.cranes := rfl
@[simp] theorem State.onCraneLink_radios (k : Nat) (f : CraneLink → CraneLink) : (s.onCraneLink k f).radios = s.radios := rfl
@[simp] theorem State.onCraneLink_learning (k : Nat) (f : CraneLink → CraneLink) : (s.onCraneLink k f).learning = s.learning := rfl
@[simp] theorem State.onCraneLink_eventSeqs (k : Nat) (f : CraneLink → CraneLink) : (s.onCraneLink k f).eventSeqs = s.eventSeqs := rfl
@[simp] theorem State.onCraneLink_flush (k : Nat) (f : CraneLink → CraneLink) : (s.onCraneLink k f).flush = s.flush := rfl
@[simp] theorem State.onCraneLink_cycle (k : Nat) (f : CraneLink → CraneLink) : (s.onCraneLink k f).cycle = s.cycle := rfl
@[simp] theorem State.onCraneLink_dispatch (k : Nat) (f : CraneLink → CraneLink) : (s.onCraneLink k f).dispatch = s.dispatch := rfl
@[simp] theorem State.onCraneLink_lossSince (k : Nat) (f : CraneLink → CraneLink) : (s.onCraneLink k f).lossSince = s.lossSince := rfl

/-! ### State.onRadio -/

@[simp] theorem State.onRadio_pending (r : Nat) (f : RadioLink → RadioLink) : (s.onRadio r f).pending = s.pending := rfl
@[simp] theorem State.onRadio_now (r : Nat) (f : RadioLink → RadioLink) : (s.onRadio r f).now = s.now := rfl
@[simp] theorem State.onRadio_mode (r : Nat) (f : RadioLink → RadioLink) : (s.onRadio r f).mode = s.mode := rfl
@[simp] theorem State.onRadio_recoveryStart (r : Nat) (f : RadioLink → RadioLink) : (s.onRadio r f).recoveryStart = s.recoveryStart := rfl
@[simp] theorem State.onRadio_cfg (r : Nat) (f : RadioLink → RadioLink) : (s.onRadio r f).cfg = s.cfg := rfl
@[simp] theorem State.onRadio_image (r : Nat) (f : RadioLink → RadioLink) : (s.onRadio r f).image = s.image := rfl
@[simp] theorem State.onRadio_save (r : Nat) (f : RadioLink → RadioLink) : (s.onRadio r f).save = s.save := rfl
@[simp] theorem State.onRadio_segs (r : Nat) (f : RadioLink → RadioLink) : (s.onRadio r f).segs = s.segs := rfl
@[simp] theorem State.onRadio_routes (r : Nat) (f : RadioLink → RadioLink) : (s.onRadio r f).routes = s.routes := rfl
@[simp] theorem State.onRadio_versions (r : Nat) (f : RadioLink → RadioLink) : (s.onRadio r f).versions = s.versions := rfl
@[simp] theorem State.onRadio_waiting (r : Nat) (f : RadioLink → RadioLink) : (s.onRadio r f).waiting = s.waiting := rfl
@[simp] theorem State.onRadio_dlcClosed (r : Nat) (f : RadioLink → RadioLink) : (s.onRadio r f).dlcClosed = s.dlcClosed := rfl
@[simp] theorem State.onRadio_rlcClosed (r : Nat) (f : RadioLink → RadioLink) : (s.onRadio r f).rlcClosed = s.rlcClosed := rfl
@[simp] theorem State.onRadio_carriers (r : Nat) (f : RadioLink → RadioLink) : (s.onRadio r f).carriers = s.carriers := rfl
@[simp] theorem State.onRadio_unregistered (r : Nat) (f : RadioLink → RadioLink) : (s.onRadio r f).unregistered = s.unregistered := rfl
@[simp] theorem State.onRadio_unknownTimes (r : Nat) (f : RadioLink → RadioLink) : (s.onRadio r f).unknownTimes = s.unknownTimes := rfl
@[simp] theorem State.onRadio_cranes (r : Nat) (f : RadioLink → RadioLink) : (s.onRadio r f).cranes = s.cranes := rfl
@[simp] theorem State.onRadio_craneLinks (r : Nat) (f : RadioLink → RadioLink) : (s.onRadio r f).craneLinks = s.craneLinks := rfl
@[simp] theorem State.onRadio_learning (r : Nat) (f : RadioLink → RadioLink) : (s.onRadio r f).learning = s.learning := rfl
@[simp] theorem State.onRadio_eventSeqs (r : Nat) (f : RadioLink → RadioLink) : (s.onRadio r f).eventSeqs = s.eventSeqs := rfl
@[simp] theorem State.onRadio_flush (r : Nat) (f : RadioLink → RadioLink) : (s.onRadio r f).flush = s.flush := rfl
@[simp] theorem State.onRadio_cycle (r : Nat) (f : RadioLink → RadioLink) : (s.onRadio r f).cycle = s.cycle := rfl
@[simp] theorem State.onRadio_dispatch (r : Nat) (f : RadioLink → RadioLink) : (s.onRadio r f).dispatch = s.dispatch := rfl
@[simp] theorem State.onRadio_lossSince (r : Nat) (f : RadioLink → RadioLink) : (s.onRadio r f).lossSince = s.lossSince := rfl

/-! ### State.onDlink -/

@[simp] theorem State.onDlink_pending (l : DLink) (f : DispatchLink → DispatchLink) : (s.onDlink l f).pending = s.pending := rfl
@[simp] theorem State.onDlink_now (l : DLink) (f : DispatchLink → DispatchLink) : (s.onDlink l f).now = s.now := rfl
@[simp] theorem State.onDlink_mode (l : DLink) (f : DispatchLink → DispatchLink) : (s.onDlink l f).mode = s.mode := rfl
@[simp] theorem State.onDlink_recoveryStart (l : DLink) (f : DispatchLink → DispatchLink) : (s.onDlink l f).recoveryStart = s.recoveryStart := rfl
@[simp] theorem State.onDlink_cfg (l : DLink) (f : DispatchLink → DispatchLink) : (s.onDlink l f).cfg = s.cfg := rfl
@[simp] theorem State.onDlink_image (l : DLink) (f : DispatchLink → DispatchLink) : (s.onDlink l f).image = s.image := rfl
@[simp] theorem State.onDlink_save (l : DLink) (f : DispatchLink → DispatchLink) : (s.onDlink l f).save = s.save := rfl
@[simp] theorem State.onDlink_segs (l : DLink) (f : DispatchLink → DispatchLink) : (s.onDlink l f).segs = s.segs := rfl
@[simp] theorem State.onDlink_routes (l : DLink) (f : DispatchLink → DispatchLink) : (s.onDlink l f).routes = s.routes := rfl
@[simp] theorem State.onDlink_versions (l : DLink) (f : DispatchLink → DispatchLink) : (s.onDlink l f).versions = s.versions := rfl
@[simp] theorem State.onDlink_waiting (l : DLink) (f : DispatchLink → DispatchLink) : (s.onDlink l f).waiting = s.waiting := rfl
@[simp] theorem State.onDlink_dlcClosed (l : DLink) (f : DispatchLink → DispatchLink) : (s.onDlink l f).dlcClosed = s.dlcClosed := rfl
@[simp] theorem State.onDlink_rlcClosed (l : DLink) (f : DispatchLink → DispatchLink) : (s.onDlink l f).rlcClosed = s.rlcClosed := rfl
@[simp] theorem State.onDlink_carriers (l : DLink) (f : DispatchLink → DispatchLink) : (s.onDlink l f).carriers = s.carriers := rfl
@[simp] theorem State.onDlink_unregistered (l : DLink) (f : DispatchLink → DispatchLink) : (s.onDlink l f).unregistered = s.unregistered := rfl
@[simp] theorem State.onDlink_unknownTimes (l : DLink) (f : DispatchLink → DispatchLink) : (s.onDlink l f).unknownTimes = s.unknownTimes := rfl
@[simp] theorem State.onDlink_cranes (l : DLink) (f : DispatchLink → DispatchLink) : (s.onDlink l f).cranes = s.cranes := rfl
@[simp] theorem State.onDlink_craneLinks (l : DLink) (f : DispatchLink → DispatchLink) : (s.onDlink l f).craneLinks = s.craneLinks := rfl
@[simp] theorem State.onDlink_radios (l : DLink) (f : DispatchLink → DispatchLink) : (s.onDlink l f).radios = s.radios := rfl
@[simp] theorem State.onDlink_learning (l : DLink) (f : DispatchLink → DispatchLink) : (s.onDlink l f).learning = s.learning := rfl
@[simp] theorem State.onDlink_eventSeqs (l : DLink) (f : DispatchLink → DispatchLink) : (s.onDlink l f).eventSeqs = s.eventSeqs := rfl
@[simp] theorem State.onDlink_flush (l : DLink) (f : DispatchLink → DispatchLink) : (s.onDlink l f).flush = s.flush := rfl
@[simp] theorem State.onDlink_cycle (l : DLink) (f : DispatchLink → DispatchLink) : (s.onDlink l f).cycle = s.cycle := rfl
@[simp] theorem State.onDlink_lossSince (l : DLink) (f : DispatchLink → DispatchLink) : (s.onDlink l f).lossSince = s.lossSince := rfl

/-! ### State.offer -/

@[simp] theorem State.offer_pending (l : DLink) (e : Notif) : (s.offer l e).pending = s.pending := rfl
@[simp] theorem State.offer_now (l : DLink) (e : Notif) : (s.offer l e).now = s.now := rfl
@[simp] theorem State.offer_mode (l : DLink) (e : Notif) : (s.offer l e).mode = s.mode := rfl
@[simp] theorem State.offer_recoveryStart (l : DLink) (e : Notif) : (s.offer l e).recoveryStart = s.recoveryStart := rfl
@[simp] theorem State.offer_cfg (l : DLink) (e : Notif) : (s.offer l e).cfg = s.cfg := rfl
@[simp] theorem State.offer_image (l : DLink) (e : Notif) : (s.offer l e).image = s.image := rfl
@[simp] theorem State.offer_save (l : DLink) (e : Notif) : (s.offer l e).save = s.save := rfl
@[simp] theorem State.offer_segs (l : DLink) (e : Notif) : (s.offer l e).segs = s.segs := rfl
@[simp] theorem State.offer_routes (l : DLink) (e : Notif) : (s.offer l e).routes = s.routes := rfl
@[simp] theorem State.offer_versions (l : DLink) (e : Notif) : (s.offer l e).versions = s.versions := rfl
@[simp] theorem State.offer_waiting (l : DLink) (e : Notif) : (s.offer l e).waiting = s.waiting := rfl
@[simp] theorem State.offer_dlcClosed (l : DLink) (e : Notif) : (s.offer l e).dlcClosed = s.dlcClosed := rfl
@[simp] theorem State.offer_rlcClosed (l : DLink) (e : Notif) : (s.offer l e).rlcClosed = s.rlcClosed := rfl
@[simp] theorem State.offer_carriers (l : DLink) (e : Notif) : (s.offer l e).carriers = s.carriers := rfl
@[simp] theorem State.offer_unregistered (l : DLink) (e : Notif) : (s.offer l e).unregistered = s.unregistered := rfl
@[simp] theorem State.offer_unknownTimes (l : DLink) (e : Notif) : (s.offer l e).unknownTimes = s.unknownTimes := rfl
@[simp] theorem State.offer_cranes (l : DLink) (e : Notif) : (s.offer l e).cranes = s.cranes := rfl
@[simp] theorem State.offer_craneLinks (l : DLink) (e : Notif) : (s.offer l e).craneLinks = s.craneLinks := rfl
@[simp] theorem State.offer_radios (l : DLink) (e : Notif) : (s.offer l e).radios = s.radios := rfl
@[simp] theorem State.offer_learning (l : DLink) (e : Notif) : (s.offer l e).learning = s.learning := rfl
@[simp] theorem State.offer_eventSeqs (l : DLink) (e : Notif) : (s.offer l e).eventSeqs = s.eventSeqs := rfl
@[simp] theorem State.offer_flush (l : DLink) (e : Notif) : (s.offer l e).flush = s.flush := rfl
@[simp] theorem State.offer_cycle (l : DLink) (e : Notif) : (s.offer l e).cycle = s.cycle := rfl
@[simp] theorem State.offer_lossSince (l : DLink) (e : Notif) : (s.offer l e).lossSince = s.lossSince := rfl

/-! ### State.post -/

@[simp] theorem State.post_pending (n : NotifKind) (x : Subject) (v : List Val) : (s.post n x v).pending = s.pending := rfl
@[simp] theorem State.post_now (n : NotifKind) (x : Subject) (v : List Val) : (s.post n x v).now = s.now := rfl
@[simp] theorem State.post_mode (n : NotifKind) (x : Subject) (v : List Val) : (s.post n x v).mode = s.mode := rfl
@[simp] theorem State.post_recoveryStart (n : NotifKind) (x : Subject) (v : List Val) : (s.post n x v).recoveryStart = s.recoveryStart := rfl
@[simp] theorem State.post_cfg (n : NotifKind) (x : Subject) (v : List Val) : (s.post n x v).cfg = s.cfg := rfl
@[simp] theorem State.post_image (n : NotifKind) (x : Subject) (v : List Val) : (s.post n x v).image = s.image := rfl
@[simp] theorem State.post_save (n : NotifKind) (x : Subject) (v : List Val) : (s.post n x v).save = s.save := rfl
@[simp] theorem State.post_segs (n : NotifKind) (x : Subject) (v : List Val) : (s.post n x v).segs = s.segs := rfl
@[simp] theorem State.post_routes (n : NotifKind) (x : Subject) (v : List Val) : (s.post n x v).routes = s.routes := rfl
@[simp] theorem State.post_versions (n : NotifKind) (x : Subject) (v : List Val) : (s.post n x v).versions = s.versions := rfl
@[simp] theorem State.post_waiting (n : NotifKind) (x : Subject) (v : List Val) : (s.post n x v).waiting = s.waiting := rfl
@[simp] theorem State.post_dlcClosed (n : NotifKind) (x : Subject) (v : List Val) : (s.post n x v).dlcClosed = s.dlcClosed := rfl
@[simp] theorem State.post_rlcClosed (n : NotifKind) (x : Subject) (v : List Val) : (s.post n x v).rlcClosed = s.rlcClosed := rfl
@[simp] theorem State.post_carriers (n : NotifKind) (x : Subject) (v : List Val) : (s.post n x v).carriers = s.carriers := rfl
@[simp] theorem State.post_unregistered (n : NotifKind) (x : Subject) (v : List Val) : (s.post n x v).unregistered = s.unregistered := rfl
@[simp] theorem State.post_unknownTimes (n : NotifKind) (x : Subject) (v : List Val) : (s.post n x v).unknownTimes = s.unknownTimes := rfl
@[simp] theorem State.post_cranes (n : NotifKind) (x : Subject) (v : List Val) : (s.post n x v).cranes = s.cranes := rfl
@[simp] theorem State.post_craneLinks (n : NotifKind) (x : Subject) (v : List Val) : (s.post n x v).craneLinks = s.craneLinks := rfl
@[simp] theorem State.post_radios (n : NotifKind) (x : Subject) (v : List Val) : (s.post n x v).radios = s.radios := rfl
@[simp] theorem State.post_learning (n : NotifKind) (x : Subject) (v : List Val) : (s.post n x v).learning = s.learning := rfl
@[simp] theorem State.post_eventSeqs (n : NotifKind) (x : Subject) (v : List Val) : (s.post n x v).eventSeqs = s.eventSeqs := rfl
@[simp] theorem State.post_flush (n : NotifKind) (x : Subject) (v : List Val) : (s.post n x v).flush = s.flush := rfl
@[simp] theorem State.post_cycle (n : NotifKind) (x : Subject) (v : List Val) : (s.post n x v).cycle = s.cycle := rfl
@[simp] theorem State.post_lossSince (n : NotifKind) (x : Subject) (v : List Val) : (s.post n x v).lossSince = s.lossSince := rfl

/-! ### State.pump -/

@[simp] theorem State.pump_pending : (s.pump).pending = s.pending := rfl
@[simp] theorem State.pump_now : (s.pump).now = s.now := rfl
@[simp] theorem State.pump_mode : (s.pump).mode = s.mode := rfl
@[simp] theorem State.pump_recoveryStart : (s.pump).recoveryStart = s.recoveryStart := rfl
@[simp] theorem State.pump_cfg : (s.pump).cfg = s.cfg := rfl
@[simp] theorem State.pump_image : (s.pump).image = s.image := rfl
@[simp] theorem State.pump_save : (s.pump).save = s.save := rfl
@[simp] theorem State.pump_segs : (s.pump).segs = s.segs := rfl
@[simp] theorem State.pump_routes : (s.pump).routes = s.routes := rfl
@[simp] theorem State.pump_versions : (s.pump).versions = s.versions := rfl
@[simp] theorem State.pump_waiting : (s.pump).waiting = s.waiting := rfl
@[simp] theorem State.pump_dlcClosed : (s.pump).dlcClosed = s.dlcClosed := rfl
@[simp] theorem State.pump_rlcClosed : (s.pump).rlcClosed = s.rlcClosed := rfl
@[simp] theorem State.pump_carriers : (s.pump).carriers = s.carriers := rfl
@[simp] theorem State.pump_unregistered : (s.pump).unregistered = s.unregistered := rfl
@[simp] theorem State.pump_unknownTimes : (s.pump).unknownTimes = s.unknownTimes := rfl
@[simp] theorem State.pump_cranes : (s.pump).cranes = s.cranes := rfl
@[simp] theorem State.pump_craneLinks : (s.pump).craneLinks = s.craneLinks := rfl
@[simp] theorem State.pump_radios : (s.pump).radios = s.radios := rfl
@[simp] theorem State.pump_learning : (s.pump).learning = s.learning := rfl
@[simp] theorem State.pump_eventSeqs : (s.pump).eventSeqs = s.eventSeqs := rfl
@[simp] theorem State.pump_flush : (s.pump).flush = s.flush := rfl
@[simp] theorem State.pump_cycle : (s.pump).cycle = s.cycle := rfl
@[simp] theorem State.pump_lossSince : (s.pump).lossSince = s.lossSince := rfl

/-! ### State.learn -/

@[simp] theorem State.learn_pending (c r : Nat) : (s.learn c r).pending = s.pending := rfl
@[simp] theorem State.learn_now (c r : Nat) : (s.learn c r).now = s.now := rfl
@[simp] theorem State.learn_mode (c r : Nat) : (s.learn c r).mode = s.mode := rfl
@[simp] theorem State.learn_recoveryStart (c r : Nat) : (s.learn c r).recoveryStart = s.recoveryStart := rfl
@[simp] theorem State.learn_cfg (c r : Nat) : (s.learn c r).cfg = s.cfg := rfl
@[simp] theorem State.learn_image (c r : Nat) : (s.learn c r).image = s.image := rfl
@[simp] theorem State.learn_save (c r : Nat) : (s.learn c r).save = s.save := rfl
@[simp] theorem State.learn_segs (c r : Nat) : (s.learn c r).segs = s.segs := rfl
@[simp] theorem State.learn_routes (c r : Nat) : (s.learn c r).routes = s.routes := rfl
@[simp] theorem State.learn_versions (c r : Nat) : (s.learn c r).versions = s.versions := rfl
@[simp] theorem State.learn_waiting (c r : Nat) : (s.learn c r).waiting = s.waiting := rfl
@[simp] theorem State.learn_dlcClosed (c r : Nat) : (s.learn c r).dlcClosed = s.dlcClosed := rfl
@[simp] theorem State.learn_rlcClosed (c r : Nat) : (s.learn c r).rlcClosed = s.rlcClosed := rfl
@[simp] theorem State.learn_carriers (c r : Nat) : (s.learn c r).carriers = s.carriers := rfl
@[simp] theorem State.learn_unregistered (c r : Nat) : (s.learn c r).unregistered = s.unregistered := rfl
@[simp] theorem State.learn_unknownTimes (c r : Nat) : (s.learn c r).unknownTimes = s.unknownTimes := rfl
@[simp] theorem State.learn_cranes (c r : Nat) : (s.learn c r).cranes = s.cranes := rfl
@[simp] theorem State.learn_craneLinks (c r : Nat) : (s.learn c r).craneLinks = s.craneLinks := rfl
@[simp] theorem State.learn_radios (c r : Nat) : (s.learn c r).radios = s.radios := rfl
@[simp] theorem State.learn_eventSeqs (c r : Nat) : (s.learn c r).eventSeqs = s.eventSeqs := rfl
@[simp] theorem State.learn_flush (c r : Nat) : (s.learn c r).flush = s.flush := rfl
@[simp] theorem State.learn_cycle (c r : Nat) : (s.learn c r).cycle = s.cycle := rfl
@[simp] theorem State.learn_dispatch (c r : Nat) : (s.learn c r).dispatch = s.dispatch := rfl
@[simp] theorem State.learn_lossSince (c r : Nat) : (s.learn c r).lossSince = s.lossSince := rfl

/-! ### State.blockEntry -/

@[simp] theorem State.blockEntry_pending (c i : Nat) : (s.blockEntry c i).pending = s.pending := rfl
@[simp] theorem State.blockEntry_now (c i : Nat) : (s.blockEntry c i).now = s.now := rfl
@[simp] theorem State.blockEntry_mode (c i : Nat) : (s.blockEntry c i).mode = s.mode := rfl
@[simp] theorem State.blockEntry_recoveryStart (c i : Nat) : (s.blockEntry c i).recoveryStart = s.recoveryStart := rfl
@[simp] theorem State.blockEntry_cfg (c i : Nat) : (s.blockEntry c i).cfg = s.cfg := rfl
@[simp] theorem State.blockEntry_image (c i : Nat) : (s.blockEntry c i).image = s.image := rfl
@[simp] theorem State.blockEntry_save (c i : Nat) : (s.blockEntry c i).save = s.save := rfl
@[simp] theorem State.blockEntry_segs (c i : Nat) : (s.blockEntry c i).segs = s.segs := rfl
@[simp] theorem State.blockEntry_routes (c i : Nat) : (s.blockEntry c i).routes = s.routes := rfl
@[simp] theorem State.blockEntry_versions (c i : Nat) : (s.blockEntry c i).versions = s.versions := rfl
@[simp] theorem State.blockEntry_dlcClosed (c i : Nat) : (s.blockEntry c i).dlcClosed = s.dlcClosed := rfl
@[simp] theorem State.blockEntry_rlcClosed (c i : Nat) : (s.blockEntry c i).rlcClosed = s.rlcClosed := rfl
@[simp] theorem State.blockEntry_carriers (c i : Nat) : (s.blockEntry c i).carriers = s.carriers := rfl
@[simp] theorem State.blockEntry_unregistered (c i : Nat) : (s.blockEntry c i).unregistered = s.unregistered := rfl
@[simp] theorem State.blockEntry_unknownTimes (c i : Nat) : (s.blockEntry c i).unknownTimes = s.unknownTimes := rfl
@[simp] theorem State.blockEntry_cranes (c i : Nat) : (s.blockEntry c i).cranes = s.cranes := rfl
@[simp] theorem State.blockEntry_craneLinks (c i : Nat) : (s.blockEntry c i).craneLinks = s.craneLinks := rfl
@[simp] theorem State.blockEntry_radios (c i : Nat) : (s.blockEntry c i).radios = s.radios := rfl
@[simp] theorem State.blockEntry_learning (c i : Nat) : (s.blockEntry c i).learning = s.learning := rfl
@[simp] theorem State.blockEntry_eventSeqs (c i : Nat) : (s.blockEntry c i).eventSeqs = s.eventSeqs := rfl
@[simp] theorem State.blockEntry_flush (c i : Nat) : (s.blockEntry c i).flush = s.flush := rfl
@[simp] theorem State.blockEntry_cycle (c i : Nat) : (s.blockEntry c i).cycle = s.cycle := rfl
@[simp] theorem State.blockEntry_dispatch (c i : Nat) : (s.blockEntry c i).dispatch = s.dispatch := rfl
@[simp] theorem State.blockEntry_lossSince (c i : Nat) : (s.blockEntry c i).lossSince = s.lossSince := rfl

/-! ### State.resetSegs -/

@[simp] theorem State.resetSegs_pending : (s.resetSegs).pending = s.pending := rfl
@[simp] theorem State.resetSegs_now : (s.resetSegs).now = s.now := rfl
@[simp] theorem State.resetSegs_mode : (s.resetSegs).mode = s.mode := rfl
@[simp] theorem State.resetSegs_recoveryStart : (s.resetSegs).recoveryStart = s.recoveryStart := rfl
@[simp] theorem State.resetSegs_cfg : (s.resetSegs).cfg = s.cfg := rfl
@[simp] theorem State.resetSegs_image : (s.resetSegs).image = s.image := rfl
@[simp] theorem State.resetSegs_save : (s.resetSegs).save = s.save := rfl
@[simp] theorem State.resetSegs_versions : (s.resetSegs).versions = s.versions := rfl
@[simp] theorem State.resetSegs_dlcClosed : (s.resetSegs).dlcClosed = s.dlcClosed := rfl
@[simp] theorem State.resetSegs_rlcClosed : (s.resetSegs).rlcClosed = s.rlcClosed := rfl
@[simp] theorem State.resetSegs_carriers : (s.resetSegs).carriers = s.carriers := rfl
@[simp] theorem State.resetSegs_unregistered : (s.resetSegs).unregistered = s.unregistered := rfl
@[simp] theorem State.resetSegs_unknownTimes : (s.resetSegs).unknownTimes = s.unknownTimes := rfl
@[simp] theorem State.resetSegs_cranes : (s.resetSegs).cranes = s.cranes := rfl
@[simp] theorem State.resetSegs_craneLinks : (s.resetSegs).craneLinks = s.craneLinks := rfl
@[simp] theorem State.resetSegs_radios : (s.resetSegs).radios = s.radios := rfl
@[simp] theorem State.resetSegs_learning : (s.resetSegs).learning = s.learning := rfl
@[simp] theorem State.resetSegs_eventSeqs : (s.resetSegs).eventSeqs = s.eventSeqs := rfl
@[simp] theorem State.resetSegs_flush : (s.resetSegs).flush = s.flush := rfl
@[simp] theorem State.resetSegs_cycle : (s.resetSegs).cycle = s.cycle := rfl
@[simp] theorem State.resetSegs_dispatch : (s.resetSegs).dispatch = s.dispatch := rfl
@[simp] theorem State.resetSegs_lossSince : (s.resetSegs).lossSince = s.lossSince := rfl

/-! ## Reads after updates -/

@[simp] theorem DLink.other_ne (l : DLink) : l.other ≠ l := by cases l <;> decide

@[simp] theorem DLink.other_other (l : DLink) : l.other.other = l := by cases l <;> rfl

theorem DLink.key_inj {l m : DLink} (h : l.key = m.key) : l = m := by cases l <;> cases m <;> first | rfl | cases h

theorem DLink.eq_other_of_ne {l m : DLink} (h : m ≠ l) : m = l.other := by
  cases l <;> cases m <;> first | rfl | exact absurd rfl h

variable {s}

theorem State.seg_putSeg (i j : Nat) (r : SegDyn) : (s.putSeg i r).seg j = if j = i then r else s.seg j :=
  Table.get_put _ _ _ _ _

theorem State.carrier?_putCarrier (c d : Nat) (r : Carrier) :
    (s.putCarrier c r).carrier? d = if d = c then some r else s.carrier? d := Table.get?_put _ _ _ _

theorem State.carrier?_onCarrier (c d : Nat) (f : Carrier → Carrier) :
    (s.onCarrier c f).carrier? d = if d = c then (s.carrier? d).map f else s.carrier? d := by
  unfold State.onCarrier
  cases h : s.carrier? c with
  | none =>
    by_cases hd : d = c
    · subst hd; simp [h]
    · simp [hd]
  | some r =>
    show (s.putCarrier c (f r)).carrier? d = _
    rw [State.carrier?_putCarrier]
    by_cases hd : d = c
    · subst hd; simp [h]
    · simp [hd]

theorem State.crane_onCrane (k m : Nat) (f : Crane → Crane) :
    (s.onCrane k f).crane m = if m = k then f (s.crane k) else s.crane m := Table.get_put _ _ _ _ _

theorem State.craneLink_onCraneLink (k m : Nat) (f : CraneLink → CraneLink) :
    (s.onCraneLink k f).craneLink m = if m = k then f (s.craneLink k) else s.craneLink m := Table.get_put _ _ _ _ _

theorem State.radio_onRadio (r q : Nat) (f : RadioLink → RadioLink) :
    (s.onRadio r f).radio q = if q = r then f (s.radio r) else s.radio q := Table.get_put _ _ _ _ _

@[simp] theorem State.dlink_onDlink_self (l : DLink) (f : DispatchLink → DispatchLink) :
    (s.onDlink l f).dlink l = f (s.dlink l) := Table.get_put_self _ _ _ _

@[simp] theorem State.dlink_onDlink_other (l : DLink) (f : DispatchLink → DispatchLink) :
    (s.onDlink l f).dlink l.other = s.dlink l.other := by cases l <;> exact Table.get_put_ne _ _ _ (by decide)

theorem State.dlink_onDlink (l m : DLink) (f : DispatchLink → DispatchLink) :
    (s.onDlink l f).dlink m = if m = l then f (s.dlink l) else s.dlink m := by
  split
  · next h => rw [h, State.dlink_onDlink_self]
  · next h => rw [DLink.eq_other_of_ne h, State.dlink_onDlink_other]

variable (s)

/-! ### Reads of seg after updates of other fields -/

@[simp] theorem State.seg_putCarrier (c : Nat) (r : Carrier) (j : Nat) : (s.putCarrier c r).seg j = s.seg j := rfl
@[simp] theorem State.seg_onCarrier (c : Nat) (f : Carrier → Carrier) (j : Nat) : (s.onCarrier c f).seg j = s.seg j := by unfold State.onCarrier; split <;> rfl
@[simp] theorem State.seg_dropEntry (c : Nat) (j : Nat) : (s.dropEntry c).seg j = s.seg j := rfl
@[simp] theorem State.seg_onCrane (k : Nat) (f : Crane → Crane) (j : Nat) : (s.onCrane k f).seg j = s.seg j := rfl
@[simp] theorem State.seg_onCraneLink (k : Nat) (f : CraneLink → CraneLink) (j : Nat) : (s.onCraneLink k f).seg j = s.seg j := rfl
@[simp] theorem State.seg_onRadio (r : Nat) (f : RadioLink → RadioLink) (j : Nat) : (s.onRadio r f).seg j = s.seg j := rfl
@[simp] theorem State.seg_onDlink (l : DLink) (f : DispatchLink → DispatchLink) (j : Nat) : (s.onDlink l f).seg j = s.seg j := rfl
@[simp] theorem State.seg_offer (l : DLink) (e : Notif) (j : Nat) : (s.offer l e).seg j = s.seg j := rfl
@[simp] theorem State.seg_post (n : NotifKind) (x : Subject) (v : List Val) (j : Nat) : (s.post n x v).seg j = s.seg j := rfl
@[simp] theorem State.seg_pump (j : Nat) : (s.pump).seg j = s.seg j := rfl
@[simp] theorem State.seg_learn (c r : Nat) (j : Nat) : (s.learn c r).seg j = s.seg j := rfl
@[simp] theorem State.seg_blockEntry (c i : Nat) (j : Nat) : (s.blockEntry c i).seg j = s.seg j := rfl

/-! ### Reads of carrier? after updates of other fields -/

@[simp] theorem State.carrier?_putSeg (i : Nat) (r : SegDyn) (d : Nat) : (s.putSeg i r).carrier? d = s.carrier? d := rfl
@[simp] theorem State.carrier?_dropEntry (c : Nat) (d : Nat) : (s.dropEntry c).carrier? d = s.carrier? d := rfl
@[simp] theorem State.carrier?_onCrane (k : Nat) (f : Crane → Crane) (d : Nat) : (s.onCrane k f).carrier? d = s.carrier? d := rfl
@[simp] theorem State.carrier?_onCraneLink (k : Nat) (f : CraneLink → CraneLink) (d : Nat) : (s.onCraneLink k f).carrier? d = s.carrier? d := rfl
@[simp] theorem State.carrier?_onRadio (r : Nat) (f : RadioLink → RadioLink) (d : Nat) : (s.onRadio r f).carrier? d = s.carrier? d := rfl
@[simp] theorem State.carrier?_onDlink (l : DLink) (f : DispatchLink → DispatchLink) (d : Nat) : (s.onDlink l f).carrier? d = s.carrier? d := rfl
@[simp] theorem State.carrier?_offer (l : DLink) (e : Notif) (d : Nat) : (s.offer l e).carrier? d = s.carrier? d := rfl
@[simp] theorem State.carrier?_post (n : NotifKind) (x : Subject) (v : List Val) (d : Nat) : (s.post n x v).carrier? d = s.carrier? d := rfl
@[simp] theorem State.carrier?_pump (d : Nat) : (s.pump).carrier? d = s.carrier? d := rfl
@[simp] theorem State.carrier?_learn (c r : Nat) (d : Nat) : (s.learn c r).carrier? d = s.carrier? d := rfl
@[simp] theorem State.carrier?_blockEntry (c i : Nat) (d : Nat) : (s.blockEntry c i).carrier? d = s.carrier? d := rfl
@[simp] theorem State.carrier?_resetSegs (d : Nat) : (s.resetSegs).carrier? d = s.carrier? d := rfl

/-! ### Reads of route? after updates of other fields -/

@[simp] theorem State.route?_putSeg (i : Nat) (r : SegDyn) (d : Nat) : (s.putSeg i r).route? d = s.route? d := rfl
@[simp] theorem State.route?_putCarrier (c : Nat) (r : Carrier) (d : Nat) : (s.putCarrier c r).route? d = s.route? d := rfl
@[simp] theorem State.route?_onCarrier (c : Nat) (f : Carrier → Carrier) (d : Nat) : (s.onCarrier c f).route? d = s.route? d := by unfold State.onCarrier; split <;> rfl
@[simp] theorem State.route?_dropEntry (c : Nat) (d : Nat) : (s.dropEntry c).route? d = s.route? d := rfl
@[simp] theorem State.route?_onCrane (k : Nat) (f : Crane → Crane) (d : Nat) : (s.onCrane k f).route? d = s.route? d := rfl
@[simp] theorem State.route?_onCraneLink (k : Nat) (f : CraneLink → CraneLink) (d : Nat) : (s.onCraneLink k f).route? d = s.route? d := rfl
@[simp] theorem State.route?_onRadio (r : Nat) (f : RadioLink → RadioLink) (d : Nat) : (s.onRadio r f).route? d = s.route? d := rfl
@[simp] theorem State.route?_onDlink (l : DLink) (f : DispatchLink → DispatchLink) (d : Nat) : (s.onDlink l f).route? d = s.route? d := rfl
@[simp] theorem State.route?_offer (l : DLink) (e : Notif) (d : Nat) : (s.offer l e).route? d = s.route? d := rfl
@[simp] theorem State.route?_post (n : NotifKind) (x : Subject) (v : List Val) (d : Nat) : (s.post n x v).route? d = s.route? d := rfl
@[simp] theorem State.route?_pump (d : Nat) : (s.pump).route? d = s.route? d := rfl
@[simp] theorem State.route?_learn (c r : Nat) (d : Nat) : (s.learn c r).route? d = s.route? d := rfl
@[simp] theorem State.route?_blockEntry (c i : Nat) (d : Nat) : (s.blockEntry c i).route? d = s.route? d := rfl

/-! ### Reads of version after updates of other fields -/

@[simp] theorem State.version_putSeg (i : Nat) (r : SegDyn) (d : Nat) : (s.putSeg i r).version d = s.version d := rfl
@[simp] theorem State.version_putCarrier (c : Nat) (r : Carrier) (d : Nat) : (s.putCarrier c r).version d = s.version d := rfl
@[simp] theorem State.version_onCarrier (c : Nat) (f : Carrier → Carrier) (d : Nat) : (s.onCarrier c f).version d = s.version d := by unfold State.onCarrier; split <;> rfl
@[simp] theorem State.version_dropEntry (c : Nat) (d : Nat) : (s.dropEntry c).version d = s.version d := rfl
@[simp] theorem State.version_onCrane (k : Nat) (f : Crane → Crane) (d : Nat) : (s.onCrane k f).version d = s.version d := rfl
@[simp] theorem State.version_onCraneLink (k : Nat) (f : CraneLink → CraneLink) (d : Nat) : (s.onCraneLink k f).version d = s.version d := rfl
@[simp] theorem State.version_onRadio (r : Nat) (f : RadioLink → RadioLink) (d : Nat) : (s.onRadio r f).version d = s.version d := rfl
@[simp] theorem State.version_onDlink (l : DLink) (f : DispatchLink → DispatchLink) (d : Nat) : (s.onDlink l f).version d = s.version d := rfl
@[simp] theorem State.version_offer (l : DLink) (e : Notif) (d : Nat) : (s.offer l e).version d = s.version d := rfl
@[simp] theorem State.version_post (n : NotifKind) (x : Subject) (v : List Val) (d : Nat) : (s.post n x v).version d = s.version d := rfl
@[simp] theorem State.version_pump (d : Nat) : (s.pump).version d = s.version d := rfl
@[simp] theorem State.version_learn (c r : Nat) (d : Nat) : (s.learn c r).version d = s.version d := rfl
@[simp] theorem State.version_blockEntry (c i : Nat) (d : Nat) : (s.blockEntry c i).version d = s.version d := rfl
@[simp] theorem State.version_resetSegs (d : Nat) : (s.resetSegs).version d = s.version d := rfl

/-! ### Reads of entry? after updates of other fields -/

@[simp] theorem State.entry?_putSeg (i : Nat) (r : SegDyn) (d : Nat) : (s.putSeg i r).entry? d = s.entry? d := rfl
@[simp] theorem State.entry?_putCarrier (c : Nat) (r : Carrier) (d : Nat) : (s.putCarrier c r).entry? d = s.entry? d := rfl
@[simp] theorem State.entry?_onCarrier (c : Nat) (f : Carrier → Carrier) (d : Nat) : (s.onCarrier c f).entry? d = s.entry? d := by unfold State.onCarrier; split <;> rfl
@[simp] theorem State.entry?_onCrane (k : Nat) (f : Crane → Crane) (d : Nat) : (s.onCrane k f).entry? d = s.entry? d := rfl
@[simp] theorem State.entry?_onCraneLink (k : Nat) (f : CraneLink → CraneLink) (d : Nat) : (s.onCraneLink k f).entry? d = s.entry? d := rfl
@[simp] theorem State.entry?_onRadio (r : Nat) (f : RadioLink → RadioLink) (d : Nat) : (s.onRadio r f).entry? d = s.entry? d := rfl
@[simp] theorem State.entry?_onDlink (l : DLink) (f : DispatchLink → DispatchLink) (d : Nat) : (s.onDlink l f).entry? d = s.entry? d := rfl
@[simp] theorem State.entry?_offer (l : DLink) (e : Notif) (d : Nat) : (s.offer l e).entry? d = s.entry? d := rfl
@[simp] theorem State.entry?_post (n : NotifKind) (x : Subject) (v : List Val) (d : Nat) : (s.post n x v).entry? d = s.entry? d := rfl
@[simp] theorem State.entry?_pump (d : Nat) : (s.pump).entry? d = s.entry? d := rfl
@[simp] theorem State.entry?_learn (c r : Nat) (d : Nat) : (s.learn c r).entry? d = s.entry? d := rfl

/-! ### Reads of crane after updates of other fields -/

@[simp] theorem State.crane_putSeg (i : Nat) (r : SegDyn) (m : Nat) : (s.putSeg i r).crane m = s.crane m := rfl
@[simp] theorem State.crane_putCarrier (c : Nat) (r : Carrier) (m : Nat) : (s.putCarrier c r).crane m = s.crane m := rfl
@[simp] theorem State.crane_onCarrier (c : Nat) (f : Carrier → Carrier) (m : Nat) : (s.onCarrier c f).crane m = s.crane m := by unfold State.onCarrier; split <;> rfl
@[simp] theorem State.crane_dropEntry (c : Nat) (m : Nat) : (s.dropEntry c).crane m = s.crane m := rfl
@[simp] theorem State.crane_onCraneLink (k : Nat) (f : CraneLink → CraneLink) (m : Nat) : (s.onCraneLink k f).crane m = s.crane m := rfl
@[simp] theorem State.crane_onRadio (r : Nat) (f : RadioLink → RadioLink) (m : Nat) : (s.onRadio r f).crane m = s.crane m := rfl
@[simp] theorem State.crane_onDlink (l : DLink) (f : DispatchLink → DispatchLink) (m : Nat) : (s.onDlink l f).crane m = s.crane m := rfl
@[simp] theorem State.crane_offer (l : DLink) (e : Notif) (m : Nat) : (s.offer l e).crane m = s.crane m := rfl
@[simp] theorem State.crane_post (n : NotifKind) (x : Subject) (v : List Val) (m : Nat) : (s.post n x v).crane m = s.crane m := rfl
@[simp] theorem State.crane_pump (m : Nat) : (s.pump).crane m = s.crane m := rfl
@[simp] theorem State.crane_learn (c r : Nat) (m : Nat) : (s.learn c r).crane m = s.crane m := rfl
@[simp] theorem State.crane_blockEntry (c i : Nat) (m : Nat) : (s.blockEntry c i).crane m = s.crane m := rfl
@[simp] theorem State.crane_resetSegs (m : Nat) : (s.resetSegs).crane m = s.crane m := rfl

/-! ### Reads of craneLink after updates of other fields -/

@[simp] theorem State.craneLink_putSeg (i : Nat) (r : SegDyn) (m : Nat) : (s.putSeg i r).craneLink m = s.craneLink m := rfl
@[simp] theorem State.craneLink_putCarrier (c : Nat) (r : Carrier) (m : Nat) : (s.putCarrier c r).craneLink m = s.craneLink m := rfl
@[simp] theorem State.craneLink_onCarrier (c : Nat) (f : Carrier → Carrier) (m : Nat) : (s.onCarrier c f).craneLink m = s.craneLink m := by unfold State.onCarrier; split <;> rfl
@[simp] theorem State.craneLink_dropEntry (c : Nat) (m : Nat) : (s.dropEntry c).craneLink m = s.craneLink m := rfl
@[simp] theorem State.craneLink_onCrane (k : Nat) (f : Crane → Crane) (m : Nat) : (s.onCrane k f).craneLink m = s.craneLink m := rfl
@[simp] theorem State.craneLink_onRadio (r : Nat) (f : RadioLink → RadioLink) (m : Nat) : (s.onRadio r f).craneLink m = s.craneLink m := rfl
@[simp] theorem State.craneLink_onDlink (l : DLink) (f : DispatchLink → DispatchLink) (m : Nat) : (s.onDlink l f).craneLink m = s.craneLink m := rfl
@[simp] theorem State.craneLink_offer (l : DLink) (e : Notif) (m : Nat) : (s.offer l e).craneLink m = s.craneLink m := rfl
@[simp] theorem State.craneLink_post (n : NotifKind) (x : Subject) (v : List Val) (m : Nat) : (s.post n x v).craneLink m = s.craneLink m := rfl
@[simp] theorem State.craneLink_pump (m : Nat) : (s.pump).craneLink m = s.craneLink m := rfl
@[simp] theorem State.craneLink_learn (c r : Nat) (m : Nat) : (s.learn c r).craneLink m = s.craneLink m := rfl
@[simp] theorem State.craneLink_blockEntry (c i : Nat) (m : Nat) : (s.blockEntry c i).craneLink m = s.craneLink m := rfl
@[simp] theorem State.craneLink_resetSegs (m : Nat) : (s.resetSegs).craneLink m = s.craneLink m := rfl

/-! ### Reads of radio after updates of other fields -/

@[simp] theorem State.radio_putSeg (i : Nat) (r : SegDyn) (q : Nat) : (s.putSeg i r).radio q = s.radio q := rfl
@[simp] theorem State.radio_putCarrier (c : Nat) (r : Carrier) (q : Nat) : (s.putCarrier c r).radio q = s.radio q := rfl
@[simp] theorem State.radio_onCarrier (c : Nat) (f : Carrier → Carrier) (q : Nat) : (s.onCarrier c f).radio q = s.radio q := by unfold State.onCarrier; split <;> rfl
@[simp] theorem State.radio_dropEntry (c : Nat) (q : Nat) : (s.dropEntry c).radio q = s.radio q := rfl
@[simp] theorem State.radio_onCrane (k : Nat) (f : Crane → Crane) (q : Nat) : (s.onCrane k f).radio q = s.radio q := rfl
@[simp] theorem State.radio_onCraneLink (k : Nat) (f : CraneLink → CraneLink) (q : Nat) : (s.onCraneLink k f).radio q = s.radio q := rfl
@[simp] theorem State.radio_onDlink (l : DLink) (f : DispatchLink → DispatchLink) (q : Nat) : (s.onDlink l f).radio q = s.radio q := rfl
@[simp] theorem State.radio_offer (l : DLink) (e : Notif) (q : Nat) : (s.offer l e).radio q = s.radio q := rfl
@[simp] theorem State.radio_post (n : NotifKind) (x : Subject) (v : List Val) (q : Nat) : (s.post n x v).radio q = s.radio q := rfl
@[simp] theorem State.radio_pump (q : Nat) : (s.pump).radio q = s.radio q := rfl
@[simp] theorem State.radio_learn (c r : Nat) (q : Nat) : (s.learn c r).radio q = s.radio q := rfl
@[simp] theorem State.radio_blockEntry (c i : Nat) (q : Nat) : (s.blockEntry c i).radio q = s.radio q := rfl
@[simp] theorem State.radio_resetSegs (q : Nat) : (s.resetSegs).radio q = s.radio q := rfl

/-! ### Reads of dlink after updates of other fields -/

@[simp] theorem State.dlink_putSeg (i : Nat) (r : SegDyn) (m : DLink) : (s.putSeg i r).dlink m = s.dlink m := rfl
@[simp] theorem State.dlink_putCarrier (c : Nat) (r : Carrier) (m : DLink) : (s.putCarrier c r).dlink m = s.dlink m := rfl
@[simp] theorem State.dlink_onCarrier (c : Nat) (f : Carrier → Carrier) (m : DLink) : (s.onCarrier c f).dlink m = s.dlink m := by unfold State.onCarrier; split <;> rfl
@[simp] theorem State.dlink_dropEntry (c : Nat) (m : DLink) : (s.dropEntry c).dlink m = s.dlink m := rfl
@[simp] theorem State.dlink_onCrane (k : Nat) (f : Crane → Crane) (m : DLink) : (s.onCrane k f).dlink m = s.dlink m := rfl
@[simp] theorem State.dlink_onCraneLink (k : Nat) (f : CraneLink → CraneLink) (m : DLink) : (s.onCraneLink k f).dlink m = s.dlink m := rfl
@[simp] theorem State.dlink_onRadio (r : Nat) (f : RadioLink → RadioLink) (m : DLink) : (s.onRadio r f).dlink m = s.dlink m := rfl
@[simp] theorem State.dlink_learn (c r : Nat) (m : DLink) : (s.learn c r).dlink m = s.dlink m := rfl
@[simp] theorem State.dlink_blockEntry (c i : Nat) (m : DLink) : (s.blockEntry c i).dlink m = s.dlink m := rfl
@[simp] theorem State.dlink_resetSegs (m : DLink) : (s.resetSegs).dlink m = s.dlink m := rfl

/-! ### Reads of grid after updates of other fields -/

@[simp] theorem State.grid_putSeg (i : Nat) (r : SegDyn) : (s.putSeg i r).grid = s.grid := rfl
@[simp] theorem State.grid_putCarrier (c : Nat) (r : Carrier) : (s.putCarrier c r).grid = s.grid := rfl
@[simp] theorem State.grid_onCarrier (c : Nat) (f : Carrier → Carrier) : (s.onCarrier c f).grid = s.grid := by unfold State.onCarrier; split <;> rfl
@[simp] theorem State.grid_dropEntry (c : Nat) : (s.dropEntry c).grid = s.grid := rfl
@[simp] theorem State.grid_onCrane (k : Nat) (f : Crane → Crane) : (s.onCrane k f).grid = s.grid := rfl
@[simp] theorem State.grid_onCraneLink (k : Nat) (f : CraneLink → CraneLink) : (s.onCraneLink k f).grid = s.grid := rfl
@[simp] theorem State.grid_onRadio (r : Nat) (f : RadioLink → RadioLink) : (s.onRadio r f).grid = s.grid := rfl
@[simp] theorem State.grid_onDlink (l : DLink) (f : DispatchLink → DispatchLink) : (s.onDlink l f).grid = s.grid := rfl
@[simp] theorem State.grid_offer (l : DLink) (e : Notif) : (s.offer l e).grid = s.grid := rfl
@[simp] theorem State.grid_post (n : NotifKind) (x : Subject) (v : List Val) : (s.post n x v).grid = s.grid := rfl
@[simp] theorem State.grid_pump : (s.pump).grid = s.grid := rfl
@[simp] theorem State.grid_learn (c r : Nat) : (s.learn c r).grid = s.grid := rfl
@[simp] theorem State.grid_blockEntry (c i : Nat) : (s.blockEntry c i).grid = s.grid := rfl
@[simp] theorem State.grid_resetSegs : (s.resetSegs).grid = s.grid := rfl

/-! ### Reads of craneCfg after updates of other fields -/

@[simp] theorem State.craneCfg_putSeg (i : Nat) (r : SegDyn) (m : Nat) : (s.putSeg i r).craneCfg m = s.craneCfg m := rfl
@[simp] theorem State.craneCfg_putCarrier (c : Nat) (r : Carrier) (m : Nat) : (s.putCarrier c r).craneCfg m = s.craneCfg m := rfl
@[simp] theorem State.craneCfg_onCarrier (c : Nat) (f : Carrier → Carrier) (m : Nat) : (s.onCarrier c f).craneCfg m = s.craneCfg m := by unfold State.onCarrier; split <;> rfl
@[simp] theorem State.craneCfg_dropEntry (c : Nat) (m : Nat) : (s.dropEntry c).craneCfg m = s.craneCfg m := rfl
@[simp] theorem State.craneCfg_onCrane (k : Nat) (f : Crane → Crane) (m : Nat) : (s.onCrane k f).craneCfg m = s.craneCfg m := rfl
@[simp] theorem State.craneCfg_onCraneLink (k : Nat) (f : CraneLink → CraneLink) (m : Nat) : (s.onCraneLink k f).craneCfg m = s.craneCfg m := rfl
@[simp] theorem State.craneCfg_onRadio (r : Nat) (f : RadioLink → RadioLink) (m : Nat) : (s.onRadio r f).craneCfg m = s.craneCfg m := rfl
@[simp] theorem State.craneCfg_onDlink (l : DLink) (f : DispatchLink → DispatchLink) (m : Nat) : (s.onDlink l f).craneCfg m = s.craneCfg m := rfl
@[simp] theorem State.craneCfg_offer (l : DLink) (e : Notif) (m : Nat) : (s.offer l e).craneCfg m = s.craneCfg m := rfl
@[simp] theorem State.craneCfg_post (n : NotifKind) (x : Subject) (v : List Val) (m : Nat) : (s.post n x v).craneCfg m = s.craneCfg m := rfl
@[simp] theorem State.craneCfg_pump (m : Nat) : (s.pump).craneCfg m = s.craneCfg m := rfl
@[simp] theorem State.craneCfg_learn (c r : Nat) (m : Nat) : (s.learn c r).craneCfg m = s.craneCfg m := rfl
@[simp] theorem State.craneCfg_blockEntry (c i : Nat) (m : Nat) : (s.blockEntry c i).craneCfg m = s.craneCfg m := rfl
@[simp] theorem State.craneCfg_resetSegs (m : Nat) : (s.resetSegs).craneCfg m = s.craneCfg m := rfl

end Sys2Proof.Machine
end

