-- ==== Sys2Proof/Laws/Notify.lean ====
section
/-! SUPPORT. What the shared operations on dispatch links can do: an entry offered to a notification queue, a
notification posted, a frame taken by the transmitters, a transmission completed, a link lost (R144, R147, R149, R156,
R158, R159). -/

namespace Sys2Proof.Machine

/-! ## Entries offered to a queue -/

namespace DispatchLink.Notified

theorem refl (d : DispatchLink) : Notified d d := ⟨rfl, List.prefix_rfl, id, id⟩

theorem trans {d e f : DispatchLink} (h : Notified d e) (g : Notified e f) : Notified d f :=
  ⟨by rw [g.rest, h.rest], h.grows.trans g.grows, g.bound ∘ h.bound, g.drops ∘ h.drops⟩

variable {d e : DispatchLink} (h : Notified d e)
include h

theorem up : e.up = d.up := by rw [h.rest]
theorem timer : e.timer = d.timer := by rw [h.rest]
theorem rx : e.rx = d.rx := by rw [h.rest]
theorem replies : e.replies = d.replies := by rw [h.rest]
theorem tx : e.tx = d.tx := by rw [h.rest]
theorem good : e.good = d.good := by rw [h.rest]
theorem overruns : e.overruns = d.overruns := by rw [h.rest]

end DispatchLink.Notified

theorem DispatchLink.offer_notified (now : Time) (e : Notif) (d : DispatchLink) :
    DispatchLink.Notified d (d.offer now e) := by
  unfold DispatchLink.offer
  split
  · next h =>
    refine ⟨rfl, List.prefix_append _ _, fun _ => ?_, id⟩
    simp only [List.length_append, List.length_singleton]
    have : Config.notificationCapacity = 64 := rfl
    omega
  · refine ⟨rfl, List.prefix_rfl, id, fun h => ?_⟩
    have hb : ¬ bump16 d.dropCount = 0 := by unfold bump16; omega
    by_cases hd : d.dropCount = 0
    · simp [hd, bump16]
    · simp [hd, hb, h]

theorem State.dlink_offer (s : State) (l m : DLink) (e : Notif) :
    DispatchLink.Notified (s.dlink m) ((s.offer l e).dlink m) := by
  unfold State.offer
  rw [State.dlink_onDlink]
  split
  · next h => subst h; exact DispatchLink.offer_notified _ _ _
  · exact DispatchLink.Notified.refl _

/-- A notification that is posted is offered to both queues (R156). -/
theorem State.dlink_post (s : State) (kind : NotifKind) (subject : Subject) (detail : List Val) (m : DLink) :
    (s.post kind subject detail).dlink m = (s.dlink m).offer s.now ⟨kind, s.now, subject, detail⟩ := by
  unfold State.post State.offer
  cases m <;> simp [State.dlink_onDlink]

theorem State.dlink_post_notified (s : State) (kind : NotifKind) (subject : Subject) (detail : List Val) (m : DLink) :
    DispatchLink.Notified (s.dlink m) ((s.post kind subject detail).dlink m) := by
  rw [State.dlink_post]
  exact DispatchLink.offer_notified _ _ _

/-- An entry offered to a queue that has room joins it at the end. -/
theorem DispatchLink.offer_room {now : Time} {e : Notif} {d : DispatchLink} (h : d.notifs.length < 64) :
    d.offer now e = { d with notifs := d.notifs ++ [e] } := by
  unfold DispatchLink.offer
  rw [if_pos (show d.notifs.length < Config.notificationCapacity from h)]

/-- An entry offered to a full queue is dropped and counted, and the time of the first drop is kept. -/
theorem DispatchLink.offer_full {now : Time} {e : Notif} {d : DispatchLink} (h : 64 ≤ d.notifs.length) :
    d.offer now e =
      { d with dropCount := bump16 d.dropCount, firstDrop := if d.dropCount = 0 then some now else d.firstDrop } := by
  unfold DispatchLink.offer
  rw [if_neg (show ¬ d.notifs.length < Config.notificationCapacity from Nat.not_lt.2 h)]

/-! ## The transmitters -/

theorem State.dlink_pump (s : State) (m : DLink) : s.pump.dlink m = (s.dlink m).transmit := by
  unfold State.pump
  cases m <;> simp [State.dlink_onDlink]

/-- What a look for a frame makes of a link (R149): only its reply queue and its transmitter change. -/
theorem DispatchLink.transmit_rest (d : DispatchLink) :
    d.transmit = { d with tx := d.transmit.tx, replies := d.transmit.replies } := by
  unfold DispatchLink.transmit
  split
  · split
    · rfl
    · split <;> rfl
  · rfl

@[simp] theorem DispatchLink.transmit_up (d : DispatchLink) : d.transmit.up = d.up := by rw [d.transmit_rest]
@[simp] theorem DispatchLink.transmit_timer (d : DispatchLink) : d.transmit.timer = d.timer := by rw [d.transmit_rest]
@[simp] theorem DispatchLink.transmit_notifs (d : DispatchLink) : d.transmit.notifs = d.notifs := by
  rw [d.transmit_rest]

theorem DispatchLink.transmit_replies_le (d : DispatchLink) : d.transmit.replies.length ≤ d.replies.length := by
  unfold DispatchLink.transmit
  split
  · split
    · next h => simp [h]
    · split <;> exact Nat.le_refl _
  · exact Nat.le_refl _

/-- A transmitter that is sending, or whose link is DOWN, takes nothing. -/
theorem DispatchLink.transmit_of_not {d : DispatchLink} (h : d.up = false ∨ d.tx ≠ .idle) : d.transmit = d := by
  unfold DispatchLink.transmit
  rw [if_neg]
  rcases h with h | h <;> simp [h]

/-- The first reply goes before every notification (R149). -/
theorem DispatchLink.transmit_reply {d : DispatchLink} {r : Reply} {rest : List Reply} (hu : d.up = true)
    (hx : d.tx = .idle) (hr : d.replies = r :: rest) : d.transmit = { d with tx := .reply r, replies := rest } := by
  unfold DispatchLink.transmit
  rw [if_pos (by simp [hu, hx])]
  simp [hr]

/-- With no reply waiting, a waiting notification is sent, and stays in its queue (R149, R158). -/
theorem DispatchLink.transmit_notification {d : DispatchLink} (hu : d.up = true) (hx : d.tx = .idle)
    (hr : d.replies = []) (hn : d.notifs ≠ []) : d.transmit = { d with tx := .notification } := by
  unfold DispatchLink.transmit
  rw [if_pos (by simp [hu, hx])]
  simp [hr, hn]

theorem DispatchLink.reportDrops_eq (now : Time) (key : Nat) (d : DispatchLink) :
    DispatchLink.reportDrops now key d =
      if d.dropCount = 0 then d
      else { d with
        notifs := d.notifs ++ [⟨.dropped, now, .link key, [.half d.dropCount, timeVal? d.firstDrop]⟩]
        dropCount := 0, firstDrop := none } := rfl

theorem DispatchLink.complete_notifs_le (now : Time) (key : Nat) (d : DispatchLink) (h : d.notifs.length ≤ 64) :
    (d.complete now key).notifs.length ≤ 64 := by
  unfold DispatchLink.complete
  split
  · exact h
  · exact h
  · rw [DispatchLink.reportDrops_eq]
    split
    · simp only [List.length_drop]; omega
    · simp only [List.length_append, List.length_drop, List.length_singleton]
      omega

/-- What a completed transmission leaves as it was. -/
theorem DispatchLink.complete_rest (now : Time) (key : Nat) (d : DispatchLink) :
    (d.complete now key).up = d.up ∧ (d.complete now key).timer = d.timer ∧
      (d.complete now key).replies = d.replies ∧ (d.complete now key).tx = .idle := by
  unfold DispatchLink.complete
  split
  · next h => exact ⟨rfl, rfl, rfl, h⟩
  · exact ⟨rfl, rfl, rfl, rfl⟩
  · rw [DispatchLink.reportDrops_eq]
    split <;> exact ⟨rfl, rfl, rfl, rfl⟩

end Sys2Proof.Machine
end

