-- ==== Sys2Proof/Laws/Within.lean ====
section
/-! SUPPORT. The frame of a request (R21): what everything a request does leaves as it was, and the lemma of each shared
operation of the links, the Picture Broadcaster, the Reservation Unit, the Carrier Supervisor and the Authority
Calculator that it stays within that frame. -/

namespace Sys2Proof.Machine

namespace RadioLink.Fed

theorem refl (l : RadioLink) : Fed l l := ⟨rfl, fun _ => rfl⟩

theorem state {l m : RadioLink} (h : Fed l m) : m.state = l.state := by rw [h.rest]

theorem timer {l m : RadioLink} (h : Fed l m) : m.timer = l.timer := by rw [h.rest]

theorem trans {l m n : RadioLink} (h : Fed l m) (g : Fed m n) : Fed l n :=
  ⟨by rw [g.rest, h.rest], fun hd => (g.down (by rw [h.state]; exact hd)).trans (h.down hd)⟩

end RadioLink.Fed

namespace CraneLink.Fed

theorem refl (l : CraneLink) : Fed l l := ⟨rfl, Nat.le_refl _⟩

theorem trans {l m n : CraneLink} (h : Fed l m) (g : Fed m n) : Fed l n :=
  ⟨by rw [g.rest, h.rest], Nat.le_trans g.replies h.replies⟩

end CraneLink.Fed

/-- The frame of a request: the records of the segments, the routes, the carriers, the cranes and the learning table,
the pending route list and the cycle of the picture are a request's own, and all else stands; the links change by queued
frames and notifications only; the pending route list does not grow; and the segment records keep their canonical
form. -/
structure Within (s t : State) : Prop where
  rest : t = { s with segs := t.segs, routes := t.routes, versions := t.versions, waiting := t.waiting,
                      carriers := t.carriers, cranes := t.cranes, learning := t.learning, cycle := t.cycle,
                      dispatch := t.dispatch, radios := t.radios, craneLinks := t.craneLinks }
  dlinks : ∀ l, DispatchLink.Notified (s.dlink l) (t.dlink l)
  radios : ∀ r, RadioLink.Fed (s.radio r) (t.radio r)
  craneLinks : ∀ k, CraneLink.Fed (s.craneLink k) (t.craneLink k)
  waiting : t.waiting.length ≤ s.waiting.length
  sorted : s.segs.Sorted → t.segs.Sorted

namespace Within

variable {s t : State}

theorem pending (h : Within s t) : t.pending = s.pending := by rw [h.rest]

theorem now (h : Within s t) : t.now = s.now := by rw [h.rest]

theorem mode (h : Within s t) : t.mode = s.mode := by rw [h.rest]

theorem recoveryStart (h : Within s t) : t.recoveryStart = s.recoveryStart := by rw [h.rest]

theorem cfg (h : Within s t) : t.cfg = s.cfg := by rw [h.rest]

theorem image (h : Within s t) : t.image = s.image := by rw [h.rest]

theorem save (h : Within s t) : t.save = s.save := by rw [h.rest]

theorem dlcClosed (h : Within s t) : t.dlcClosed = s.dlcClosed := by rw [h.rest]

theorem rlcClosed (h : Within s t) : t.rlcClosed = s.rlcClosed := by rw [h.rest]

theorem unregistered (h : Within s t) : t.unregistered = s.unregistered := by rw [h.rest]

theorem unknownTimes (h : Within s t) : t.unknownTimes = s.unknownTimes := by rw [h.rest]

theorem eventSeqs (h : Within s t) : t.eventSeqs = s.eventSeqs := by rw [h.rest]

theorem flush (h : Within s t) : t.flush = s.flush := by rw [h.rest]

theorem lossSince (h : Within s t) : t.lossSince = s.lossSince := by rw [h.rest]

theorem refl (s : State) : Within s s where
  rest := rfl
  dlinks _ := .refl _
  radios _ := .refl _
  craneLinks _ := .refl _
  waiting := Nat.le_refl _
  sorted := id

theorem trans {s t u : State} (h : Within s t) (g : Within t u) : Within s u where
  rest := by rw [g.rest, h.rest]
  dlinks l := (h.dlinks l).trans (g.dlinks l)
  radios r := (h.radios r).trans (g.radios r)
  craneLinks k := (h.craneLinks k).trans (g.craneLinks k)
  waiting := Nat.le_trans g.waiting h.waiting
  sorted := g.sorted ∘ h.sorted

/-- A fold of operations that stay within the frame stays within it. -/
theorem foldl {α : Type} (f : State → α → State) (h : ∀ s a, Within s (f s a)) (l : List α) (s : State) :
    Within s (l.foldl f s) := by
  induction l generalizing s with
  | nil => exact refl s
  | cons a rest ih => exact (h s a).trans (ih (f s a))

end Within

/-! ## Single updates -/

/-- An update of the records that are a request's own stays within its frame. -/
theorem within_records (s : State) (routes : Table Route) (versions : Table Nat) (carriers : Table Carrier)
    (cranes : Table Crane) (learning : Table LearnEntry) (cycle : Cycle) :
    Within s { s with routes := routes, versions := versions, carriers := carriers, cranes := cranes,
                      learning := learning, cycle := cycle } :=
  { Within.refl s with rest := rfl }

theorem within_waiting (s : State) (w : List PendingEntry) (h : w.length ≤ s.waiting.length) :
    Within s { s with waiting := w } :=
  { Within.refl s with rest := rfl, waiting := h }

theorem putSeg_within (s : State) (i : Nat) (r : SegDyn) : Within s (s.putSeg i r) :=
  { Within.refl s with rest := rfl, sorted := Table.sorted_put _ _ }

theorem onCarrier_within (s : State) (c : Nat) (f : Carrier → Carrier) : Within s (s.onCarrier c f) := by
  unfold State.onCarrier
  split
  · exact within_records s s.routes s.versions _ s.cranes s.learning s.cycle
  · exact Within.refl s

theorem onCrane_within (s : State) (k : Nat) (f : Crane → Crane) : Within s (s.onCrane k f) :=
  within_records s s.routes s.versions s.carriers _ s.learning s.cycle

theorem learn_within (s : State) (c r : Nat) : Within s (s.learn c r) :=
  within_records s s.routes s.versions s.carriers s.cranes _ s.cycle

theorem dropEntry_within (s : State) (c : Nat) : Within s (s.dropEntry c) :=
  within_waiting s _ (List.length_filter_le _ _)

theorem blockEntry_within (s : State) (c i : Nat) : Within s (s.blockEntry c i) :=
  within_waiting s _ (by simp)

/-! ## What queues picture rows, authorities and notifications -/

/-- The frame of what only queues frames and notifications and moves the picture cycle on. -/
structure Pictured (s t : State) : Prop where
  rest : t = { s with radios := t.radios, cycle := t.cycle, dispatch := t.dispatch }
  radios : ∀ r, RadioLink.Fed (s.radio r) (t.radio r)
  dlinks : ∀ l, DispatchLink.Notified (s.dlink l) (t.dlink l)

namespace Pictured

theorem refl (s : State) : Pictured s s := ⟨rfl, fun _ => .refl _, fun _ => .refl _⟩

theorem trans {s t u : State} (h : Pictured s t) (g : Pictured t u) : Pictured s u :=
  ⟨by rw [g.rest, h.rest], fun r => (h.radios r).trans (g.radios r), fun l => (h.dlinks l).trans (g.dlinks l)⟩

theorem foldl {α : Type} (f : State → α → State) (h : ∀ s a, Pictured s (f s a)) (l : List α) (s : State) :
    Pictured s (l.foldl f s) := by
  induction l generalizing s with
  | nil => exact refl s
  | cons a rest ih => exact (h s a).trans (ih (f s a))

/-- It stays within the frame of a request. -/
theorem within {s t : State} (h : Pictured s t) : Within s t where
  rest := by rw [h.rest]
  dlinks := h.dlinks
  radios := h.radios
  craneLinks k := by
    rw [h.rest]
    exact .refl _
  waiting := Nat.le_of_eq (congrArg State.waiting h.rest ▸ rfl)
  sorted := by
    rw [h.rest]
    exact id

/-- It is among what the end of a request may do. -/
theorem onlyRuns {s t : State} (h : Pictured s t) : State.OnlyRuns s t := by
  refine ⟨?_, fun c => ?_, fun c => ?_, h.radios, h.dlinks⟩
  · rw [h.rest]
  · rw [h.rest]
    show ∃ a, s.carrier? c = _
    cases hc : s.carrier? c with
    | none => exact ⟨AuthorityFields.fresh, rfl⟩
    | some r => exact ⟨r.auth, rfl⟩
  · rw [h.rest]
    show ∃ v, s.route? c = _
    cases hc : s.route? c with
    | none => exact ⟨0, rfl⟩
    | some r => exact ⟨r.version, rfl⟩

end Pictured

theorem cycle_pictured (s : State) (c : Cycle) : Pictured s { s with cycle := c } :=
  ⟨rfl, fun _ => .refl _, fun _ => .refl _⟩

theorem offer_pictured (s : State) (l : DLink) (e : Notif) : Pictured s (s.offer l e) :=
  ⟨rfl, fun _ => .refl _, fun m => s.dlink_offer l m e⟩

theorem post_pictured (s : State) (kind : NotifKind) (subject : Subject) (detail : List Val) :
    Pictured s (s.post kind subject detail) := (offer_pictured s _ _).trans (offer_pictured _ _ _)

theorem post_within (s : State) (kind : NotifKind) (subject : Subject) (detail : List Val) :
    Within s (s.post kind subject detail) := (post_pictured s kind subject detail).within

/-! ## Radio links (R127 to R129) -/

theorem RadioLink.transmit_fed (l : RadioLink) : RadioLink.Fed l l.transmit := by
  unfold RadioLink.transmit
  constructor
  · split
    · split <;> rfl
    · rfl
  · intro h
    rw [if_neg]
    simp [h]

theorem RadioLink.join_fed (a : Authority) (l : RadioLink) (h : l.state = .up) : RadioLink.Fed l (l.join a) := by
  unfold RadioLink.join
  split <;> exact ⟨rfl, fun hd => absurd h hd⟩

theorem onRadio_pictured (s : State) (r : Nat) (f : RadioLink → RadioLink)
    (h : RadioLink.Fed (s.radio r) (f (s.radio r))) : Pictured s (s.onRadio r f) := by
  refine ⟨rfl, fun q => ?_, fun _ => .refl _⟩
  rw [State.radio_onRadio]
  split
  · next hq => rw [hq]; exact h
  · exact .refl _

theorem offerAuthority_pictured (s : State) (r : Nat) (a : Authority) (h : (s.radio r).state = .up) :
    Pictured s (s.offerAuthority r a) :=
  onRadio_pictured s r _ ((RadioLink.join_fed a _ h).trans (RadioLink.transmit_fed _))

/-- A fold over links that are UP of queuings that stay within the frame where the link is UP. -/
theorem foldl_links_pictured (f : State → Nat → State)
    (h : ∀ s r, (s.radio r).state = .up → Pictured s (f s r)) (links : List Nat) (s : State)
    (hu : ∀ r ∈ links, (s.radio r).state = .up) : Pictured s (links.foldl f s) := by
  induction links generalizing s with
  | nil => exact .refl s
  | cons r rest ih =>
    have h1 := h s r (hu r (List.mem_cons_self))
    refine h1.trans (ih _ (fun q hq => ?_))
    rw [(h1.radios q).state]
    exact hu q (List.mem_cons_of_mem _ hq)

theorem mem_upLinks {s : State} {r : Nat} (h : r ∈ s.upLinks) : (s.radio r).state = .up := by
  simp only [State.upLinks, List.mem_filter, decide_eq_true_eq] at h
  exact h.2

theorem mem_authorityLinks {s : State} {a : Authority} {st : CarrierState} {r : Nat}
    (h : r ∈ s.authorityLinks a st) : (s.radio r).state = .up := by
  unfold State.authorityLinks at h
  split at h
  · exact mem_upLinks h
  · split at h
    · exact mem_upLinks (List.mem_filter.1 h).1
    · exact mem_upLinks h

theorem routeAuthority_pictured (s : State) (a : Authority) (st : CarrierState) :
    Pictured s (s.routeAuthority a st) :=
  foldl_links_pictured _ (fun s r h => offerAuthority_pictured s r a h) _ s (fun _ h => mem_authorityLinks h)

theorem offerRow_pictured (s : State) (r : Nat) (row : PictureRow) (h : (s.radio r).state = .up) :
    Pictured s (s.offerRow r row) := by
  have key : ∀ t : State, (t.radio r).state = .up → Pictured t (t.onRadio r (fun l =>
      RadioLink.transmit { l with normal := joinQueue (RadioFrame.isRow row.lane) (.row row) l.normal })) := by
    intro t ht
    refine onRadio_pictured t r _ (RadioLink.Fed.trans ?_ (RadioLink.transmit_fed _))
    exact ⟨rfl, fun hd => absurd ht hd⟩
  unfold State.offerRow
  simp only
  split
  · exact (cycle_pictured s _).trans (key _ h)
  · exact key s h

theorem handRow_pictured (s : State) (row : PictureRow) : Pictured s (s.handRow row) := by
  unfold State.handRow
  have h1 := foldl_links_pictured _ (fun s r h => offerRow_pictured s r row h) s.upLinks s (fun _ h => mem_upLinks h)
  simp only
  split <;> exact h1.trans (cycle_pictured _ _)

/-! ## The Picture Broadcaster (R137 to R142) -/

theorem beginCycle_pictured (s : State) : Pictured s s.beginCycle :=
  (cycle_pictured s _).trans (Pictured.foldl _ handRow_pictured _ _)

theorem closeCycle_pictured (s : State) : Pictured s s.closeCycle := by
  unfold State.closeCycle
  simp only
  split
  · exact (post_pictured s _ _ _).trans (cycle_pictured _ _)
  · exact cycle_pictured s _

theorem closeIfDone_pictured (s : State) : Pictured s s.closeIfDone := by
  unfold State.closeIfDone
  split
  · exact closeCycle_pictured s
  · exact .refl s

theorem rerunCycle_pictured (s : State) : Pictured s s.rerunCycle := by
  unfold State.rerunCycle
  simp only
  split
  · split
    · exact ((cycle_pictured s _).trans (beginCycle_pictured _)).trans (closeIfDone_pictured _)
    · exact cycle_pictured s _
  · exact .refl s

theorem settleCycle_pictured (s : State) : Pictured s s.settleCycle := by
  unfold State.settleCycle
  split
  · exact (closeCycle_pictured s).trans (rerunCycle_pictured _)
  · exact .refl s

theorem startCycle_pictured (s : State) : Pictured s s.startCycle :=
  (beginCycle_pictured s).trans (settleCycle_pictured _)

theorem rowFate_pictured (s : State) (row : PictureRow) (b : Bool) : Pictured s (s.rowFate row b) :=
  (cycle_pictured s _).trans (settleCycle_pictured _)

theorem startOrSkip_pictured (s : State) : Pictured s s.startOrSkip := by
  unfold State.startOrSkip
  split
  · exact cycle_pictured s _
  · exact startCycle_pictured s

theorem startOrRerun_pictured (s : State) : Pictured s s.startOrRerun := by
  unfold State.startOrRerun
  split
  · exact cycle_pictured s _
  · exact startCycle_pictured s

theorem pictureChange_pictured (s : State) (l : List Nat) : Pictured s (s.pictureChange l) := by
  unfold State.pictureChange
  split
  · exact startOrRerun_pictured s
  · exact .refl s

theorem enterMode_pictured (s : State) (m : BroadcastMode) : Pictured s (s.enterMode m) := by
  cases m
  · exact cycle_pictured s _
  · exact (cycle_pictured s _).trans (startOrSkip_pictured _)
  · exact (cycle_pictured s _).trans (startOrRerun_pictured _)
  · exact cycle_pictured s _

theorem followMode_pictured (s : State) (m : BroadcastMode) : Pictured s (s.followMode m) := by
  unfold State.followMode
  split
  · exact .refl s
  · exact enterMode_pictured s _

/-! ### The same within the frame of a request -/

theorem offerAuthority_within (s : State) (r : Nat) (a : Authority) (h : (s.radio r).state = .up) :
    Within s (s.offerAuthority r a) := (offerAuthority_pictured s r a h).within
theorem routeAuthority_within (s : State) (a : Authority) (st : CarrierState) : Within s (s.routeAuthority a st) :=
  (routeAuthority_pictured s a st).within
theorem startCycle_within (s : State) : Within s s.startCycle := (startCycle_pictured s).within
theorem rowFate_within (s : State) (row : PictureRow) (b : Bool) : Within s (s.rowFate row b) :=
  (rowFate_pictured s row b).within
theorem startOrSkip_within (s : State) : Within s s.startOrSkip := (startOrSkip_pictured s).within
theorem pictureChange_within (s : State) (l : List Nat) : Within s (s.pictureChange l) :=
  (pictureChange_pictured s l).within
theorem followMode_within (s : State) (m : BroadcastMode) : Within s (s.followMode m) := (followMode_pictured s m).within
theorem cycle_within (s : State) (c : Cycle) : Within s { s with cycle := c } := (cycle_pictured s c).within

/-! ## Crane links (R108) -/

theorem CraneLink.transmit_fed (l : CraneLink) : CraneLink.Fed l l.transmit := by
  unfold CraneLink.transmit
  split
  · next h =>
    refine ⟨rfl, ?_⟩
    simp only [CraneLink.replies, h]
    exact ((List.sublist_cons_self _ _).filter _).length_le
  · exact .refl l

theorem joinQueue_filter_length {α : Type} (p q : α → Bool) (x : α) (hx : q x = false)
    (hp : ∀ y, p y = true → q y = false) (l : List α) :
    ((joinQueue p x l).filter q).length = (l.filter q).length := by
  induction l with
  | nil => simp [joinQueue, hx]
  | cons y rest ih =>
    unfold joinQueue
    split
    · next h => simp [hx, hp y h]
    · by_cases hq : q y <;> simp [hq, ih]

theorem CraneFrame.sameCommand_not_reply {f g : CraneFrame} (hf : f.isReply = false)
    (h : f.sameCommand g = true) : g.isReply = false := by
  cases f <;> cases g <;> first | rfl | simp_all [CraneFrame.sameCommand, CraneFrame.isReply]

theorem CraneLink.join_fed (l : CraneLink) (f : CraneFrame) (hf : f.isReply = false) :
    CraneLink.Fed l (l.join f) :=
  ⟨rfl, Nat.le_of_eq (joinQueue_filter_length _ _ _ hf (fun _ h => CraneFrame.sameCommand_not_reply hf h) _)⟩

theorem onCraneLink_within (s : State) (k : Nat) (f : CraneLink → CraneLink)
    (h : ∀ l, CraneLink.Fed l (f l)) : Within s (s.onCraneLink k f) :=
  { Within.refl s with
    rest := rfl
    craneLinks := fun m => by
      rw [State.craneLink_onCraneLink]
      split
      · next hm => rw [hm]; exact h _
      · exact .refl _ }

theorem craneSend_within (s : State) (k : Nat) (f : CraneFrame) (hf : f.isReply = false) :
    Within s (s.craneSend k f) :=
  onCraneLink_within s k _ (fun l => (l.join_fed f hf).trans (CraneLink.transmit_fed _))

theorem hoistStop_within (s : State) (k : Nat) : Within s (s.hoistStop k) := craneSend_within s k _ rfl
theorem gantryStop_within (s : State) (k : Nat) : Within s (s.gantryStop k) := craneSend_within s k _ rfl
theorem lowerRevoked_within (s : State) (k t : Nat) : Within s (s.lowerRevoked k t) := craneSend_within s k _ rfl

/-! ## Requests in progress -/

/-- An operation on a request in progress that stays within its frame. -/
def Work.Within (w v : Work) : Prop := Machine.Within w.s v.s

namespace Work

theorem Within.refl (w : Work) : Within w w := Machine.Within.refl w.s

theorem Within.trans {w v u : Work} (h : Within w v) (g : Within v u) : Within w u := Machine.Within.trans h g

theorem on_within (w : Work) (f : State → State) (h : Machine.Within w.s (f w.s)) : Within w (w.on f) := h

theorem foldl_within {α : Type} (f : Work → α → Work) (h : ∀ w a, Within w (f w a)) (l : List α) (w : Work) :
    Within w (l.foldl f w) := by
  induction l generalizing w with
  | nil => exact .refl _
  | cons a rest ih => exact (h w a).trans (ih (f w a))

theorem setSeg_within (w : Work) (i : Nat) (r : SegDyn) : Within w (w.setSeg i r) := by
  unfold Work.setSeg
  simp only
  split
  · exact .refl _
  · exact putSeg_within _ _ _

theorem onSeg_within (w : Work) (i : Nat) (f : SegDyn → SegDyn) : Within w (w.onSeg i f) := w.setSeg_within i _

theorem onSegs_within (w : Work) (ids : List Nat) (f : SegDyn → SegDyn) : Within w (w.onSegs ids f) :=
  foldl_within _ (fun w i => w.onSeg_within i f) ids w

theorem release_within (w : Work) (ids : List Nat) : Within w (w.release ids) := w.onSegs_within ids _

theorem post_within (w : Work) (kind : NotifKind) (subject : Subject) (detail : List Val) :
    Within w (w.post kind subject detail) := Machine.post_within _ _ _ _

theorem onCarrier_within (w : Work) (c : Nat) (f : Carrier → Carrier) : Within w (w.onCarrier c f) :=
  Machine.onCarrier_within _ _ _

theorem onCrane_within (w : Work) (k : Nat) (f : Crane → Crane) : Within w (w.onCrane k f) :=
  Machine.onCrane_within _ _ _

theorem concern_within (w : Work) (c : Nat) : Within w (w.concern c) := .refl _

/-! ## The Carrier Supervisor's changes of state (R36, R53, R69) -/

theorem dropStale_within (w : Work) (c : Nat) (cause : StaleCause) : Within w (w.dropStale c cause) := by
  unfold Work.dropStale
  split
  · exact (w.on_within _ (dropEntry_within _ _)).trans (post_within _ _ _ _)
  · exact .refl _

theorem notifyState_within (w : Work) (c old new : Nat) (extra : List Val) :
    Within w (w.notifyState c old new extra) := post_within _ _ _ _

theorem changeState_within (w : Work) (c : Nat) (new : CarrierState) (extra : List Val) :
    Within w (w.changeState c new extra) := by
  unfold Work.changeState
  split
  · exact .refl _
  · simp only
    split
    · exact (w.onCarrier_within c _).trans ((notifyState_within _ _ _ _ _).trans
        ((concern_within _ _).trans (dropStale_within _ _ _)))
    · exact (w.onCarrier_within c _).trans ((notifyState_within _ _ _ _ _).trans (concern_within _ _))

theorem enterEmergency_within (w : Work) (c : Nat) (cause : EmergencyCause) (lock : Option Reasons) :
    Within w (w.enterEmergency c cause lock) := by
  unfold Work.enterEmergency
  split
  · exact .refl _
  · split
    · exact (w.onCarrier_within c _).trans (changeState_within _ _ _ _)
    · exact (w.onCarrier_within c _).trans (changeState_within _ _ _ _)
    · exact notifyState_within _ _ _ _ _
    · exact (w.onCarrier_within c _).trans (notifyState_within _ _ _ _ _)
    all_goals exact .refl _

theorem applyClass_within (w : Work) (c : Nat) : Within w (w.applyClass c) := onCarrier_within _ _ _

/-! ## The Reservation Unit (R22, R25, R33, R34, R41 to R45) -/

theorem addLock_within (w : Work) (k i : Nat) (rs : Reasons) : Within w (w.addLock k i rs) := by
  unfold Work.addLock
  refine Within.trans ?_ (onSeg_within _ _ _)
  split
  · split
    · exact enterEmergency_within _ _ _ _
    · exact .refl _
  · exact .refl _

theorem removeLock_within (w : Work) (k i : Nat) (rs : Reasons) : Within w (w.removeLock k i rs) :=
  onSeg_within _ _ _

theorem removeLocks_within (w : Work) (k : Nat) (rs : Reasons) : Within w (w.removeLocks k rs) :=
  onSegs_within _ _ _

theorem mark_within (w : Work) (p : Party) (i : Nat) : Within w (w.mark p i) := onSeg_within _ _ _

theorem clearMarks_within (w : Work) (p : Party) : Within w (w.clearMarks p) := onSegs_within _ _ _

theorem placeStanding_within (w : Work) (c : Nat) (ids : List Nat) : Within w (w.placeStanding c ids) :=
  onSegs_within _ _ _

theorem settleStanding_within (w : Work) (c : Nat) (ids : List Nat) : Within w (w.settleStanding c ids) :=
  (w.placeStanding_within c ids).trans (release_within _ _)

theorem bumpVersion_within (w : Work) (c : Nat) : Within w (w.bumpVersion c) :=
  within_records w.s _ _ w.s.carriers w.s.cranes w.s.learning w.s.cycle

theorem bumpSelf_within (w : Work) (c : Nat) : Within w (w.bumpVersion c) := w.bumpVersion_within c

theorem deleteRoute_within (w : Work) (c : Nat) : Within w (w.deleteRoute c) := by
  unfold Work.deleteRoute
  split
  · exact .refl _
  · refine Within.trans (w.on_within _ ?_) (onCarrier_within _ _ _)
    exact within_records w.s _ w.s.versions w.s.carriers w.s.cranes w.s.learning w.s.cycle

theorem grant_within (w : Work) (c : Nat) (list : List Nat) (stop tag : Nat) (origin : DLink) :
    Within w (w.grant c list stop tag origin) := by
  unfold Work.grant
  split
  · exact .refl _
  · have h2 : ∀ (v : Work) (x : State → Table Route), Within v (v.on (fun s => { s with routes := x s })) :=
      fun v x => v.on_within _ (within_records v.s _ v.s.versions v.s.carriers v.s.cranes v.s.learning v.s.cycle)
    exact Within.trans (w.onSegs_within _ _)
      ((h2 _ _).trans ((bumpVersion_within _ _).trans (changeState_within _ _ _ _)))

theorem tryEntry_within (w : Work) (e : PendingEntry) : Within w (w.tryEntry e) := by
  unfold Work.tryEntry
  split
  · exact blockEntry_within _ _ _
  · split
    · exact blockEntry_within _ _ _
    · exact (w.grant_within _ _ _ _ _).trans ((on_within _ _ (dropEntry_within _ _)).trans (post_within _ _ _ _))

theorem reexamine_within (w : Work) : Within w w.reexamine := foldl_within _ tryEntry_within _ _

theorem takeLegs_within (w : Work) (k : Nat) (cells : List Nat) : Within w (w.takeLegs k cells) := onSegs_within _ _ _
theorem takeTravel_within (w : Work) (k : Nat) (cells : List Nat) : Within w (w.takeTravel k cells) :=
  onSegs_within _ _ _
theorem settleAt_within (w : Work) (k : Nat) (cells : List Nat) : Within w (w.settleAt k cells) := onSegs_within _ _ _
theorem releaseLegs_within (w : Work) (k : Nat) (cells : List Nat) : Within w (w.releaseLegs k cells) :=
  onSegs_within _ _ _

theorem haltTake_within (w : Work) (k : Nat) (cells : List Nat) : Within w (w.haltTake k cells) :=
  (w.onSegs_within cells _).trans
    ((foldl_within _ (fun w c => w.enterEmergency_within c _ _) _ _).trans
      (foldl_within _ (fun w _ => w.post_within _ _ _) _ _))

theorem alignClosures_within (w : Work) (ids : List Nat) : Within w (w.alignClosures ids) :=
  foldl_within _ (fun w i => w.onSeg_within i _) ids w

/-! ## The Authority Calculator (R76 to R90) -/

theorem testSpeed_within (w : Work) (c : Nat) : Within w (w.testSpeed c) := by
  unfold Work.testSpeed
  have h1 := w.onCarrier_within c (fun r => { r with auth := r.auth.promote w.s.now })
  simp only
  split
  · exact h1
  · split
    · exact h1.trans ((onCarrier_within _ _ _).trans ((post_within _ _ _ _).trans (enterEmergency_within _ _ _ _)))
    · exact h1

theorem cutBack_within (w : Work) (c : Nat) (r : Carrier) (e : EndPoint) : Within w (w.cutBack c r e) := by
  unfold Work.cutBack
  split
  · split
    · exact bumpVersion_within _ _
    · exact .refl _
  · exact .refl _

theorem authorityRun_within (w : Work) (c : Nat) (leaving : Bool) : Within w (w.authorityRun c leaving) := by
  unfold Work.authorityRun
  have h1 : Within w (if w.report = some c then w.testSpeed c else w) := by
    split
    · exact testSpeed_within _ _
    · exact .refl _
  simp only
  split
  · exact h1
  · exact h1.trans ((cutBack_within _ _ _ _).trans
      ((on_within _ _ (routeAuthority_within _ _ _)).trans (onCarrier_within _ _ _)))

/-- The end of a request stays within its frame. -/
theorem finish_within (w : Work) : Machine.Within w.s w.finish := by
  unfold Work.finish
  have h1 : Within w (if w.reexam then w.reexamine else w) := by
    split
    · exact reexamine_within _
    · exact .refl _
  exact h1.trans ((on_within _ _ (pictureChange_within _ _)).trans
    (foldl_within _ (fun w c => w.authorityRun_within c false) _ _))

end Work

/-- A request whose body stays within the frame stays within it whole. -/
theorem request_within (s : State) (body : Work → Work) (h : ∀ w, Work.Within w (body w)) :
    Within s (s.request body) := Within.trans (h (Work.start s none)) (Work.finish_within _)

end Sys2Proof.Machine
end

