-- ==== Sys2Proof/Laws/Bodies.lean ====
section
/-! SUPPORT. The bodies of the commands stay within the frame of a request: routes, carriers, reports, claims and cranes
(R24 to R36, R44, R45, R58 to R72, R98 to R114). -/

namespace Sys2Proof.Machine.Work

/-! ## Routes -/

theorem grantDirect_within (w : Work) (c : Nat) (list : List Nat) (stop tag : Nat) (o : DLink) :
    Within w (w.grantDirect c list stop tag o) := by
  unfold Work.grantDirect
  simp only
  split
  · exact (w.grant_within _ _ _ _ _).trans ((on_within _ _ (dropEntry_within _ _)).trans (post_within _ _ _ _))
  · exact grant_within _ _ _ _ _ _

theorem putRoute_within (w : Work) (c : Nat) (r : Route) : Within w (w.putRoute c r) :=
  (w.on_within (fun s => { s with routes := s.routes.put c r })
    (within_records w.s _ w.s.versions w.s.carriers w.s.cranes w.s.learning w.s.cycle)).trans (concern_within _ _)

theorem bumpSelf_frame (w : Work) (c : Nat) : Within w (w.bumpSelf c) := w.bumpVersion_within c

/-! ## Carriers -/

theorem clearTo_within (w : Work) (c : Nat) (new : CarrierState) : Within w (w.clearTo c new) :=
  (w.deleteRoute_within c).trans ((clearMarks_within _ _).trans
    ((Work.onCarrier_within _ _ _).trans (changeState_within _ _ _ _)))

theorem goMissing_within (w : Work) (c : Nat) (r : Carrier) : Within w (w.goMissing c r) := by
  unfold Work.goMissing
  simp only
  split
  · exact (w.onCarrier_within c _).trans ((post_within _ _ _ _).trans
      ((concern_within _ _).trans (dropStale_within _ _ _)))
  · exact (w.onCarrier_within c _).trans ((post_within _ _ _ _).trans (concern_within _ _))

theorem goLost_within (w : Work) (c : Nat) (r : Carrier) : Within w (w.goLost c r) :=
  (w.onCarrier_within c _).trans ((onSegs_within _ _ _).trans ((dropStale_within _ _ _).trans
    ((post_within _ _ _ _).trans (concern_within _ _))))

/-! ## Reports -/

theorem acceptReport_within (w : Work) (c radio : Nat) (p : Report) (t : Bool) :
    Within w (w.acceptReport c radio p t) :=
  (w.applyClass_within c).trans ((Work.onCarrier_within _ _ _).trans
    ((on_within _ _ (learn_within _ _ _)).trans (concern_within _ _)))

theorem intrude_within (w : Work) (c i : Nat) : Within w (w.intrude c i) := by
  unfold Work.intrude
  simp only
  split
  · exact (mark_within _ _ _).trans (post_within _ _ _ _)
  · exact mark_within _ _ _

theorem markDeviation_within (w : Work) (c : Nat) (p : Report) : Within w (w.markDeviation c p) :=
  foldl_within _ (fun w i => w.intrude_within c i) _ _

theorem checkFront_within (w : Work) (c : Nat) (p : Report) : Within w (w.checkFront c p) := by
  unfold Work.checkFront
  split
  · split
    · exact .refl _
    · exact dropStale_within _ _ _
  · exact .refl _

theorem idleReport_within (w : Work) (c : Nat) (p : Report) : Within w (w.idleReport c p) := by
  unfold Work.idleReport
  simp only
  have hops : ∀ (v : Work) (l : List Nat), Within v (l.foldl (fun w k => w.on (fun s => s.hoistStop k)) v) :=
    fun v l => foldl_within _ (fun w k => w.on_within _ (hoistStop_within _ k)) l v
  have h1 : Within w (match w.s.idleCause c p with
      | some cause => w.enterEmergency c cause none
      | none => w.checkFront c p) := by
    split
    · exact enterEmergency_within _ _ _ _
    · exact checkFront_within _ _ _
  refine Within.trans ?_ (hops _ _)
  split
  · exact h1.trans (markDeviation_within _ _ _)
  · exact h1

theorem gateExit_within (w : Work) (c : Nat) : Within w (w.gateExit c) :=
  (release_within _ _).trans ((deleteRoute_within _ _).trans (changeState_within _ _ _ _))

theorem releaseBehind_within (w : Work) (c : Nat) (route : Route) (i j : Nat) :
    Within w (w.releaseBehind c route i j) :=
  (w.on_within _ (within_records w.s _ w.s.versions w.s.carriers w.s.cranes w.s.learning w.s.cycle)).trans
    (release_within _ _)

theorem advance_within (w : Work) (c : Nat) (route : Route) (i j : Nat) (p : Report) :
    Within w (w.advance c route i j p) := by
  unfold Work.advance
  simp only
  split
  · exact (releaseBehind_within _ _ _ _ _).trans ((settleStanding_within _ _ _).trans
      ((deleteRoute_within _ _).trans (changeState_within _ _ _ _)))
  · exact releaseBehind_within _ _ _ _ _

theorem authorizedReport_within (w : Work) (c : Nat) (prev : Option Nat) (p : Report) :
    Within w (w.authorizedReport c prev p) := by
  unfold Work.authorizedReport
  split
  · exact .refl _
  · simp only
    split
    · split
      · exact (enterEmergency_within _ _ _ _).trans (markDeviation_within _ _ _)
      · exact enterEmergency_within _ _ _ _
    · split
      · exact gateExit_within _ _
      · split
        · exact (enterEmergency_within _ _ _ _).trans (markDeviation_within _ _ _)
        · exact advance_within _ _ _ _ _ _

theorem emergencyReport_within (w : Work) (c : Nat) (p : Report) : Within w (w.emergencyReport c p) := by
  unfold Work.emergencyReport
  split
  · exact markDeviation_within _ _ _
  · exact .refl _

theorem handleReport_within (w : Work) (c : Nat) (prev : Option Nat) (p : Report) :
    Within w (w.handleReport c prev p) := by
  unfold Work.handleReport
  split
  · exact .refl _
  · split
    · exact idleReport_within _ _ _
    · exact authorizedReport_within _ _ _ _
    · exact emergencyReport_within _ _ _
    all_goals exact .refl _

theorem blockEntry_within (w : Work) (c : Nat) (b : EntryBlock) : Within w (w.blockEntry c b) := by
  unfold Work.blockEntry
  simp only
  split
  · exact .refl _
  · exact (w.onCarrier_within c _).trans (post_within _ _ _ _)

theorem makeEntry_within (w : Work) (c : Nat) (p : Report) : Within w (w.makeEntry c p) :=
  (placeStanding_within _ _ _).trans ((changeState_within _ _ _ _).trans
    ((applyClass_within _ _).trans (Work.onCarrier_within _ _ _)))

theorem entryReport_within (w : Work) (c : Nat) (state : CarrierState) (p : Report) :
    Within w (w.entryReport c state p) := by
  unfold Work.entryReport
  split
  · split
    · exact changeState_within _ _ _ _
    · exact .refl _
  · split
    · exact blockEntry_within _ _ _
    · exact makeEntry_within _ _ _

theorem restore_within (w : Work) (c : Nat) (r : Carrier) : Within w (w.restore c r) :=
  (w.onCarrier_within c _).trans (notifyState_within _ _ _ _ _)

theorem addressing_within (w : Work) (c radio : Nat) (p : Report) : Within w (w.addressing c radio p) :=
  (w.onCarrier_within c _).trans ((on_within _ _ (learn_within _ _ _)).trans (concern_within _ _))

theorem sight_within (w : Work) (c radio : Nat) (p : Report) : Within w (w.sight c radio p) :=
  (w.onCarrier_within c _).trans ((on_within _ _ (learn_within _ _ _)).trans (concern_within _ _))

/-! ## Claims and hoists -/

theorem endClaim_within (w : Work) (k i : Nat) : Within w (w.endClaim k i) := removeLock_within _ _ _ _

theorem lapse_within (w : Work) (k : Nat) (claim : Claim) (cause : LapseCause) : Within w (w.lapse k claim cause) := by
  unfold Work.lapse
  have h2 : ∀ v : Work, Within v (((v.onCrane k Crane.dropClaim).on (fun s => s.lowerRevoked k claim.slot)).post
      .claimLapsed (.crane k) [.byte claim.slot, .half (w.s.claimCell k claim), .byte cause.code]) := fun v =>
    (v.onCrane_within k _).trans ((on_within _ _ (lowerRevoked_within _ _ _)).trans (post_within _ _ _ _))
  simp only
  split
  · exact (endClaim_within _ _ _).trans (h2 _)
  · exact (removeLock_within _ _ _ _).trans (h2 _)

theorem hoistViolation_within (w : Work) (k t : Nat) : Within w (w.hoistViolation k t) := by
  unfold Work.hoistViolation
  simp only
  have h3 : ∀ (v : Work) (e : Option Nat) (d : List Val), Within v (((match e with
      | some b => v.enterEmergency b .hoistViolation none
      | none => v).on (fun s => s.hoistStop k)).post .hoistViolation (.crane k) d) := by
    intro v e d
    refine Within.trans ?_ ((on_within _ _ (hoistStop_within _ _)).trans (post_within _ _ _ _))
    split
    · exact enterEmergency_within _ _ _ _
    · exact .refl _
  have h4 := fun e d => (w.addLock_within k (w.s.slotCell k t (w.s.crane k).at) Reasons.ofViolation).trans (h3 _ e d)
  split
  · split
    · exact (h4 _ _).trans ((removeLock_within _ _ _ _).trans (onCrane_within _ _ _))
    · exact h4 _ _
  · exact h4 _ _

/-! ## Cranes -/

theorem clearOf_within (w : Work) (k : Nat) (rs : Reasons) : Within w (w.clearOf k rs) :=
  (removeLocks_within _ _ _).trans (clearMarks_within _ _)

theorem clearHalted_within (w : Work) (k : Nat) : Within w (w.clearHalted k) := by
  unfold Work.clearHalted
  simp only
  have h := ((w.takeLegs_within k (w.s.legCells k (w.s.crane k).at)).trans ((release_within _
    (w.s.holdsBeyond k (w.s.legCells k (w.s.crane k).at))).trans ((clearOf_within _ k Reasons.ofViolation).trans
      (onCrane_within _ k (fun c => { c with target := none, state := .standing })))))
  split
  · exact h.trans (post_within _ _ _ _)
  · exact h

theorem clearLost_within (w : Work) (k : Nat) : Within w (w.clearLost k) := by
  unfold Work.clearLost
  simp only
  refine Within.trans ?_ ((clearOf_within _ _ _).trans (onCrane_within _ _ _))
  split
  · exact (release_within w _).trans (lapse_within _ _ _ _)
  · exact release_within w _

theorem placeCrane_within (w : Work) (k b : Nat) : Within w (w.placeCrane k b) := by
  have h : ∀ (v : Work) (free : Bool) (legs : List Nat), Within v (if free then v.takeLegs k legs else v.haltTake k legs) := by
    intro v free legs
    cases free
    · exact haltTake_within _ _ _
    · exact takeLegs_within _ _ _
  exact (onCrane_within _ _ _).trans ((h _ _ _).trans ((onCrane_within _ _ _).trans (post_within _ _ _ _)))

theorem returnCells_within (w : Work) (k : Nat) (legs : List Nat) : Within w (w.returnCells k legs) :=
  (release_within _ _).trans (onSegs_within _ _ _)

theorem restoreTravel_within (w : Work) (k b : Nat) : Within w (w.restoreTravel k b) := by
  unfold Work.restoreTravel
  simp only
  have h := (w.returnCells_within k (w.s.legCells k b)).trans
    (onCrane_within _ k (fun c => { c with bay := some b, target := none }))
  split
  · exact h.trans (onCrane_within _ _ _)
  · exact h.trans ((onCrane_within _ _ _).trans ((haltTake_within _ _ _).trans
      (on_within _ _ (gantryStop_within _ _))))

theorem restoreStanding_within (w : Work) (k : Nat) : Within w (w.restoreStanding k) := by
  unfold Work.restoreStanding
  simp only
  split
  · exact (onCrane_within _ _ _).trans (lapse_within _ _ _ _)
  · exact onCrane_within _ _ _

theorem restoreCrane_within (w : Work) (k b : Nat) : Within w (w.restoreCrane k b) := by
  unfold Work.restoreCrane
  simp only
  refine Within.trans ?_ ((onCrane_within _ _ _).trans (post_within _ _ _ _))
  split
  · exact restoreTravel_within _ _ _
  · exact onCrane_within _ _ _
  · exact restoreStanding_within _ _

theorem travel_within (w : Work) (k b g' : Nat) (stopped : Bool) : Within w (w.travel k b g' stopped) := by
  unfold Work.travel
  simp only
  have h : Within w (if b = (w.s.crane k).at then w
      else ((w.settleAt k (w.s.legCells k b)).releaseLegs k
        (w.s.legsOver k ((baysFrom (w.s.crane k).at b).filter (fun x => decide (x ≠ b))))).onCrane k
        (fun c => { c with bay := some b })) := by
    split
    · exact .refl _
    · exact (settleAt_within _ _ _).trans ((releaseLegs_within _ _ _).trans (onCrane_within _ _ _))
  split
  · exact h.trans ((onCrane_within _ _ _).trans (post_within _ _ _ _))
  · exact h

theorem gantryViolation_within (w : Work) (k b : Nat) : Within w (w.gantryViolation k b) := by
  unfold Work.gantryViolation
  simp only
  have h : ∀ (v : Work) (e : Option Claim), Within v (match e with
      | some claim => (v.addLock k (v.s.claimCell k claim) Reasons.ofViolation).lapse k claim .gantry
      | none => v) := by
    intro v e
    cases e
    · exact .refl _
    · exact (addLock_within _ _ _ _).trans (lapse_within _ _ _ _)
  exact (w.on_within _ (gantryStop_within _ k)).trans ((haltTake_within _ _ _).trans
    ((h _ _).trans ((onCrane_within _ _ _).trans (post_within _ _ _ _))))

theorem judgeBay_within (w : Work) (k b : Nat) (stopped : Bool) : Within w (w.judgeBay k b stopped) := by
  unfold Work.judgeBay
  simp only
  split
  · split
    · exact travel_within _ _ _ _ _
    · exact gantryViolation_within _ _ _
  · split
    · exact .refl _
    · exact gantryViolation_within _ _ _
  · split
    · exact .refl _
    · exact gantryViolation_within _ _ _
  · exact .refl _

theorem implausible_within (w : Work) (k : Nat) (cause : FaultCause) : Within w (w.implausible k cause) := by
  unfold Work.implausible
  simp only
  split
  · exact (onCrane_within _ _ _).trans (foldl_within _ (fun w t => w.addLock_within k _ _) _ _)
  · exact (onCrane_within _ _ _).trans ((foldl_within _ (fun w t => w.addLock_within k _ _) _ _).trans
      (post_within _ _ _ _))

theorem faultRun_within (w : Work) (k n : Nat) (cls : HoistClass) : Within w (w.faultRun k n cls) := by
  unfold Work.faultRun
  simp only
  split
  · exact .refl _
  · split
    · exact onCrane_within _ _ _
    · split
      · exact (removeLocks_within _ _ _).trans ((onCrane_within _ _ _).trans (post_within _ _ _ _))
      · exact onCrane_within _ _ _

theorem notifyCrossing_within (w : Work) (k : Nat) (x : Crossing) : Within w (w.notifyCrossing k x) := by
  unfold Work.notifyCrossing
  split
  · exact post_within _ _ _ _
  · exact .refl _

theorem cross_within (w : Work) (k : Nat) (x : Crossing) : Within w (w.cross k x) := by
  unfold Work.cross
  split
  · unfold Work.crossDown
    split
    · exact onCrane_within _ _ _
    · exact hoistViolation_within _ _ _
  · unfold Work.crossUp
    split
    · split
      · exact onCrane_within _ _ _
      · exact .refl _
    · exact .refl _

theorem filteredChange_within (w : Work) (k : Nat) (old new : HoistClass) :
    Within w (w.filteredChange k old new) := by
  unfold Work.filteredChange
  simp only
  split
  · exact .refl _
  · have h := (foldl_within _ (fun w x => w.notifyCrossing_within k x) (crossingsOf old new) w).trans
      (foldl_within _ (fun w x => w.cross_within k x) (crossingsOf old new) _)
    split
    · exact h.trans (removeLocks_within _ _ _)
    · exact h

theorem judgeHoist_within (w : Work) (k : Nat) (position : Bool) : Within w (w.judgeHoist k position) := by
  unfold Work.judgeHoist
  simp only
  split
  · exact implausible_within _ _ _
  · exact (onCrane_within _ _ _).trans ((faultRun_within _ _ _ _).trans (filteredChange_within _ _ _ _))

theorem craneReport_within (w : Work) (k b : Nat) (stopped : Bool) : Within w (w.craneReport k b stopped) := by
  unfold Work.craneReport
  simp only
  split
  · split
    · exact (placeCrane_within _ _ _).trans (judgeHoist_within _ _ _)
    · exact (restoreCrane_within _ _ _).trans ((judgeBay_within _ _ _ _).trans (judgeHoist_within _ _ _))
    · exact (judgeBay_within _ _ _ _).trans (judgeHoist_within _ _ _)
  · split
    · exact onCrane_within _ _ _
    · exact (w.on_within _ (gantryStop_within _ _)).trans (judgeHoist_within _ _ _)

theorem loseCrane_within (w : Work) (k : Nat) : Within w (w.loseCrane k) := by
  have h : ∀ (v : Work) (p : Prop) [Decidable p] (ids : List Nat),
      Within v (if p then v.onSegs ids SegDyn.freeze else v) := by
    intro v p _ ids
    split
    · exact onSegs_within _ _ _
    · exact .refl _
  exact (onCrane_within _ _ _).trans ((foldl_within _ (fun w i => w.addLock_within k i _) _ _).trans
    ((h _ _ _).trans (post_within _ _ _ _)))

/-! ## Records renewed -/

theorem renewCarrier_within (w : Work) (c : Nat) : Within w (w.renewCarrier c) := by
  unfold Work.renewCarrier
  split
  · exact .refl _
  · simp only
    split
    · exact onCarrier_within _ _ _
    · exact (changeState_within _ _ _ _).trans (onCarrier_within _ _ _)

theorem renewCarriers_within (w : Work) : Within w w.renewCarriers := foldl_within _ renewCarrier_within _ _

end Sys2Proof.Machine.Work
end

