-- ==== Sys2Proof/Laws/PerInstr.lean ====
section
/-! SUPPORT. One statement about every command as syntax, with one lemma per constructor: the frame of a well-formed
command fits the envelope of R170. -/

namespace Sys2Proof.Laws

/-- The frame of a well-formed command has a one-byte kind and a payload of 4 to 250 bytes (R170, R172). -/
def FrameFits.Statement (i : Instr) : Prop :=
  ∀ kind payload, i.WellFormed → encode i = some (kind, payload) →
    kind < 256 ∧ 4 ≤ payload.length ∧ payload.length ≤ 250

/-- A command that no far end sends has no frame to fit. -/
theorem frame_none {i : Instr} (h : encode i = none) : FrameFits.Statement i :=
  fun kind payload _ e => by rw [h] at e; cases e

/-- A command whose frame always has the same kind and a length within the envelope. -/
theorem frame_length {i : Instr} {kind : Nat} {payload : List Byte} (h : encode i = some (kind, payload))
    (hk : kind < 256) (hl : 4 ≤ payload.length) (hu : payload.length ≤ 250) : FrameFits.Statement i := by
  intro k p _ e
  rw [h] at e
  cases e
  exact ⟨hk, hl, hu⟩

theorem FrameFits.reset : FrameFits.Statement (.reset) :=
  frame_none rfl

theorem FrameFits.badFrame (link : Link) (bytes : List Byte) : FrameFits.Statement (.badFrame link bytes) :=
  frame_none rfl

theorem FrameFits.dispatchFrame (link : DLink) (kind : Nat) (payload : List Byte) :
    FrameFits.Statement (.dispatchFrame link kind payload) := by
  intro k p hw he
  cases he
  simp [Instr.WellFormed, Instr.wf, isByte, isPayload] at hw
  exact hw

theorem FrameFits.dispatchLinkTimeout (link : DLink) : FrameFits.Statement (.dispatchLinkTimeout link) :=
  frame_none rfl

theorem FrameFits.dispatchTransmitComplete (link : DLink) : FrameFits.Statement (.dispatchTransmitComplete link) :=
  frame_none rfl

theorem FrameFits.heartbeat (link : DLink) : FrameFits.Statement (.heartbeat link) :=
  frame_length rfl (by decide) (Nat.le_of_ble_eq_true rfl) (Nat.le_of_ble_eq_true rfl)

theorem FrameFits.setDispatch (link : DLink) (timeoutA timeoutB : Nat) :
    FrameFits.Statement (.setDispatch link timeoutA timeoutB) :=
  frame_length rfl (by decide) (Nat.le_of_ble_eq_true rfl) (Nat.le_of_ble_eq_true rfl)

theorem FrameFits.queryLink (link : DLink) (selector : Nat) : FrameFits.Statement (.queryLink link selector) :=
  frame_length rfl (by decide) (Nat.le_of_ble_eq_true rfl) (Nat.le_of_ble_eq_true rfl)

theorem FrameFits.setGrid (link : DLink) (lanes bays : Nat) : FrameFits.Statement (.setGrid link lanes bays) :=
  frame_length rfl (by decide) (Nat.le_of_ble_eq_true rfl) (Nat.le_of_ble_eq_true rfl)

theorem FrameFits.setSegment (link : DLink) (args : SegmentArgs) : FrameFits.Statement (.setSegment link args) :=
  frame_length rfl (by decide) (Nat.le_of_ble_eq_true rfl) (Nat.le_of_ble_eq_true rfl)

theorem FrameFits.queryGrid (link : DLink) : FrameFits.Statement (.queryGrid link) :=
  frame_length rfl (by decide) (Nat.le_of_ble_eq_true rfl) (Nat.le_of_ble_eq_true rfl)

theorem FrameFits.routeRequest (link : DLink) (args : RouteArgs) : FrameFits.Statement (.routeRequest link args) := by
  intro k p hw he
  simp [Instr.WellFormed, Instr.wf, RouteArgs.wf] at hw
  cases he
  simp [byteOf, bytesOf]
  omega

theorem FrameFits.routeExtend (link : DLink) (carrier stop : Nat) (ids : List Nat) :
    FrameFits.Statement (.routeExtend link carrier stop ids) := by
  intro k p hw he
  simp [Instr.WellFormed, Instr.wf] at hw
  cases he
  simp [byteOf, bytesOf]
  omega

theorem FrameFits.routeCancel (link : DLink) (carrier : Nat) : FrameFits.Statement (.routeCancel link carrier) :=
  frame_length rfl (by decide) (Nat.le_of_ble_eq_true rfl) (Nat.le_of_ble_eq_true rfl)

theorem FrameFits.pendingCancel (link : DLink) (carrier : Nat) : FrameFits.Statement (.pendingCancel link carrier) :=
  frame_length rfl (by decide) (Nat.le_of_ble_eq_true rfl) (Nat.le_of_ble_eq_true rfl)

theorem FrameFits.segmentBlock (link : DLink) (rect : Rect) : FrameFits.Statement (.segmentBlock link rect) :=
  frame_length rfl (by decide) (Nat.le_of_ble_eq_true rfl) (Nat.le_of_ble_eq_true rfl)

theorem FrameFits.segmentUnblock (link : DLink) (rect : Rect) : FrameFits.Statement (.segmentUnblock link rect) :=
  frame_length rfl (by decide) (Nat.le_of_ble_eq_true rfl) (Nat.le_of_ble_eq_true rfl)

theorem FrameFits.querySegment (link : DLink) (segment : Nat) : FrameFits.Statement (.querySegment link segment) :=
  frame_length rfl (by decide) (Nat.le_of_ble_eq_true rfl) (Nat.le_of_ble_eq_true rfl)

theorem FrameFits.registerCarrier (link : DLink) (carrier cls : Nat) :
    FrameFits.Statement (.registerCarrier link carrier cls) :=
  frame_length rfl (by decide) (Nat.le_of_ble_eq_true rfl) (Nat.le_of_ble_eq_true rfl)

theorem FrameFits.deregisterCarrier (link : DLink) (carrier : Nat) :
    FrameFits.Statement (.deregisterCarrier link carrier) :=
  frame_length rfl (by decide) (Nat.le_of_ble_eq_true rfl) (Nat.le_of_ble_eq_true rfl)

theorem FrameFits.setClass (link : DLink) (args : ClassArgs) : FrameFits.Statement (.setClass link args) :=
  frame_length rfl (by decide) (Nat.le_of_ble_eq_true rfl) (Nat.le_of_ble_eq_true rfl)

theorem FrameFits.recoverCarrier (link : DLink) (carrier : Nat) :
    FrameFits.Statement (.recoverCarrier link carrier) :=
  frame_length rfl (by decide) (Nat.le_of_ble_eq_true rfl) (Nat.le_of_ble_eq_true rfl)

theorem FrameFits.releaseFrozen (link : DLink) (carrier : Nat) : FrameFits.Statement (.releaseFrozen link carrier) :=
  frame_length rfl (by decide) (Nat.le_of_ble_eq_true rfl) (Nat.le_of_ble_eq_true rfl)

theorem FrameFits.clearEmergency (link : DLink) (carrier : Nat) :
    FrameFits.Statement (.clearEmergency link carrier) :=
  frame_length rfl (by decide) (Nat.le_of_ble_eq_true rfl) (Nat.le_of_ble_eq_true rfl)

theorem FrameFits.queryCarrier (link : DLink) (carrier : Nat) : FrameFits.Statement (.queryCarrier link carrier) :=
  frame_length rfl (by decide) (Nat.le_of_ble_eq_true rfl) (Nat.le_of_ble_eq_true rfl)

theorem FrameFits.setCrane (link : DLink) (crane selector : Nat) (geometry : GeometryArgs) (operating : OperatingArgs) :
    FrameFits.Statement (.setCrane link crane selector geometry operating) :=
  frame_length rfl (by decide) (Nat.le_of_ble_eq_true rfl) (Nat.le_of_ble_eq_true rfl)

theorem FrameFits.setCraneOperating (link : DLink) (crane : Nat) (operating : OperatingArgs) :
    FrameFits.Statement (.setCraneOperating link crane operating) :=
  frame_length rfl (by decide) (Nat.le_of_ble_eq_true rfl) (Nat.le_of_ble_eq_true rfl)

theorem FrameFits.clearCrane (link : DLink) (crane : Nat) : FrameFits.Statement (.clearCrane link crane) :=
  frame_length rfl (by decide) (Nat.le_of_ble_eq_true rfl) (Nat.le_of_ble_eq_true rfl)

theorem FrameFits.queryCrane (link : DLink) (crane : Nat) : FrameFits.Statement (.queryCrane link crane) :=
  frame_length rfl (by decide) (Nat.le_of_ble_eq_true rfl) (Nat.le_of_ble_eq_true rfl)

theorem FrameFits.setRadio (link : DLink) (args : RadioArgs) : FrameFits.Statement (.setRadio link args) :=
  frame_length rfl (by decide) (Nat.le_of_ble_eq_true rfl) (Nat.le_of_ble_eq_true rfl)

theorem FrameFits.flushRouting (link : DLink) : FrameFits.Statement (.flushRouting link) :=
  frame_length rfl (by decide) (Nat.le_of_ble_eq_true rfl) (Nat.le_of_ble_eq_true rfl)

theorem FrameFits.broadcastConfig (link : DLink) (args : BroadcastArgs) :
    FrameFits.Statement (.broadcastConfig link args) :=
  frame_length rfl (by decide) (Nat.le_of_ble_eq_true rfl) (Nat.le_of_ble_eq_true rfl)

theorem FrameFits.broadcastTrigger (link : DLink) : FrameFits.Statement (.broadcastTrigger link) :=
  frame_length rfl (by decide) (Nat.le_of_ble_eq_true rfl) (Nat.le_of_ble_eq_true rfl)

theorem FrameFits.queryBroadcast (link : DLink) : FrameFits.Statement (.queryBroadcast link) :=
  frame_length rfl (by decide) (Nat.le_of_ble_eq_true rfl) (Nat.le_of_ble_eq_true rfl)

theorem FrameFits.setCopyRule (link : DLink) (args : CopyArgs) : FrameFits.Statement (.setCopyRule link args) :=
  frame_length rfl (by decide) (Nat.le_of_ble_eq_true rfl) (Nat.le_of_ble_eq_true rfl)

theorem FrameFits.activate (link : DLink) (recoveryTime : Nat) : FrameFits.Statement (.activate link recoveryTime) :=
  frame_length rfl (by decide) (Nat.le_of_ble_eq_true rfl) (Nat.le_of_ble_eq_true rfl)

theorem FrameFits.enterConfig (link : DLink) : FrameFits.Statement (.enterConfig link) :=
  frame_length rfl (by decide) (Nat.le_of_ble_eq_true rfl) (Nat.le_of_ble_eq_true rfl)

theorem FrameFits.saveSettings (link : DLink) : FrameFits.Statement (.saveSettings link) :=
  frame_length rfl (by decide) (Nat.le_of_ble_eq_true rfl) (Nat.le_of_ble_eq_true rfl)

theorem FrameFits.saveWriteCompletion (differs : Option (Fin 8)) :
    FrameFits.Statement (.saveWriteCompletion differs) :=
  frame_none rfl

theorem FrameFits.positionReport (radio : Fin 4) (args : ReportArgs) :
    FrameFits.Statement (.positionReport radio args) :=
  frame_length rfl (by decide) (Nat.le_of_ble_eq_true rfl) (Nat.le_of_ble_eq_true rfl)

theorem FrameFits.carrierEvent (radio : Fin 4) (args : EventArgs) : FrameFits.Statement (.carrierEvent radio args) := by
  intro k p hw he
  simp [Instr.WellFormed, Instr.wf, EventArgs.wf] at hw
  cases he
  simp [byteOf, bytesOf, EventArgs.payload]
  omega

theorem FrameFits.modemHeartbeat (radio : Fin 4) : FrameFits.Statement (.modemHeartbeat radio) :=
  frame_length rfl (by decide) (Nat.le_of_ble_eq_true rfl) (Nat.le_of_ble_eq_true rfl)

theorem FrameFits.radioUnusableFrame (radio : Fin 4) (kind : Nat) (payload : List Byte) :
    FrameFits.Statement (.radioUnusableFrame radio kind payload) := by
  intro k p hw he
  cases he
  simp [Instr.WellFormed, Instr.wf, isByte, isPayload] at hw
  exact hw

theorem FrameFits.radioLinkTimeout (radio : Fin 4) : FrameFits.Statement (.radioLinkTimeout radio) :=
  frame_none rfl

theorem FrameFits.radioTransmitComplete (radio : Fin 4) : FrameFits.Statement (.radioTransmitComplete radio) :=
  frame_none rfl

theorem FrameFits.learningEntryExpiry (carrier : Nat) : FrameFits.Statement (.learningEntryExpiry carrier) :=
  frame_none rfl

theorem FrameFits.flushVisit : FrameFits.Statement (.flushVisit) :=
  frame_none rfl

theorem FrameFits.supervisionTimerExpiry (carrier : Nat) : FrameFits.Statement (.supervisionTimerExpiry carrier) :=
  frame_none rfl

theorem FrameFits.graceExpiry (carrier : Nat) : FrameFits.Statement (.graceExpiry carrier) :=
  frame_none rfl

theorem FrameFits.pendingExpired (carrier : Nat) : FrameFits.Statement (.pendingExpired carrier) :=
  frame_none rfl

theorem FrameFits.craneReport (crane : Fin 8) (args : CraneReportArgs) :
    FrameFits.Statement (.craneReport crane args) :=
  frame_length rfl (by decide) (Nat.le_of_ble_eq_true rfl) (Nat.le_of_ble_eq_true rfl)

theorem FrameFits.lowerRequest (crane : Fin 8) (slot : Nat) : FrameFits.Statement (.lowerRequest crane slot) :=
  frame_length rfl (by decide) (Nat.le_of_ble_eq_true rfl) (Nat.le_of_ble_eq_true rfl)

theorem FrameFits.slotRelease (crane : Fin 8) : FrameFits.Statement (.slotRelease crane) :=
  frame_length rfl (by decide) (Nat.le_of_ble_eq_true rfl) (Nat.le_of_ble_eq_true rfl)

theorem FrameFits.gantryRequest (crane : Fin 8) (bay : Nat) : FrameFits.Statement (.gantryRequest crane bay) :=
  frame_length rfl (by decide) (Nat.le_of_ble_eq_true rfl) (Nat.le_of_ble_eq_true rfl)

theorem FrameFits.craneUnusableFrame (crane : Fin 8) (kind : Nat) (payload : List Byte) :
    FrameFits.Statement (.craneUnusableFrame crane kind payload) := by
  intro k p hw he
  cases he
  simp [Instr.WellFormed, Instr.wf, isByte, isPayload] at hw
  exact hw

theorem FrameFits.claimLapsed (crane : Fin 8) : FrameFits.Statement (.claimLapsed crane) :=
  frame_none rfl

theorem FrameFits.craneLinkDown (crane : Fin 8) : FrameFits.Statement (.craneLinkDown crane) :=
  frame_none rfl

theorem FrameFits.craneTransmitComplete (crane : Fin 8) : FrameFits.Statement (.craneTransmitComplete crane) :=
  frame_none rfl

theorem FrameFits.periodTimerExpiry : FrameFits.Statement (.periodTimerExpiry) :=
  frame_none rfl

end Sys2Proof.Laws
end

