-- ==== Sys2Proof/Laws/Requests.lean ====
section
/-! SUPPORT. Closures, link state reports, dispatch loss and regain, the arrival of frames, and the answering of
requests (R39, R40, R98, R108, R119, R120, R144, R147, R149, R152, R153). -/

namespace Sys2Proof.Machine

/-! ## Closures (R39, R40) -/

theorem setDlc_within (s : State) (b : Bool) : Within { s with dlcClosed := b } (s.setDlc b) :=
  request_within _ _ (fun w => w.alignClosures_within _)

theorem Within.radioLoss {s t : State} (h : Within s t) : t.radioLoss = s.radioLoss := by
  unfold State.radioLoss
  congr 1
  funext r
  rw [(h.radios r).state]

/-- A link state report leaves the part as it is, or brings radio-loss closure into line as one request. -/
theorem linkReport_cases (s : State) :
    (s.linkReport = s ∧ s.radioLoss = s.rlcClosed) ∨ Within { s with rlcClosed := s.radioLoss } s.linkReport := by
  unfold State.linkReport
  split
  · next h => exact Or.inl ⟨rfl, h⟩
  · exact Or.inr (request_within _ _ (fun w => w.alignClosures_within _))

/-- After a link state report, radio-loss closure is in force exactly while a configured link is DOWN (R40). -/
theorem linkReport_closed (s : State) : s.linkReport.rlcClosed = s.linkReport.radioLoss := by
  rcases linkReport_cases s with ⟨h, hl⟩ | h
  · rw [h, hl]
  · rw [h.rlcClosed, h.radioLoss]; rfl

/-- A link state report, but for the closure flag it may set, stays within the frame of a request. -/
theorem linkReport_within (s : State) : Within { s with rlcClosed := s.linkReport.rlcClosed } s.linkReport := by
  rcases linkReport_cases s with ⟨h, -⟩ | h
  · rw [h]; exact .refl _
  · rw [h.rlcClosed]; exact h

/-! ## Dispatch loss and regain (R152, R153) -/

/-- PENDING_DROPPED for every entry, and the list empty (R37). -/
theorem dropWaiting_spec (s : State) (cause : Nat) :
    (s.dropWaiting cause).waiting = [] ∧ Pictured { s with waiting := [] } (s.dropWaiting cause) := by
  refine ⟨rfl, ?_⟩
  have key : ∀ (l : List PendingEntry) (t : State), Pictured t
      (l.foldl (fun s e => s.post .pendingDropped (.carrier e.carrier) [.byte cause, .half e.tag]) t) := fun l t =>
    Pictured.foldl _ (fun s e => post_pictured s _ _ _) l t
  have h := key s.waiting s
  refine ⟨?_, h.radios, h.dlinks⟩
  unfold State.dropWaiting
  simp only
  rw [h.rest]

/-- The dispatch-loss report: what it sets, and the frame of the rest. -/
theorem loseDispatch_within (s : State) (l : DLink) :
    Within { s with waiting := [], lossSince := some s.now, dlcClosed := true } (s.loseDispatch l) := by
  obtain ⟨-, h⟩ := dropWaiting_spec s 2
  have h1 : Within { s with waiting := [], lossSince := some s.now, dlcClosed := true }
      { s.dropWaiting 2 with lossSince := some s.now, dlcClosed := true } := by
    have hw := h.within
    exact { dlinks := hw.dlinks, radios := hw.radios, craneLinks := hw.craneLinks, waiting := hw.waiting,
            sorted := hw.sorted, rest := by rw [h.rest] }
  have h2 := setDlc_within { s.dropWaiting 2 with lossSince := some s.now } true
  unfold State.loseDispatch
  simp only
  generalize State.setDlc { s.dropWaiting 2 with lossSince := some s.now } true = t at h2 ⊢
  exact h1.trans (h2.trans (post_within t _ _ _))

/-- The dispatch-regain report: nothing when no loss is in force, otherwise what it sets, and the frame of the rest. -/
theorem regainDispatch_within (s : State) (l : DLink) (h : s.lossSince.isSome = true) :
    Within { s with lossSince := none, dlcClosed := false } (s.regainDispatch l) := by
  unfold State.regainDispatch
  split
  · next hn => rw [hn] at h; cases h
  · exact (setDlc_within { s with lossSince := none } false).trans (post_within _ _ _ _)

theorem regainDispatch_none (s : State) (l : DLink) (h : s.lossSince = none) : s.regainDispatch l = s := by
  unfold State.regainDispatch
  rw [h]

/-! ## Arrival on a dispatch link (R144) -/

/-- The arrival itself, before a regain report. -/
def State.arrived (s : State) (l : DLink) : State :=
  s.onDlink l (fun d => { d with up := true, timer := some (s.dtimeout l), rx := Receiver.hunting })

/-- A frame on a link that is UP, or whose partner is, only restarts the timer and the receiver. -/
theorem dispatchArrival_of_up (s : State) (l : DLink) (h : (s.dlink l).up = true ∨ (s.dlink l.other).up = true) :
    s.dispatchArrival l = s.arrived l := by
  unfold State.dispatchArrival State.arrived
  simp only
  rw [if_pos (by simpa using h)]

/-- A frame on a DOWN link whose partner is DOWN too is a regain. -/
theorem dispatchArrival_of_down (s : State) (l : DLink) (h : (s.dlink l).up = false)
    (ho : (s.dlink l.other).up = false) : s.dispatchArrival l = (s.arrived l).regainDispatch l := by
  unfold State.dispatchArrival State.arrived
  simp only
  rw [if_neg (by simp [h, ho])]

/-- The links after an arrival: the one it is on as R144 leaves it, both with notifications only added. -/
theorem dispatchArrival_dlink (s : State) (l m : DLink) :
    DispatchLink.Notified ((s.arrived l).dlink m) ((s.dispatchArrival l).dlink m) := by
  by_cases h : (s.dlink l).up = true ∨ (s.dlink l.other).up = true
  · rw [dispatchArrival_of_up s l h]; exact .refl _
  · simp only [not_or, Bool.not_eq_true] at h
    rw [dispatchArrival_of_down s l h.1 h.2]
    cases hl : (s.arrived l).lossSince with
    | none => rw [regainDispatch_none _ _ hl]; exact .refl _
    | some t => exact (regainDispatch_within (s.arrived l) l (by rw [hl]; rfl)).dlinks m

theorem dlink_arrived_self (s : State) (l : DLink) : (s.arrived l).dlink l =
    { s.dlink l with up := true, timer := some (s.dtimeout l), rx := Receiver.hunting } :=
  State.dlink_onDlink_self _ _

theorem dlink_arrived_other (s : State) (l : DLink) : (s.arrived l).dlink l.other = s.dlink l.other :=
  State.dlink_onDlink_other _ _

/-- An arrival neither answers nor sends anything: the replies of both links stand. -/
@[simp] theorem dispatchArrival_replies (s : State) (l m : DLink) :
    ((s.dispatchArrival l).dlink m).replies = (s.dlink m).replies := by
  rw [(dispatchArrival_dlink s l m).replies]
  unfold State.arrived
  rw [State.dlink_onDlink]
  split
  · next h => rw [h]
  · rfl

@[simp] theorem dispatchArrival_up (s : State) (l : DLink) : ((s.dispatchArrival l).dlink l).up = true := by
  rw [(dispatchArrival_dlink s l l).up, dlink_arrived_self]

/-! ## Requests (R147, R149) -/

/-- A request on a link with room is handed to its owner, and its reply is queued. -/
theorem takeRequest_room (s : State) (l : DLink) (owner : Owner) (h : s.hasRoom l) :
    s.takeRequest l owner = (owner (s.taken l)).1.answered l (owner (s.taken l)).2 := by
  unfold State.takeRequest
  simp only
  rw [if_neg]
  · rfl
  · rw [dispatchArrival_replies]
    exact Nat.not_le.2 h

/-- A frame on a link without room is an overrun: it is counted, and nothing else comes of it but its arrival. -/
theorem takeRequest_full (s : State) (l : DLink) (owner : Owner) (h : ¬ s.hasRoom l) :
    s.takeRequest l owner =
      State.pump ((s.dispatchArrival l).onDlink l (fun d => { d with overruns := bump16 d.overruns })) := by
  unfold State.takeRequest
  simp only
  rw [if_pos]
  rw [dispatchArrival_replies]
  exact Nat.not_lt.1 h

theorem taken_replies (s : State) (l m : DLink) : ((s.taken l).dlink m).replies = (s.dlink m).replies := by
  unfold State.taken
  rw [State.dlink_onDlink]
  split
  · next h => rw [h]; exact dispatchArrival_replies s l l
  · exact dispatchArrival_replies s l m

theorem taken_up (s : State) (l : DLink) : ((s.taken l).dlink l).up = true := by
  unfold State.taken
  rw [State.dlink_onDlink_self]
  exact dispatchArrival_up s l

/-- Taking a request on a link that is UP, or whose partner is, changes that link alone. -/
theorem taken_of_up (s : State) (l : DLink) (h : (s.dlink l).up = true ∨ (s.dlink l.other).up = true) :
    s.taken l = (s.arrived l).onDlink l (fun d => { d with good := bump16 d.good }) := by
  unfold State.taken
  rw [dispatchArrival_of_up s l h]

/-! ## Crane frames (R98, R108) -/

/-- A request of a present crane with room is handed to its owner, and its reply is sent. -/
theorem craneRequest_room (s : State) (k : Nat) (owner : Owner) (hp : (s.craneCfg k).present = true)
    (h : s.craneRoom k) : (s.craneRequest k owner).pump =
      (owner (s.craneArrival k)).1.craneAnswered k (owner (s.craneArrival k)).2 := by
  have hr : ((s.craneArrival k).craneLink k).replies = (s.craneLink k).replies := by
    unfold State.craneArrival
    rw [State.craneLink_onCrane, State.craneLink_onCraneLink, if_pos rfl]
    rfl
  unfold State.craneRequest State.takeCrane
  simp only [if_pos hp]
  rw [if_neg (by rw [hr]; exact Nat.not_le.2 h)]
  rfl

/-- A frame of a crane that is absent does nothing but arrive. -/
theorem takeCrane_absent (s : State) (k : Nat) (f : State → State) (h : (s.craneCfg k).present = false) :
    s.takeCrane k f = s.craneArrival k := by
  unfold State.takeCrane
  rw [if_neg (by simp [h])]

theorem takeCrane_present (s : State) (k : Nat) (f : State → State) (h : (s.craneCfg k).present = true) :
    s.takeCrane k f = f (s.craneArrival k) := by
  unfold State.takeCrane
  rw [if_pos h]

/-! ## Radio frames (R119, R122) -/

theorem sortRadio_configured (s : State) (r : Nat) (f : State → State) (h : (s.radio r).state ≠ .unconfigured) :
    s.sortRadio r f = f (s.radioArrival r) := by
  unfold State.sortRadio
  rw [if_neg h]

theorem sortRadio_unconfigured (s : State) (r : Nat) (f : State → State) (h : (s.radio r).state = .unconfigured) :
    s.sortRadio r f = s.onRadio r (fun l => l.countGood.countUnusable) := by
  unfold State.sortRadio State.radioArrival
  rw [if_pos h, h]

theorem radioArrival_up (s : State) (r : Nat) (h : (s.radio r).state = .up) :
    s.radioArrival r = s.onRadio r (fun l => l.countGood.comeUp (s.radioCfg r).timeout) := by
  unfold State.radioArrival
  rw [h]

end Sys2Proof.Machine
end

