-- ==== Sys2Proof/Laws/Runs.lean ====
section
/-! SUPPORT. The end of a request (R21, R75, R76): what its authority runs and its picture report change, when nothing is
re-examined. -/

namespace Sys2Proof.Machine

namespace State.OnlyRuns

theorem refl (s : State) : OnlyRuns s s := (Pictured.refl s).onlyRuns

theorem trans {s t u : State} (h : OnlyRuns s t) (g : OnlyRuns t u) : OnlyRuns s u := by
  refine ⟨by rw [g.rest, h.rest], fun c => ?_, fun c => ?_, fun r => (h.radios r).trans (g.radios r),
    fun l => (h.dispatch l).trans (g.dispatch l)⟩
  · obtain ⟨a, ha⟩ := h.carriers c
    obtain ⟨b, hb⟩ := g.carriers c
    refine ⟨b, ?_⟩
    rw [hb, ha, Option.map_map]
    rfl
  · obtain ⟨a, ha⟩ := h.routes c
    obtain ⟨b, hb⟩ := g.routes c
    refine ⟨b, ?_⟩
    rw [hb, ha, Option.map_map]
    rfl

section
variable {s t : State} (h : OnlyRuns s t)
include h

theorem pending : t.pending = s.pending := by rw [h.rest]
theorem now : t.now = s.now := by rw [h.rest]
theorem mode : t.mode = s.mode := by rw [h.rest]
theorem cfg : t.cfg = s.cfg := by rw [h.rest]
theorem segs : t.segs = s.segs := by rw [h.rest]
theorem waiting : t.waiting = s.waiting := by rw [h.rest]
theorem cranes : t.cranes = s.cranes := by rw [h.rest]
theorem craneLinks : t.craneLinks = s.craneLinks := by rw [h.rest]
theorem learning : t.learning = s.learning := by rw [h.rest]
theorem dlcClosed : t.dlcClosed = s.dlcClosed := by rw [h.rest]
theorem rlcClosed : t.rlcClosed = s.rlcClosed := by rw [h.rest]
theorem seg (i : Nat) : t.seg i = s.seg i := by unfold State.seg; rw [h.segs]
theorem crane (k : Nat) : t.crane k = s.crane k := by unfold State.crane; rw [h.cranes]

end
end State.OnlyRuns

theorem onCarrier_onlyRuns (s : State) (c : Nat) (f : Carrier → Carrier)
    (hf : ∀ r, ∃ a, f r = { r with auth := a }) : State.OnlyRuns s (s.onCarrier c f) := by
  refine ⟨?_, fun d => ?_, fun d => ?_, fun _ => ?_, fun l => ?_⟩
  · unfold State.onCarrier; split <;> rfl
  · rw [State.carrier?_onCarrier]
    cases hd : s.carrier? d with
    | none => exact ⟨AuthorityFields.fresh, by simp⟩
    | some r =>
      split
      · obtain ⟨a, ha⟩ := hf r
        exact ⟨a, by simp [ha]⟩
      · exact ⟨r.auth, rfl⟩
  · rw [State.route?_onCarrier]
    cases hd : s.route? d with
    | none => exact ⟨0, rfl⟩
    | some r => exact ⟨r.version, rfl⟩
  · rw [State.radio_onCarrier]; exact .refl _
  · rw [State.dlink_onCarrier]; exact .refl _

namespace Work

theorem route?_bumpVersion (w : Work) (c d : Nat) :
    (w.bumpVersion c).s.route? d =
      if d = c then (w.s.route? d).map (fun r => { r with version := wrap8 (w.s.version c) }) else w.s.route? d := by
  show (Table.get? (match w.s.route? c with
      | some r => w.s.routes.put c { r with version := wrap8 (w.s.version c) }
      | none => w.s.routes) d) = _
  cases h : w.s.route? c with
  | none =>
    by_cases hd : d = c
    · subst hd
      rw [if_pos rfl, h]
      exact h
    · rw [if_neg hd]; rfl
  | some r =>
    rw [Table.get?_put]
    by_cases hd : d = c
    · subst hd; simp [h]
    · rw [if_neg hd, if_neg hd]; rfl

theorem version_bumpVersion (w : Work) (c d : Nat) :
    (w.bumpVersion c).s.version d = if d = c then wrap8 (w.s.version c) else w.s.version d :=
  Table.get_put _ _ _ _ _

theorem bumpVersion_onlyRuns (w : Work) (c : Nat) : State.OnlyRuns w.s (w.bumpVersion c).s := by
  refine ⟨rfl, fun d => ?_, fun d => ?_, fun _ => .refl _, fun _ => .refl _⟩
  · show ∃ a, w.s.carrier? d = _
    cases hd : w.s.carrier? d with
    | none => exact ⟨AuthorityFields.fresh, rfl⟩
    | some r => exact ⟨r.auth, rfl⟩
  · rw [route?_bumpVersion]
    cases hd : w.s.route? d with
    | none => exact ⟨0, by simp⟩
    | some r =>
      split
      · exact ⟨_, rfl⟩
      · exact ⟨r.version, rfl⟩

theorem cutBack_onlyRuns (w : Work) (c : Nat) (r : Carrier) (e : EndPoint) :
    State.OnlyRuns w.s (w.cutBack c r e).s := by
  unfold Work.cutBack
  split
  · split
    · exact bumpVersion_onlyRuns _ _
    · exact .refl _
  · exact .refl _

/-- A run that no report has started (R76): the frame of what it changes. -/
theorem authorityRun_onlyRuns (w : Work) (c : Nat) (leaving : Bool) (h : w.report ≠ some c) :
    State.OnlyRuns w.s (w.authorityRun c leaving).s := by
  unfold Work.authorityRun
  simp only [if_neg h]
  split
  · exact .refl _
  · refine (cutBack_onlyRuns _ _ _ _).trans (State.OnlyRuns.trans
      (routeAuthority_pictured _ _ _).onlyRuns (onCarrier_onlyRuns _ _ _ (fun r => ⟨_, rfl⟩)))

@[simp] theorem cutBack_report (w : Work) (c : Nat) (r : Carrier) (e : EndPoint) :
    (w.cutBack c r e).report = w.report := by
  unfold Work.cutBack
  split
  · split <;> rfl
  · rfl

@[simp] theorem cutBack_bumped (w : Work) (c : Nat) (r : Carrier) (e : EndPoint) :
    (w.cutBack c r e).bumped = w.bumped := by
  unfold Work.cutBack
  split
  · split <;> rfl
  · rfl

/-- A run for a carrier leaves the marks of the request as they are, when no report has started it. -/
theorem authorityRun_marks (w : Work) (c : Nat) (leaving : Bool) (h : w.report ≠ some c) :
    (w.authorityRun c leaving).report = w.report ∧ (w.authorityRun c leaving).bumped = w.bumped := by
  unfold Work.authorityRun
  simp only [if_neg h]
  split
  · exact ⟨rfl, rfl⟩
  · exact ⟨cutBack_report _ _ _ _, cutBack_bumped _ _ _ _⟩

/-- The end of a request that no report has started and that re-examines nothing, or finds nothing pending. -/
theorem finish_onlyRuns (w : Work) (hr : w.report = none) (hx : w.reexam = false ∨ w.s.waiting = []) :
    State.OnlyRuns w.s w.finish := by
  have hw : (if w.reexam then w.reexamine else w) = w := by
    rcases hx with hx | hx
    · simp [hx]
    · unfold Work.reexamine
      simp [hx]
  unfold Work.finish
  simp only [hw]
  have key : ∀ (l : List Nat) (v : Work), v.report = none →
      State.OnlyRuns v.s (l.foldl (fun w c => w.authorityRun c false) v).s := by
    intro l
    induction l with
    | nil => exact fun v _ => .refl v.s
    | cons c rest ih =>
      intro v hv
      have hc : v.report ≠ some c := by simp [hv]
      exact (authorityRun_onlyRuns v c false hc).trans (ih _ ((authorityRun_marks v c false hc).1.trans hv))
  exact (pictureChange_pictured w.s w.codeChanges).onlyRuns.trans
    (key _ (w.on (fun s => s.pictureChange w.codeChanges)) hr)

/-- A run leaves the version and route of another carrier, and of a carrier whose version the request has already
incremented (R83). -/
theorem authorityRun_version (w : Work) (c d : Nat) (leaving : Bool) (h : w.report ≠ some c)
    (hd : d ≠ c ∨ d ∈ w.bumped) :
    (w.authorityRun c leaving).s.version d = w.s.version d ∧
      (w.authorityRun c leaving).s.route? d = w.s.route? d := by
  have hcut : ∀ r e, (w.cutBack c r e).s.version d = w.s.version d ∧ (w.cutBack c r e).s.route? d = w.s.route? d := by
    intro r e
    unfold Work.cutBack
    split
    · split
      · next hx =>
        have hne : d ≠ c := by
          rcases hd with hd | hd
          · exact hd
          · intro hdc
            subst hdc
            simp_all
        rw [version_bumpVersion, route?_bumpVersion, if_neg hne, if_neg hne]
        exact ⟨rfl, rfl⟩
      · exact ⟨rfl, rfl⟩
    · exact ⟨rfl, rfl⟩
  unfold Work.authorityRun
  simp only [if_neg h]
  split
  · exact ⟨rfl, rfl⟩
  · next r hr =>
    have hroute : ∀ (v : Work) (f : Authority) (st : CarrierState) (g : Carrier → Carrier),
        ((v.on (fun s => s.routeAuthority f st)).onCarrier c g).s.version d = v.s.version d ∧
        ((v.on (fun s => s.routeAuthority f st)).onCarrier c g).s.route? d = v.s.route? d := by
      intro v f st g
      have hp := (routeAuthority_pictured v.s f st).rest
      constructor
      · show ((v.s.routeAuthority f st).onCarrier c g).version d = _
        rw [State.version_onCarrier, hp]; rfl
      · show ((v.s.routeAuthority f st).onCarrier c g).route? d = _
        rw [State.route?_onCarrier, hp]; rfl
    exact ⟨(hroute _ _ _ _).1.trans (hcut _ _).1, (hroute _ _ _ _).2.trans (hcut _ _).2⟩

/-- The end of such a request leaves the version and route of a carrier whose version the request has incremented. -/
theorem finish_version (w : Work) (hr : w.report = none) (hx : w.reexam = false ∨ w.s.waiting = []) {d : Nat}
    (hd : d ∈ w.bumped) : w.finish.version d = w.s.version d ∧ w.finish.route? d = w.s.route? d := by
  have hw : (if w.reexam then w.reexamine else w) = w := by
    rcases hx with hx | hx
    · simp [hx]
    · unfold Work.reexamine
      simp [hx]
  unfold Work.finish
  simp only [hw]
  have key : ∀ (l : List Nat) (v : Work), v.report = none → d ∈ v.bumped →
      (l.foldl (fun w c => w.authorityRun c false) v).s.version d = v.s.version d ∧
      (l.foldl (fun w c => w.authorityRun c false) v).s.route? d = v.s.route? d := by
    intro l
    induction l with
    | nil => exact fun v _ _ => ⟨rfl, rfl⟩
    | cons c rest ih =>
      intro v hv hb
      have hc : v.report ≠ some c := by simp [hv]
      have h1 := authorityRun_version v c d false hc (Or.inr hb)
      have h2 := authorityRun_marks v c false hc
      have h3 := ih (v.authorityRun c false) (h2.1.trans hv) (h2.2 ▸ hb)
      exact ⟨h3.1.trans h1.1, h3.2.trans h1.2⟩
  have hp := (pictureChange_pictured w.s w.codeChanges).rest
  have h := key ((w.on (fun s => s.pictureChange w.codeChanges)).s.carriers.keys.filter
    (w.on (fun s => s.pictureChange w.codeChanges)).concerns) (w.on (fun s => s.pictureChange w.codeChanges)) hr hd
  refine ⟨h.1.trans ?_, h.2.trans ?_⟩
  · show (w.s.pictureChange w.codeChanges).version d = _
    rw [hp]; rfl
  · show (w.s.pictureChange w.codeChanges).route? d = _
    rw [hp]; rfl

end Work

/-- A request that re-examines nothing, or finds nothing pending. -/
theorem request_onlyRuns (s : State) (body : Work → Work) (hr : (body (Work.start s none)).report = none)
    (hx : (body (Work.start s none)).reexam = false ∨ (body (Work.start s none)).s.waiting = []) :
    State.OnlyRuns (body (Work.start s none)).s (s.request body) := Work.finish_onlyRuns _ hr hx

end Sys2Proof.Machine
end

