-- ==== Sys2Proof/Laws/Sound.lean ====
section
/-! SUPPORT. The relation in which every shared operation stands to the invariant of the part: what a command may change
without leaving it. -/

namespace Sys2Proof.Machine

/-- A change under which the part stays sound: modes, settings in force and closures stand, the links keep their states
and their soundness, and the pending route list stays within its bound, and empty where it must be. -/
structure Calm (s t : State) : Prop where
  mode : t.mode = s.mode
  recoveryStart : t.recoveryStart = s.recoveryStart
  image : t.image = s.image
  save : t.save = s.save
  dlcClosed : t.dlcClosed = s.dlcClosed
  rlcClosed : t.rlcClosed = s.rlcClosed
  lossSince : t.lossSince = s.lossSince
  up : ∀ l, (t.dlink l).up = (s.dlink l).up
  dispatch : ∀ l, (s.dlink l).Sound → (t.dlink l).Sound
  state : ∀ r, (t.radio r).state = (s.radio r).state
  radios : ∀ r, (s.radio r).Sound → (t.radio r).Sound
  cranes : ∀ k, (s.craneLink k).replies ≤ 16 → (t.craneLink k).replies ≤ 16
  waiting : s.waiting.length ≤ 32 → t.waiting.length ≤ 32
  quiet : s.mode ≠ .active → s.waiting = [] → t.waiting = []
  sorted : s.segs.Sorted → t.segs.Sorted
  berth : s.mode ≠ .config → s.cfg.validate = none → t.cfg.validate = none
  configured : ∀ r, r < 4 → (t.radioCfg r).configured = (s.radioCfg r).configured

/-- Notifications keep a dispatch link sound. -/
theorem DispatchLink.Notified.sound {d e : DispatchLink} (h : DispatchLink.Notified d e) (hd : d.Sound) : e.Sound where
  replies := by rw [h.replies]; exact hd.replies
  notifs := h.bound hd.notifs
  sending := by
    intro ht
    rw [h.tx] at ht
    obtain ⟨x, hx⟩ := h.grows
    intro he
    rw [he] at hx
    exact hd.sending ht (List.append_eq_nil_iff.1 hx).1
  drops := h.drops hd.drops
  down := by rw [h.up, h.replies, h.tx, h.timer]; exact hd.down

/-- What is queued on a radio link keeps it sound. -/
theorem RadioLink.Fed.sound {l m : RadioLink} (h : RadioLink.Fed l m) (hl : l.Sound) : m.Sound := by
  by_cases hs : l.state = .up
  · exact ⟨fun hm => absurd (h.state.trans hs) hm⟩
  · rw [h.down hs]; exact hl

namespace Calm

theorem refl (s : State) : Calm s s :=
  ⟨rfl, rfl, rfl, rfl, rfl, rfl, rfl, fun _ => rfl, fun _ => id, fun _ => rfl, fun _ => id, fun _ => id, id,
    fun _ => id, id, fun _ => id, fun _ _ => rfl⟩

theorem trans {s t u : State} (h : Calm s t) (g : Calm t u) : Calm s u where
  mode := g.mode.trans h.mode
  recoveryStart := g.recoveryStart.trans h.recoveryStart
  image := g.image.trans h.image
  save := g.save.trans h.save
  dlcClosed := g.dlcClosed.trans h.dlcClosed
  rlcClosed := g.rlcClosed.trans h.rlcClosed
  lossSince := g.lossSince.trans h.lossSince
  up l := (g.up l).trans (h.up l)
  dispatch l := g.dispatch l ∘ h.dispatch l
  state r := (g.state r).trans (h.state r)
  radios r := g.radios r ∘ h.radios r
  cranes k := g.cranes k ∘ h.cranes k
  waiting := g.waiting ∘ h.waiting
  quiet hm hw := g.quiet (h.mode ▸ hm) (h.quiet hm hw)
  sorted := g.sorted ∘ h.sorted
  berth hm hv := g.berth (h.mode ▸ hm) (h.berth hm hv)
  configured r hr := (g.configured r hr).trans (h.configured r hr)

theorem foldl {α : Type} (f : State → α → State) (h : ∀ s a, Calm s (f s a)) (l : List α) (s : State) :
    Calm s (l.foldl f s) := by
  induction l generalizing s with
  | nil => exact .refl s
  | cons a rest ih => exact (h s a).trans (ih _)

end Calm

/-- Everything within the frame of a request keeps the part sound. -/
theorem Within.calm {s t : State} (h : Within s t) : Calm s t where
  mode := h.mode
  recoveryStart := h.recoveryStart
  image := h.image
  save := h.save
  dlcClosed := h.dlcClosed
  rlcClosed := h.rlcClosed
  lossSince := h.lossSince
  up l := (h.dlinks l).up
  dispatch l := (h.dlinks l).sound
  state r := (h.radios r).state
  radios r := (h.radios r).sound
  cranes k hk := Nat.le_trans (h.craneLinks k).replies hk
  waiting hw := Nat.le_trans h.waiting hw
  quiet _ hw := List.length_eq_zero_iff.1 (Nat.le_zero.1 (by simpa [hw] using h.waiting))
  sorted := h.sorted
  berth _ hv := by rw [h.cfg]; exact hv
  configured r _ := by unfold State.radioCfg; rw [h.cfg]

/-- A sound part stays sound under such a change. -/
theorem Calm.bounded {s t : State} (h : Calm s t) (hs : s.Bounded) : t.Bounded where
  dispatch l := h.dispatch l (hs.dispatch l)
  radios r := h.radios r (hs.radios r)
  links r hr := by rw [h.state, h.configured r hr]; exact hs.links r hr
  cranes k := h.cranes k (hs.cranes k)
  waiting := h.waiting hs.waiting
  loss := by rw [h.lossSince, h.up, h.up]; exact hs.loss
  dlc := by rw [h.dlcClosed, h.lossSince]; exact hs.dlc
  rlc := by
    rw [h.rlcClosed, hs.rlc]
    unfold State.radioLoss
    congr 1
    funext r
    rw [h.state]
  save := by rw [h.save, h.image]; exact hs.save
  recovery := by rw [h.recoveryStart, h.mode]; exact hs.recovery
  sorted := h.sorted hs.sorted
  quiet hm := h.quiet (h.mode ▸ hm) (hs.quiet (h.mode ▸ hm))
  berth hm := h.berth (h.mode ▸ hm) (hs.berth (h.mode ▸ hm))

/-! ## The links -/

theorem onDlink_calm (s : State) (l : DLink) (f : DispatchLink → DispatchLink) (hu : ∀ d, (f d).up = d.up)
    (hf : (s.dlink l).Sound → (f (s.dlink l)).Sound) : Calm s (s.onDlink l f) := by
  refine { Calm.refl s with up := fun m => ?_, dispatch := fun m hm => ?_ }
  · rw [State.dlink_onDlink]
    split
    · next h => rw [hu, h]
    · rfl
  · rw [State.dlink_onDlink]
    split
    · next h => subst h; exact hf hm
    · exact hm

theorem onRadio_calm (s : State) (r : Nat) (f : RadioLink → RadioLink) (hu : (f (s.radio r)).state = (s.radio r).state)
    (hf : (s.radio r).Sound → (f (s.radio r)).Sound) : Calm s (s.onRadio r f) := by
  refine { Calm.refl s with state := fun m => ?_, radios := fun m hm => ?_ }
  · rw [State.radio_onRadio]
    split
    · next h => rw [hu, h]
    · rfl
  · rw [State.radio_onRadio]
    split
    · next h => subst h; exact hf hm
    · exact hm

theorem onCraneLink_calm (s : State) (k : Nat) (f : CraneLink → CraneLink)
    (hf : (s.craneLink k).replies ≤ 16 → (f (s.craneLink k)).replies ≤ 16) : Calm s (s.onCraneLink k f) := by
  refine { Calm.refl s with cranes := fun m hm => ?_ }
  rw [State.craneLink_onCraneLink]
  split
  · next h => subst h; exact hf hm
  · exact hm

/-- A transmitter that looks for a frame keeps its dispatch link sound. -/
theorem DispatchLink.Sound.transmit {d : DispatchLink} (h : d.Sound) : d.transmit.Sound where
  replies := Nat.le_trans d.transmit_replies_le h.replies
  notifs := by rw [d.transmit_notifs]; exact h.notifs
  sending := by
    intro ht
    rw [d.transmit_notifs]
    unfold DispatchLink.transmit at ht
    split at ht
    · split at ht
      · cases ht
      · split at ht
        · exact h.sending ht
        · next hn => simpa using hn
    · exact h.sending ht
  drops := by
    rw [d.transmit_rest]
    exact h.drops
  down := by
    intro hd
    rw [d.transmit_up] at hd
    rw [DispatchLink.transmit_of_not (Or.inl hd)]
    exact h.down hd

theorem pump_calm (s : State) : Calm s s.pump :=
  (onDlink_calm s .a _ (fun d => d.transmit_up) (fun h => h.transmit)).trans
    (onDlink_calm _ .b _ (fun d => d.transmit_up) (fun h => h.transmit))

theorem offer_calm (s : State) (l : DLink) (e : Notif) : Calm s (s.offer l e) := (offer_pictured s l e).within.calm

theorem post_calm (s : State) (kind : NotifKind) (subject : Subject) (detail : List Val) :
    Calm s (s.post kind subject detail) := (post_within s _ _ _).calm

theorem RadioLink.Sound.transmit {l : RadioLink} (h : l.Sound) : l.transmit.Sound := l.transmit_fed.sound h

/-- Copies (R161) keep the part sound. -/
theorem copyFrame_calm (s : State) (radio : Nat) (f : CopyFrame) : Calm s (s.copyFrame radio f) := by
  have h : ∀ s l, Calm s (State.copyTo s radio f l) := by
    intro s l
    unfold State.copyTo
    simp only
    split
    · exact .refl s
    · exact offer_calm _ _ _
  exact (h s .a).trans (h _ .b)

/-! ## Requests -/

theorem Within.replies {s t : State} (h : Within s t) (l : DLink) : (t.dlink l).replies = (s.dlink l).replies :=
  (h.dlinks l).replies

/-- The arrival of a frame on a dispatch link keeps the part sound. -/
theorem State.Bounded.arrival {s : State} (hs : s.Bounded) (l : DLink) : (s.dispatchArrival l).Bounded := by
  have hl := hs.loss
  have key : ∀ d : DispatchLink, d.Sound → ∀ n, DispatchLink.Sound
      { d with up := true, timer := some n, rx := Receiver.hunting } := fun d h n =>
    ⟨h.replies, h.notifs, h.sending, h.drops, fun hd => by cases hd⟩
  have hsound : ∀ m, ((s.arrived l).dlink m).Sound := by
    intro m
    unfold State.arrived
    rw [State.dlink_onDlink]
    split
    · exact key _ (hs.dispatch l) _
    · exact hs.dispatch m
  have base : ∀ t : State, t.lossSince = none → Within { s.arrived l with lossSince := none, dlcClosed := false } t →
      t.Bounded := by
    intro t hn h
    refine ⟨fun m => (h.dlinks m).sound (hsound m), fun r => (h.radios r).sound (hs.radios r), fun r hr => ?_,
      fun k => Nat.le_trans (h.craneLinks k).replies (hs.cranes k), Nat.le_trans h.waiting hs.waiting, ?_, ?_, ?_, ?_, ?_,
      h.sorted hs.sorted, fun hm => ?_, fun hm => ?_⟩
    · rw [(h.radios r).state]
      unfold State.radioCfg
      rw [h.cfg]
      exact hs.links r hr
    · rw [hn, (h.dlinks .a).up, (h.dlinks .b).up]
      have := dlink_arrived_self s l
      cases l
      · show false = (!((s.arrived .a).dlink .a).up && _)
        rw [this]; rfl
      · show false = (_ && !((s.arrived .b).dlink .b).up)
        rw [this]; simp
    · rw [h.dlcClosed, hn]; rfl
    · rw [h.rlcClosed, h.radioLoss]; exact hs.rlc
    · rw [h.save, h.image]; exact hs.save
    · rw [h.recoveryStart, h.mode]; exact hs.recovery
    · have hw : s.waiting = [] := hs.quiet (h.mode ▸ hm)
      have := h.waiting
      exact List.length_eq_zero_iff.1 (Nat.le_zero.1 (by
        have e : ({ s.arrived l with lossSince := none, dlcClosed := false } : State).waiting = s.waiting := rfl
        rw [e, hw] at this
        exact this))
    · rw [h.cfg]; exact hs.berth (h.mode ▸ hm)
  by_cases h : (s.dlink l).up = true ∨ (s.dlink l.other).up = true
  · rw [dispatchArrival_of_up s l h]
    have hi : s.lossSince.isSome = false := by
      rw [hl]
      cases l <;> rcases h with h | h <;> simp_all [DLink.other]
    have hn : s.lossSince = none := by simpa using hi
    have hd : s.dlcClosed = false := by rw [hs.dlc, hn]; rfl
    refine base _ hn ?_
    have e : ({ s.arrived l with lossSince := none, dlcClosed := false } : State) = s.arrived l := by
      rw [← hn, ← hd]; rfl
    rw [e]
    exact .refl _
  · simp only [not_or, Bool.not_eq_true] at h
    rw [dispatchArrival_of_down s l h.1 h.2]
    have hn : (s.arrived l).lossSince.isSome = true := by
      show s.lossSince.isSome = true
      rw [hl]
      cases l <;> simp_all [DLink.other]
    have hw := regainDispatch_within (s.arrived l) l hn
    exact base _ (by rw [hw.lossSince]) hw

/-- A request on a dispatch link whose owner keeps the part sound keeps it sound, however full the link is. -/
theorem State.Bounded.takeRequest {s : State} (hs : s.Bounded) (l : DLink) (o : Owner)
    (ho : ∀ t : State, t.Bounded → (o t).1.Bounded ∧ (∀ m, ((o t).1.dlink m).replies = (t.dlink m).replies) ∧
      (∀ m, ((o t).1.dlink m).up = (t.dlink m).up)) :
    (s.takeRequest l o).Bounded := by
  have ha := hs.arrival l
  unfold State.takeRequest
  simp only
  split
  · exact (pump_calm _).bounded ((onDlink_calm _ l (fun d => { d with overruns := bump16 d.overruns }) (fun _ => rfl)
      (fun h => ⟨h.replies, h.notifs, h.sending, h.drops, h.down⟩)).bounded ha)
  · next hr =>
    have hg := (onDlink_calm (s.dispatchArrival l) l (fun d => { d with good := bump16 d.good }) (fun _ => rfl)
      (fun h => ⟨h.replies, h.notifs, h.sending, h.drops, h.down⟩)).bounded ha
    have hlen : (((s.dispatchArrival l).onDlink l (fun d => { d with good := bump16 d.good })).dlink l).replies.length
        < 16 := by
      rw [State.dlink_onDlink_self]
      exact Nat.lt_of_not_le hr
    have hup : (((s.dispatchArrival l).onDlink l (fun d => { d with good := bump16 d.good })).dlink l).up = true := by
      rw [State.dlink_onDlink_self]
      exact dispatchArrival_up s l
    revert hg hlen hup
    generalize (s.dispatchArrival l).onDlink l (fun d => { d with good := bump16 d.good }) = v
    intro hg hlen hup
    obtain ⟨h1, h2, h3⟩ := ho v hg
    refine (pump_calm _).bounded ((onDlink_calm (o v).1 l (DispatchLink.enqueue (o v).2) (fun _ => rfl) (fun h => ?_)).bounded h1)
    refine ⟨?_, h.notifs, h.sending, h.drops, fun hd => ?_⟩
    · show (List.length (_ ++ [_])) ≤ 16
      rw [h2, List.length_append]
      exact hlen
    · have : ((o v).1.dlink l).up = false := hd
      rw [h3, hup] at this
      cases this

/-- An owner that stays within the frame of a request. -/
theorem State.Bounded.takeWithin {s : State} (hs : s.Bounded) (l : DLink) (o : Owner) (ho : ∀ t, Within t (o t).1) :
    (s.takeRequest l o).Bounded :=
  hs.takeRequest l o (fun t ht => ⟨(ho t).calm.bounded ht, fun m => (ho t).replies m, fun m => ((ho t).dlinks m).up⟩)

/-- An owner that keeps the dispatch links as they are. -/
theorem State.Bounded.takeCalm {s : State} (hs : s.Bounded) (l : DLink) (o : Owner) (ho : ∀ t, Calm t (o t).1)
    (hr : ∀ t m, ((o t).1.dlink m).replies = (t.dlink m).replies) : (s.takeRequest l o).Bounded :=
  hs.takeRequest l o (fun t ht => ⟨(ho t).bounded ht, hr t, (ho t).up⟩)

end Sys2Proof.Machine
end

