-- ==== Sys2Proof/Laws/Work.lean ====
section
/-! SUPPORT. Requests in progress (R21): what writing segment records does to the records, to the rest of the part, and
to the marks that the end of the request acts on. -/

namespace Sys2Proof.Machine.Work

/-! ## One record -/

theorem seg_setSeg (w : Work) (i j : Nat) (r : SegDyn) : (w.setSeg i r).s.seg j = if j = i then r else w.s.seg j := by
  unfold Work.setSeg
  simp only
  split
  · next h =>
    split
    · next hj => rw [hj, h]
    · rfl
  · exact State.seg_putSeg i j r

theorem seg_onSeg (w : Work) (i j : Nat) (f : SegDyn → SegDyn) :
    (w.onSeg i f).s.seg j = if j = i then f (w.s.seg j) else w.s.seg j := by
  unfold Work.onSeg
  rw [seg_setSeg]
  split
  · next h => rw [h]
  · rfl

/-- Writing a record changes the table of the records and nothing else of the part. -/
theorem setSeg_rest (w : Work) (i : Nat) (r : SegDyn) :
    (w.setSeg i r).s = { w.s with segs := (w.setSeg i r).s.segs } := by
  unfold Work.setSeg
  simp only
  split <;> rfl

/-- Writing a record touches none of the marks but the touched segments and the call for re-examination. -/
theorem setSeg_marks (w : Work) (i : Nat) (r : SegDyn) :
    (w.setSeg i r).report = w.report ∧ (w.setSeg i r).bumped = w.bumped ∧ (w.setSeg i r).settled = w.settled ∧
      (w.setSeg i r).runs = w.runs ∧ (w.setSeg i r).before = w.before := by
  unfold Work.setSeg
  simp only
  split <;> exact ⟨rfl, rfl, rfl, rfl, rfl⟩

theorem setSeg_reexam (w : Work) (i : Nat) (r : SegDyn) (h : SegDyn.callsFor (w.s.seg i) r = false) :
    (w.setSeg i r).reexam = w.reexam := by
  unfold Work.setSeg
  simp only
  split
  · rfl
  · simp [h]

/-! ## A list of records -/

theorem onSegs_nil (w : Work) (f : SegDyn → SegDyn) : w.onSegs [] f = w := rfl

theorem onSegs_cons (w : Work) (i : Nat) (ids : List Nat) (f : SegDyn → SegDyn) :
    w.onSegs (i :: ids) f = (w.onSeg i f).onSegs ids f := rfl

/-- A record that is not named stands. -/
theorem seg_onSegs_of_not_mem (w : Work) (ids : List Nat) (f : SegDyn → SegDyn) {j : Nat} (h : j ∉ ids) :
    (w.onSegs ids f).s.seg j = w.s.seg j := by
  induction ids generalizing w with
  | nil => rfl
  | cons i rest ih =>
    simp only [List.mem_cons, not_or] at h
    rw [onSegs_cons, ih _ h.2, seg_onSeg, if_neg h.1]

/-- A change that made twice is made once: a record that is named is changed once, however often it is named. -/
theorem seg_onSegs (w : Work) (ids : List Nat) (f : SegDyn → SegDyn) (hf : ∀ r, f (f r) = f r) (j : Nat) :
    (w.onSegs ids f).s.seg j = if j ∈ ids then f (w.s.seg j) else w.s.seg j := by
  induction ids generalizing w with
  | nil => rfl
  | cons i rest ih =>
    rw [onSegs_cons, ih, seg_onSeg]
    by_cases hj : j = i
    · subst hj
      by_cases hr : j ∈ rest <;> simp [hr, hf]
    · by_cases hr : j ∈ rest <;> simp [hr, hj]

theorem onSegs_rest (w : Work) (ids : List Nat) (f : SegDyn → SegDyn) :
    (w.onSegs ids f).s = { w.s with segs := (w.onSegs ids f).s.segs } := by
  induction ids generalizing w with
  | nil => rfl
  | cons i rest ih =>
    rw [onSegs_cons, ih]
    have h := setSeg_rest w i (f (w.s.seg i))
    unfold Work.onSeg
    generalize ((w.setSeg i (f (w.s.seg i))).onSegs rest f).s.segs = x
    rw [h]

theorem onSegs_marks (w : Work) (ids : List Nat) (f : SegDyn → SegDyn) :
    (w.onSegs ids f).report = w.report ∧ (w.onSegs ids f).bumped = w.bumped ∧
      (w.onSegs ids f).settled = w.settled ∧ (w.onSegs ids f).runs = w.runs ∧ (w.onSegs ids f).before = w.before := by
  induction ids generalizing w with
  | nil => exact ⟨rfl, rfl, rfl, rfl, rfl⟩
  | cons i rest ih =>
    obtain ⟨h1, h2, h3, h4, h5⟩ := ih (w.onSeg i f)
    obtain ⟨g1, g2, g3, g4, g5⟩ := setSeg_marks w i (f (w.s.seg i))
    exact ⟨h1.trans g1, h2.trans g2, h3.trans g3, h4.trans g4, h5.trans g5⟩

/-- A change that never calls for re-examination leaves the call as it was. -/
theorem onSegs_reexam (w : Work) (ids : List Nat) (f : SegDyn → SegDyn) (hf : ∀ r, SegDyn.callsFor r (f r) = false) :
    (w.onSegs ids f).reexam = w.reexam := by
  induction ids generalizing w with
  | nil => rfl
  | cons i rest ih =>
    rw [onSegs_cons, ih]
    exact setSeg_reexam w i _ (hf _)

/-! ## The changes of a record -/

theorem hold_idem (p : Party) (k : HoldKind) (r : SegDyn) : (r.hold_ p k).hold_ p k = r.hold_ p k := rfl

theorem release_idem (r : SegDyn) : r.release.release = r.release := rfl

theorem freeze_idem (r : SegDyn) : r.freeze.freeze = r.freeze := by
  obtain ⟨hold, lock, oos, intruder⟩ := r
  cases hold <;> rfl

/-- A grant of a segment never calls for re-examination. -/
theorem hold_calm (p : Party) (k : HoldKind) (r : SegDyn) : SegDyn.callsFor r (r.hold_ p k) = false := by
  simp [SegDyn.callsFor, SegDyn.hold_, SegDyn.isFree, SegDyn.inService, SegDyn.isLocked]

theorem freeze_calm (r : SegDyn) : SegDyn.callsFor r r.freeze = false := by
  cases r with
  | mk hold lock oos intruder =>
    cases hold <;> simp [SegDyn.callsFor, SegDyn.freeze, SegDyn.isFree, SegDyn.inService, SegDyn.isLocked]

theorem addLock_calm (k : Nat) (rs : Reasons) (r : SegDyn) : SegDyn.callsFor r (r.addLock k rs) = false := by
  have : ((r.lock.put k ((r.reasonsOf k).join rs)).rows.isEmpty) = false := by
    cases h : r.lock.rows with
    | nil => simp [Table.put, h, putRow]
    | cons p rest =>
      simp only [Table.put, h]
      unfold putRow
      split
      · rfl
      · split <;> rfl
  by_cases hf : r.hold = .free <;>
    simp [SegDyn.callsFor, SegDyn.addLock, SegDyn.isFree, SegDyn.inService, SegDyn.isLocked, this, hf]

theorem mark_calm (p : Party) (r : SegDyn) : SegDyn.callsFor r (r.mark p) = false := by
  unfold SegDyn.mark
  split
  · simp [SegDyn.callsFor]
  · next h =>
    simp [SegDyn.callsFor, SegDyn.isFree, SegDyn.inService, SegDyn.isLocked]

end Sys2Proof.Machine.Work
end

