-- ==== Sys2Proof/Tests/Slice0.lean ====
section
/-! SUPPORT. Tests: the checks of WellFormed, frames written out byte by byte from the layouts of R170 to R175, single
steps with results worked out from the manual, and for every statement with hypotheses a concrete state and operands
that meet them, clause by clause. -/

-- One theorem at a time: many kernel evaluations at once need more threads than the check grants.
set_option Elab.async false

namespace Sys2Proof.Tests

open Sys2Proof Sys2Proof.Machine

/-! ## States to test on -/

/-- A berth of 3 lanes of 4 bays: every segment usable, segment 0 a gate, segment 11 marked for DLC, 10 for RLC. -/
def grid : Grid := ⟨3, 4, ⟨(List.range 12).map (fun i => (i,
  ⟨true, if i = 0 then .gate else .lane, 1000, 300, true, decide (i = 11), decide (i = 10)⟩))⟩⟩

/-- The berth with carrier 5 of class 0 in the roster and crane 0 present over lane 1, its legs in lanes 0 and 2. -/
def berth : Settings := { Settings.default with
  grid := grid
  roster := ⟨[(5, 0)]⟩
  cranes := (Table.filled 8 CraneConfig.default).put 0 { CraneConfig.default with present := true } }

/-- A dispatch link that is UP with nothing waiting. -/
def upLink : DispatchLink := { DispatchLink.fresh with up := true, timer := some 1000 }

/-- The berth ACTIVE, every dispatch and radio link UP, carrier 5 and crane 0 OFFLINE. -/
def quay : State := { State.reset with
  mode := .active
  cfg := berth
  segs := Table.filled 12 SegDyn.fresh
  dlcClosed := false
  rlcClosed := false
  lossSince := none
  dispatch := Table.filled 2 upLink
  radios := Table.filled 4 { RadioLink.fresh .up with timer := some 300 }
  carriers := ⟨[(5, Carrier.fresh ClassVals.default)]⟩ }

/-- The berth in CONFIG. -/
def bench : State := { quay with mode := .config }

/-- A state with another hold on one segment. -/
def hold (s : State) (i : Nat) (h : Hold) : State := s.putSeg i { s.seg i with hold := h }

/-- A state with another record of carrier 5. -/
def five (s : State) (f : Carrier → Carrier) : State := s.putCarrier 5 (f (Carrier.fresh ClassVals.default))

/-- Carrier 5 IDLE at rest in segment 5, past the start of its acceptance window. -/
def idle : State := five (hold quay 5 (.held (.carrier 5) .standing)) (fun r => { r with
  state := .idle, timer := some 100, front := some 5, frontRem := 500, rear := some 5, lastSeq := some 7 })

/-- The route of `routed`. -/
def route : Route := ⟨[5, 6, 7], 700, 0, 0, 1, 9, .a⟩

/-- Carrier 5 AUTHORIZED at speed 100 in segment 5 on the route 5, 6, 7. -/
def routed : State :=
  { five (hold (hold (hold quay 5 (.held (.carrier 5) .route)) 6 (.held (.carrier 5) .route)) 7
      (.held (.carrier 5) .route)) (fun r => { r with
        state := .authorized, timer := some 100, front := some 5, frontRem := 500, rear := some 5, speed := 100
        lastSeq := some 7 }) with
    routes := ⟨[(5, route)]⟩, versions := ⟨[(5, 1)]⟩ }

/-- A pending entry of carrier 5 from segment 5. -/
def entry : PendingEntry := ⟨5, [5, 6], 700, 9, .a, 0, 20000, 6⟩

/-- Carrier 5 IDLE with a pending entry, segment 6 held by crane 0. -/
def queued : State := { hold idle 6 (.held (.crane 0) .leg) with waiting := [entry] }

/-- Carrier 5 LOST with segments 5 and 6 FROZEN, seen at rest in 5. -/
def lost : State := five (hold (hold quay 5 (.frozen (.carrier 5) .route)) 6 (.frozen (.carrier 5) .route))
  (fun r => { r with
    state := .lost, front := some 5, rear := some 5, lostSince := some 0, lastSeq := some 7
    sighting := some ⟨some 5, 500, some 5, 0, ⟨false, false, false⟩, 0⟩ })

/-- Carrier 5 in EMERGENCY at rest in segment 5, holding 5 and 6. -/
def stopped : State := five (hold (hold quay 5 (.held (.carrier 5) .route)) 6 (.held (.carrier 5) .route))
  (fun r => { r with
    state := .emergency, timer := some 100, front := some 5, rear := some 5, cause := some .overspeed
    lastSeq := some 7 })

/-- Crane 0 STANDING at bay 0 with its hoist up, its legs in segments 0 and 8; its slot 0 is segment 4. -/
def standing : State :=
  (hold (hold quay 0 (.held (.crane 0) .leg)) 8 (.held (.crane 0) .leg)).onCrane 0 (fun c => { c with
    state := .standing, bay := some 0, filtered := .up, timer := some 500, lastSeq := some 1 })

/-- A claim of crane 0 on its slot 0. -/
def claim : Claim := ⟨0, .granted, 0, 20000, false⟩

/-- Crane 0 with that claim, CLAIM in the lock of segment 4. -/
def claimed : State :=
  (standing.putSeg 4 { SegDyn.fresh with lock := ⟨[(0, ⟨true, false, false, false⟩)]⟩ }).onCrane 0 (fun c =>
    { c with claim := some claim })

/-! ## What is so of every segment -/

/-- What is so of every row of the dynamic records and of a fresh record is so of every segment. -/
theorem segs_all {s : State} (P : Nat → SegDyn → Prop) (h : ∀ r ∈ s.segs.rows, P r.1 r.2)
    (h' : ∀ i, P i SegDyn.fresh) (i : Nat) : P i (s.seg i) := by
  unfold State.seg Table.get
  cases e : s.segs.get? i with
  | none => exact h' i
  | some r => exact h _ (mem_of_findRow e)

/-- The segments with a property that a fresh record lacks, from the rows. -/
theorem segs_iff {s : State} (P : SegDyn → Prop) (ids : List Nat)
    (hk : ∀ i ∈ ids, i ∈ s.segs.keys) (hf : ¬ P SegDyn.fresh) (h : ∀ r ∈ s.segs.rows, r.1 ∈ ids ↔ P r.2) (i : Nat) :
    i ∈ ids ↔ P (s.seg i) := by
  unfold State.seg Table.get
  cases e : s.segs.get? i with
  | none =>
    constructor
    · intro hi
      have := (Table.mem_keys i).1 (hk i hi)
      rw [e] at this
      cases this
    · intro hp
      exact absurd hp hf
  | some r => exact h _ (mem_of_findRow e)

/-- Held by a party, whatever the kind. -/
theorem held_iff (r : SegDyn) (p : Party) : (∃ k, r.hold = .held p k) ↔ r.heldBy p = true := by
  unfold SegDyn.heldBy
  cases r.hold <;> simp

/-- Frozen under a party, whatever the kind. -/
theorem frozen_iff (r : SegDyn) (p : Party) : (∃ k, r.hold = .frozen p k) ↔ r.frozenBy p = true := by
  unfold SegDyn.frozenBy
  cases r.hold <;> simp

/-! ## Ill-formed commands are refused, check by check -/

/-- A frame has a one-byte kind and 4 to 250 payload bytes (R170). -/
theorem test_wf_frames :
    (.dispatchFrame .a 255 (List.replicate 250 0) : Instr).wf = true ∧
    [.dispatchFrame .a 256 (List.replicate 4 0),
      .dispatchFrame .a 32 (List.replicate 3 0),
      .dispatchFrame .a 32 (List.replicate 251 0),
      .radioUnusableFrame 0 256 (List.replicate 4 0),
      .radioUnusableFrame 0 1 (List.replicate 3 0),
      .radioUnusableFrame 0 1 (List.replicate 251 0),
      .craneUnusableFrame 0 256 (List.replicate 4 0),
      .craneUnusableFrame 0 16 (List.replicate 3 0),
      .craneUnusableFrame 0 16 (List.replicate 251 0)].all (fun i => !Instr.wf i) = true := by
  decide +kernel

/-- Every operand of the short commands fits its field (R175), and the carrier of an own event is 0 to 95. -/
theorem test_wf_scalars :
    (.setDispatch .a 65535 65535 : Instr).wf = true ∧
    [.setDispatch .a 65536 0,
      .setDispatch .b 0 65536,
      .queryLink .a 256,
      .setGrid .a 256 1,
      .setGrid .a 1 256,
      .routeCancel .a 65536,
      .pendingCancel .a 65536,
      .querySegment .a 65536,
      .registerCarrier .a 65536 0,
      .registerCarrier .a 0 256,
      .deregisterCarrier .a 65536,
      .recoverCarrier .a 65536,
      .releaseFrozen .a 65536,
      .clearEmergency .a 65536,
      .queryCarrier .a 65536,
      .clearCrane .a 65536,
      .queryCrane .a 65536,
      .activate .a 256,
      .lowerRequest 0 256,
      .gantryRequest 7 256,
      .learningEntryExpiry 96,
      .supervisionTimerExpiry 96,
      .graceExpiry 96,
      .pendingExpired 96].all (fun i => !Instr.wf i) = true := by
  decide

/-- The fields of SET_SEGMENT fit their bytes (R175). -/
theorem test_wf_set_segment :
    (.setSegment .a ⟨65535, 255, 255, 255, 65535, 65535, 255, 255⟩ : Instr).wf = true ∧
    [.setSegment .a ⟨65536, 0, 0, 0, 0, 0, 0, 0⟩,
      .setSegment .a ⟨0, 256, 0, 0, 0, 0, 0, 0⟩,
      .setSegment .a ⟨0, 0, 256, 0, 0, 0, 0, 0⟩,
      .setSegment .a ⟨0, 0, 0, 256, 0, 0, 0, 0⟩,
      .setSegment .a ⟨0, 0, 0, 0, 65536, 0, 0, 0⟩,
      .setSegment .a ⟨0, 0, 0, 0, 0, 65536, 0, 0⟩,
      .setSegment .a ⟨0, 0, 0, 0, 0, 0, 256, 0⟩,
      .setSegment .a ⟨0, 0, 0, 0, 0, 0, 0, 256⟩].all (fun i => !Instr.wf i) = true := by
  decide

/-- The fields of ROUTE_REQUEST and ROUTE_EXTEND fit their bytes, their lists a payload of 250 (R175). -/
theorem test_wf_routes :
    (.routeRequest .a ⟨65535, 65535, 255, 65535, 65535, List.replicate 120 65535⟩ : Instr).wf = true ∧
    [.routeRequest .a ⟨65536, 0, 0, 0, 0, []⟩,
      .routeRequest .a ⟨0, 65536, 0, 0, 0, []⟩,
      .routeRequest .a ⟨0, 0, 256, 0, 0, []⟩,
      .routeRequest .a ⟨0, 0, 0, 65536, 0, []⟩,
      .routeRequest .a ⟨0, 0, 0, 0, 65536, []⟩,
      .routeRequest .a ⟨0, 0, 0, 0, 0, [65536]⟩,
      .routeRequest .a ⟨0, 0, 0, 0, 0, List.replicate 121 0⟩,
      .routeExtend .a 65536 0 [],
      .routeExtend .a 0 65536 [],
      .routeExtend .a 0 0 [65536],
      .routeExtend .a 0 0 (List.replicate 123 0)].all (fun i => !Instr.wf i) = true := by
  decide +kernel

/-- The values of a rectangle fit their bytes (R175). -/
theorem test_wf_rectangles :
    (.segmentBlock .a ⟨255, 255, 255, 255⟩ : Instr).wf = true ∧
    [.segmentBlock .a ⟨256, 0, 0, 0⟩,
      .segmentBlock .a ⟨0, 256, 0, 0⟩,
      .segmentBlock .a ⟨0, 0, 256, 0⟩,
      .segmentBlock .a ⟨0, 0, 0, 256⟩,
      .segmentUnblock .a ⟨256, 0, 0, 0⟩,
      .segmentUnblock .a ⟨0, 256, 0, 0⟩,
      .segmentUnblock .a ⟨0, 0, 256, 0⟩,
      .segmentUnblock .a ⟨0, 0, 0, 256⟩].all (fun i => !Instr.wf i) = true := by
  decide

/-- The fields of SET_CLASS fit their bytes (R175). -/
theorem test_wf_set_class :
    (.setClass .a ⟨255, 65535, 65535, 65535, 65535, 65535, 255, 65535, 255, 255, 255⟩ : Instr).wf = true ∧
    [.setClass .a ⟨256, 0, 0, 0, 0, 0, 0, 0, 0, 0, 0⟩,
      .setClass .a ⟨0, 65536, 0, 0, 0, 0, 0, 0, 0, 0, 0⟩,
      .setClass .a ⟨0, 0, 65536, 0, 0, 0, 0, 0, 0, 0, 0⟩,
      .setClass .a ⟨0, 0, 0, 65536, 0, 0, 0, 0, 0, 0, 0⟩,
      .setClass .a ⟨0, 0, 0, 0, 65536, 0, 0, 0, 0, 0, 0⟩,
      .setClass .a ⟨0, 0, 0, 0, 0, 65536, 0, 0, 0, 0, 0⟩,
      .setClass .a ⟨0, 0, 0, 0, 0, 0, 256, 0, 0, 0, 0⟩,
      .setClass .a ⟨0, 0, 0, 0, 0, 0, 0, 65536, 0, 0, 0⟩,
      .setClass .a ⟨0, 0, 0, 0, 0, 0, 0, 0, 256, 0, 0⟩,
      .setClass .a ⟨0, 0, 0, 0, 0, 0, 0, 0, 0, 256, 0⟩,
      .setClass .a ⟨0, 0, 0, 0, 0, 0, 0, 0, 0, 0, 256⟩].all (fun i => !Instr.wf i) = true := by
  decide

/-- The fields of SET_CRANE fit their bytes, and the selector 1 is the other command (R94, R175). -/
theorem test_wf_set_crane :
    (.setCraneOperating .a 65535 ⟨255, 65535, 65535, 255, 255, 255, 255, 65535⟩ : Instr).wf = true ∧
    [.setCrane .a 65536 0 ⟨0, 0, 0, 0, 0, 0, 0, 0⟩ ⟨0, 0, 0, 0, 0, 0, 0, 0⟩,
      .setCrane .a 0 256 ⟨0, 0, 0, 0, 0, 0, 0, 0⟩ ⟨0, 0, 0, 0, 0, 0, 0, 0⟩,
      .setCrane .a 0 1 ⟨0, 0, 0, 0, 0, 0, 0, 0⟩ ⟨0, 0, 0, 0, 0, 0, 0, 0⟩,
      .setCrane .a 0 0 ⟨256, 0, 0, 0, 0, 0, 0, 0⟩ ⟨0, 0, 0, 0, 0, 0, 0, 0⟩,
      .setCrane .a 0 0 ⟨0, 256, 0, 0, 0, 0, 0, 0⟩ ⟨0, 0, 0, 0, 0, 0, 0, 0⟩,
      .setCrane .a 0 0 ⟨0, 0, 256, 0, 0, 0, 0, 0⟩ ⟨0, 0, 0, 0, 0, 0, 0, 0⟩,
      .setCrane .a 0 0 ⟨0, 0, 0, 256, 0, 0, 0, 0⟩ ⟨0, 0, 0, 0, 0, 0, 0, 0⟩,
      .setCrane .a 0 0 ⟨0, 0, 0, 0, 256, 0, 0, 0⟩ ⟨0, 0, 0, 0, 0, 0, 0, 0⟩,
      .setCrane .a 0 0 ⟨0, 0, 0, 0, 0, 256, 0, 0⟩ ⟨0, 0, 0, 0, 0, 0, 0, 0⟩,
      .setCrane .a 0 0 ⟨0, 0, 0, 0, 0, 0, 256, 0⟩ ⟨0, 0, 0, 0, 0, 0, 0, 0⟩,
      .setCrane .a 0 0 ⟨0, 0, 0, 0, 0, 0, 0, 256⟩ ⟨0, 0, 0, 0, 0, 0, 0, 0⟩,
      .setCrane .a 0 0 ⟨0, 0, 0, 0, 0, 0, 0, 0⟩ ⟨256, 0, 0, 0, 0, 0, 0, 0⟩,
      .setCrane .a 0 0 ⟨0, 0, 0, 0, 0, 0, 0, 0⟩ ⟨0, 65536, 0, 0, 0, 0, 0, 0⟩,
      .setCrane .a 0 0 ⟨0, 0, 0, 0, 0, 0, 0, 0⟩ ⟨0, 0, 65536, 0, 0, 0, 0, 0⟩,
      .setCrane .a 0 0 ⟨0, 0, 0, 0, 0, 0, 0, 0⟩ ⟨0, 0, 0, 256, 0, 0, 0, 0⟩,
      .setCrane .a 0 0 ⟨0, 0, 0, 0, 0, 0, 0, 0⟩ ⟨0, 0, 0, 0, 256, 0, 0, 0⟩,
      .setCrane .a 0 0 ⟨0, 0, 0, 0, 0, 0, 0, 0⟩ ⟨0, 0, 0, 0, 0, 256, 0, 0⟩,
      .setCrane .a 0 0 ⟨0, 0, 0, 0, 0, 0, 0, 0⟩ ⟨0, 0, 0, 0, 0, 0, 256, 0⟩,
      .setCrane .a 0 0 ⟨0, 0, 0, 0, 0, 0, 0, 0⟩ ⟨0, 0, 0, 0, 0, 0, 0, 65536⟩,
      .setCraneOperating .a 65536 ⟨0, 0, 0, 0, 0, 0, 0, 0⟩,
      .setCraneOperating .a 0 ⟨256, 0, 0, 0, 0, 0, 0, 0⟩,
      .setCraneOperating .a 0 ⟨0, 65536, 0, 0, 0, 0, 0, 0⟩,
      .setCraneOperating .a 0 ⟨0, 0, 65536, 0, 0, 0, 0, 0⟩,
      .setCraneOperating .a 0 ⟨0, 0, 0, 256, 0, 0, 0, 0⟩,
      .setCraneOperating .a 0 ⟨0, 0, 0, 0, 256, 0, 0, 0⟩,
      .setCraneOperating .a 0 ⟨0, 0, 0, 0, 0, 256, 0, 0⟩,
      .setCraneOperating .a 0 ⟨0, 0, 0, 0, 0, 0, 256, 0⟩,
      .setCraneOperating .a 0 ⟨0, 0, 0, 0, 0, 0, 0, 65536⟩].all (fun i => !Instr.wf i) = true := by
  decide

/-- The fields of SET_RADIO fit their bytes (R175). -/
theorem test_wf_set_radio :
    (.setRadio .a ⟨255, ⟨255, 65535⟩, ⟨255, 65535⟩, ⟨255, 65535⟩, ⟨255, 65535⟩⟩ : Instr).wf = true ∧
    [.setRadio .a ⟨256, ⟨0, 0⟩, ⟨0, 0⟩, ⟨0, 0⟩, ⟨0, 0⟩⟩,
      .setRadio .a ⟨0, ⟨256, 0⟩, ⟨0, 0⟩, ⟨0, 0⟩, ⟨0, 0⟩⟩,
      .setRadio .a ⟨0, ⟨0, 65536⟩, ⟨0, 0⟩, ⟨0, 0⟩, ⟨0, 0⟩⟩,
      .setRadio .a ⟨0, ⟨0, 0⟩, ⟨256, 0⟩, ⟨0, 0⟩, ⟨0, 0⟩⟩,
      .setRadio .a ⟨0, ⟨0, 0⟩, ⟨0, 65536⟩, ⟨0, 0⟩, ⟨0, 0⟩⟩,
      .setRadio .a ⟨0, ⟨0, 0⟩, ⟨0, 0⟩, ⟨256, 0⟩, ⟨0, 0⟩⟩,
      .setRadio .a ⟨0, ⟨0, 0⟩, ⟨0, 0⟩, ⟨0, 65536⟩, ⟨0, 0⟩⟩,
      .setRadio .a ⟨0, ⟨0, 0⟩, ⟨0, 0⟩, ⟨0, 0⟩, ⟨256, 0⟩⟩,
      .setRadio .a ⟨0, ⟨0, 0⟩, ⟨0, 0⟩, ⟨0, 0⟩, ⟨0, 65536⟩⟩].all (fun i => !Instr.wf i) = true := by
  decide

/-- The fields of BROADCAST_CONFIG fit their bytes (R175). -/
theorem test_wf_broadcast_config :
    (.broadcastConfig .a ⟨255, 255, 255, 255, 255, 65535, 255⟩ : Instr).wf = true ∧
    [.broadcastConfig .a ⟨256, 0, 0, 0, 0, 0, 0⟩,
      .broadcastConfig .a ⟨0, 256, 0, 0, 0, 0, 0⟩,
      .broadcastConfig .a ⟨0, 0, 256, 0, 0, 0, 0⟩,
      .broadcastConfig .a ⟨0, 0, 0, 256, 0, 0, 0⟩,
      .broadcastConfig .a ⟨0, 0, 0, 0, 256, 0, 0⟩,
      .broadcastConfig .a ⟨0, 0, 0, 0, 0, 65536, 0⟩,
      .broadcastConfig .a ⟨0, 0, 0, 0, 0, 0, 256⟩].all (fun i => !Instr.wf i) = true := by
  decide

/-- The fields of SET_COPY_RULE fit their bytes (R175). -/
theorem test_wf_set_copy_rule :
    (.setCopyRule .a ⟨255, 255, 255, 255, 255, 255, 255⟩ : Instr).wf = true ∧
    [.setCopyRule .a ⟨256, 0, 0, 0, 0, 0, 0⟩,
      .setCopyRule .a ⟨0, 256, 0, 0, 0, 0, 0⟩,
      .setCopyRule .a ⟨0, 0, 256, 0, 0, 0, 0⟩,
      .setCopyRule .a ⟨0, 0, 0, 256, 0, 0, 0⟩,
      .setCopyRule .a ⟨0, 0, 0, 0, 256, 0, 0⟩,
      .setCopyRule .a ⟨0, 0, 0, 0, 0, 256, 0⟩,
      .setCopyRule .a ⟨0, 0, 0, 0, 0, 0, 256⟩].all (fun i => !Instr.wf i) = true := by
  decide

/-- The fields of POSITION_REPORT fit their bytes (R174). -/
theorem test_wf_position_report :
    (.positionReport 0 ⟨65535, 255, 65535, 65535, 65535, 65535, 255⟩ : Instr).wf = true ∧
    [.positionReport 0 ⟨65536, 0, 0, 0, 0, 0, 0⟩,
      .positionReport 0 ⟨0, 256, 0, 0, 0, 0, 0⟩,
      .positionReport 0 ⟨0, 0, 65536, 0, 0, 0, 0⟩,
      .positionReport 0 ⟨0, 0, 0, 65536, 0, 0, 0⟩,
      .positionReport 0 ⟨0, 0, 0, 0, 65536, 0, 0⟩,
      .positionReport 0 ⟨0, 0, 0, 0, 0, 65536, 0⟩,
      .positionReport 0 ⟨0, 0, 0, 0, 0, 0, 256⟩].all (fun i => !Instr.wf i) = true := by
  decide

/-- The fields of CARRIER_EVENT fit their bytes, at most 32 of them detail (R124, R175). -/
theorem test_wf_carrier_event :
    (.carrierEvent 3 ⟨65535, 255, 255, List.replicate 32 0⟩ : Instr).wf = true ∧
    [.carrierEvent 0 ⟨65536, 0, 0, []⟩,
      .carrierEvent 0 ⟨0, 256, 0, []⟩,
      .carrierEvent 0 ⟨0, 0, 256, []⟩,
      .carrierEvent 0 ⟨0, 0, 0, List.replicate 33 0⟩].all (fun i => !Instr.wf i) = true := by
  decide

/-- The fields of CRANE_REPORT fit their bytes (R174). -/
theorem test_wf_crane_report :
    (.craneReport 0 ⟨255, 255, 255, 65535, 255⟩ : Instr).wf = true ∧
    [.craneReport 0 ⟨256, 0, 0, 0, 0⟩,
      .craneReport 0 ⟨0, 256, 0, 0, 0⟩,
      .craneReport 0 ⟨0, 0, 256, 0, 0⟩,
      .craneReport 0 ⟨0, 0, 0, 65536, 0⟩,
      .craneReport 0 ⟨0, 0, 0, 0, 256⟩].all (fun i => !Instr.wf i) = true := by
  decide

/-! ## Frames written out byte by byte (R170 to R175) -/

/-- The check value of the CRC with polynomial 0x1021 and initial value 0xFFFF over the nine digits is 0x29B1: the
value that the catalogues of CRC parameters give. -/
theorem test_crc_check_value : crc16 [0x31, 0x32, 0x33, 0x34, 0x35, 0x36, 0x37, 0x38, 0x39] = 0x29B1 := by
  decide +kernel

/-- Dispatch links: SET_DISPATCH with 300 and 5000 ms, QUERY_LINK of crane 7, and HEARTBEAT whatever its padding. -/
theorem test_decode_link_requests :
    decodeFrame (.dispatch .a) 0x21 [0x01, 0x2C, 0x13, 0x88] = .command (.setDispatch .a 300 5000) ∧
    decodeFrame (.dispatch .b) 0x22 [13, 0, 0, 0] = .command (.queryLink .b 13) ∧
    decodeFrame (.dispatch .a) 0x20 [1, 2, 3, 4] = .command (.heartbeat .a) := by decide

/-- The grid: SET_GRID 12 by 50, SET_SEGMENT of 16 gates from segment 260. -/
theorem test_decode_grid_requests :
    decodeFrame (.dispatch .a) 0x23 [12, 50, 0, 0] = .command (.setGrid .a 12 50) ∧
    decodeFrame (.dispatch .a) 0x24 [0x01, 0x04, 16, 1, 1, 0x05, 0x14, 0x01, 0x2C, 0, 2] =
      .command (.setSegment .a ⟨260, 16, 1, 1, 1300, 300, 0, 2⟩) := by decide

/-- Routes: ROUTE_REQUEST of carrier 17 on 130, 131, stop 650, queue flag set, 60 s, tag 258; its extension; and the
rectangle of a block. -/
theorem test_decode_route_requests :
    decodeFrame (.dispatch .b) 0x26 [0, 17, 0x02, 0x8A, 1, 0, 60, 1, 2, 2, 0, 130, 0, 131] =
      .command (.routeRequest .b ⟨17, 650, 1, 60, 258, [130, 131]⟩) ∧
    decodeFrame (.dispatch .a) 0x27 [0, 17, 0x02, 0x8A, 1, 0, 132] = .command (.routeExtend .a 17 650 [132]) ∧
    decodeFrame (.dispatch .a) 0x2A [1, 2, 3, 4] = .command (.segmentBlock .a ⟨1, 2, 3, 4⟩) ∧
    decodeFrame (.dispatch .a) 0x27 [0, 17, 0x02, 0x8A, 2, 0, 132] = .badLength := by decide

/-- Carriers: REGISTER_CARRIER of carrier 256 with class 3, SET_CLASS with the default values of class 1. -/
theorem test_decode_carrier_requests :
    decodeFrame (.dispatch .a) 0x2D [1, 0, 3, 0] = .command (.registerCarrier .a 256 3) ∧
    decodeFrame (.dispatch .a) 0x2F [1, 0x02, 0x58, 0, 150, 0x01, 0x2C, 0x01, 0x90, 0x01, 0xF4, 50, 0x03, 0xE8, 0, 30,
        50] = .command (.setClass .a ⟨1, 600, 150, 300, 400, 500, 50, 1000, 0, 30, 50⟩) := by decide

/-- Cranes: SET_CRANE of crane 3 with selector ALL and with OPERATING, under which the geometry bytes are not read. -/
theorem test_decode_crane_requests :
    decodeFrame (.dispatch .a) 0x34 [0, 3, 0, 1, 2, 1, 2, 0, 0, 0, 5, 3, 0x17, 0x70, 0xC3, 0x50, 4, 20, 1, 3, 0x01,
        0xF4] = .command (.setCrane .a 3 0 ⟨1, 2, 1, 2, 0, 0, 0, 5⟩ ⟨3, 6000, 50000, 4, 20, 1, 3, 500⟩) ∧
    decodeFrame (.dispatch .a) 0x34 [0, 3, 1, 9, 9, 9, 9, 9, 9, 9, 9, 3, 0x17, 0x70, 0xC3, 0x50, 4, 20, 1, 3, 0x01,
        0xF4] = .command (.setCraneOperating .a 3 ⟨3, 6000, 50000, 4, 20, 1, 3, 500⟩) := by decide

/-- Radio, picture, copies and modes: SET_RADIO, BROADCAST_CONFIG, SET_COPY_RULE and ACTIVATE. -/
theorem test_decode_other_requests :
    decodeFrame (.dispatch .a) 0x37 [4, 1, 0x01, 0x2C, 1, 0x01, 0x2D, 0, 0x01, 0x2E, 1, 0x01, 0x2F] =
      .command (.setRadio .a ⟨4, ⟨1, 300⟩, ⟨1, 301⟩, ⟨0, 302⟩, ⟨1, 303⟩⟩) ∧
    decodeFrame (.dispatch .a) 0x39 [1, 4, 8, 9, 2, 0x03, 0xE8, 1] =
      .command (.broadcastConfig .a ⟨1, 4, 8, 9, 2, 1000, 1⟩) ∧
    decodeFrame (.dispatch .a) 0x3C [3, 1, 0, 16, 120, 2, 1] = .command (.setCopyRule .a ⟨3, 1, 0, 16, 120, 2, 1⟩) ∧
    decodeFrame (.dispatch .a) 0x3D [30, 0, 0, 0] = .command (.activate .a 30) := by decide

/-- Radio links: a report of carrier 17, sequence 9, front 131 with 650 cm left, rear 130, speed 500, LADEN; an event
with two bytes; and the kinds that a dispatch link takes are none here. -/
theorem test_decode_radio_frames :
    decodeFrame (.radio 2) 0x01 [0, 17, 9, 0, 131, 0x02, 0x8A, 0, 130, 0x01, 0xF4, 4] =
      .command (.positionReport 2 ⟨17, 9, 131, 650, 130, 500, 4⟩) ∧
    decodeFrame (.radio 0) 0x02 [0, 17, 9, 200, 2, 7, 8] = .command (.carrierEvent 0 ⟨17, 9, 200, [7, 8]⟩) ∧
    decodeFrame (.radio 0) 0x20 [0, 0, 0, 0] = .badKind ∧ decodeFrame (.radio 0) 0x01 [0, 0, 0, 0] = .badLength := by
  decide

/-- Crane links: a report of sequence 1, bay 10, no trolley slot, height 6000, STOPPED; LOWER_REQUEST and
GANTRY_REQUEST. -/
theorem test_decode_crane_frames :
    decodeFrame (.crane 3) 0x10 [1, 10, 255, 0x17, 0x70, 1] = .command (.craneReport 3 ⟨1, 10, 255, 6000, 1⟩) ∧
    decodeFrame (.crane 3) 0x11 [2, 0, 0, 0] = .command (.lowerRequest 3 2) ∧
    decodeFrame (.crane 3) 0x13 [7, 0, 0, 0] = .command (.gantryRequest 3 7) := by decide

/-! ## Single steps, with results worked out from the manual -/

/-- The state a command leaves. -/
def after (i : Instr) (s : State) : State :=
  match exec i s with
  | .next t => t
  | .fault e => nomatch e
  | .refused _ => s

/-- SET_GRID for 12 lanes and 50 bays makes 12 by 42, 504 cells (the example of R6). -/
theorem test_set_grid_example : ((after (.setGrid .a 12 50) bench).dlink .a).tx =
    .reply ⟨0x23, .accepted, .none_, true, [.byte 12, .byte 42, .half 504]⟩ := by decide +kernel

/-- A request for 0 lanes and 80 bays is clamped to 1 lane and 64 bays (the example of R6). -/
theorem test_set_grid_clamps : (after (.setGrid .a 0 80) bench).grid.cellCount = 64 := by decide +kernel

/-- The stopping distance at 500 cm/s in the default class is 834 + 200 + 300 cm (the example of R28). -/
theorem test_stopping_distance : stoppingDistance 500 ClassVals.default = 1334 := by decide

/-- The reaction term rounds up to a whole centimetre (the examples of R84). -/
theorem test_reaction_term : reactionTerm 500 400 = 200 ∧ reactionTerm 420 400 = 168 ∧ reactionTerm 333 250 = 84 := by
  decide

/-- The square root of 75 000 000 rounded down is 8660 (the example of R85). -/
theorem test_isqrt : isqrt 75000000 = 8660 := by decide

/-- The mask 120 with the value 16 selects the ids 16 to 23 (the example of R160). -/
theorem test_copy_mask : ((List.range 96).filter
    (CopyRule.selects { CopyRule.default with value := 16, mask := 120 })) = [16, 17, 18, 19, 20, 21, 22, 23] := by
  decide +kernel

/-- An acceptance window of 60 becomes 50 and one of 10 becomes 25 (the example of R50). -/
theorem test_window_step : windowStep 60 = 50 ∧ windowStep 10 = 25 := by decide

/-- A granted route is a PROCEED at once: carrier 5 at rest in segment 5 is sent its end at segment 7, 700 cm in. -/
theorem test_grant_sends_proceed : ((after (.routeRequest .a ⟨5, 700, 0, 20, 9, [5, 6, 7]⟩) idle).radio 0).sending =
    some (.authority ⟨5, some 7, 1, .proceed, some 7, 700, 30, [some 5, some 6, some 7]⟩) := by decide +kernel

/-- A segment taken out of service under a standing carrier stops it (R86 line 6). -/
theorem test_block_stops : ((after (.segmentBlock .a ⟨1, 1, 1, 1⟩) idle).radio 3).sending.isSome = true ∧
    ((after (.segmentBlock .a ⟨1, 1, 1, 1⟩) idle).carrier? 5).bind (fun r => r.auth.command) = some .stopNow := by
  decide +kernel

/-- A HEARTBEAT given as bytes on the line is answered (R151, R170, R171). -/
theorem test_heartbeat_on_the_line : (after (.badFrame (.dispatch .b) (envelope 0x20 [0, 0, 0, 0])) quay).dlink .b =
    (after (.heartbeat .b) quay).dlink .b := by decide +kernel

/-- A dispatch computer that is heard first after reset reopens the ground: DISPATCH_REGAINED waits (R153). -/
theorem test_regain : (after (.heartbeat .a) State.reset).lossSince = none ∧
    ((after (.heartbeat .a) State.reset).dlink .b).notifs.map (fun n => n.kind) = [.dispatchRegained] := by
  decide +kernel

/-! ## What the statements assume is met: links, grid and routes -/

theorem witness_EmptyQueue : quay.pending = [] := rfl

theorem witness_ResetStartsFromTheImage : Settings.validate berth = none ∧ grid.inside 11 = true ∧
    (bench.carrier? 5).isSome = true := by decide +kernel

/-- One link UP, the other UP, and dispatch loss in force. -/
theorem witness_DispatchFrameArrives : (quay.dlink .a).up = true ∧
    ((quay.onDlink .a (fun _ => DispatchLink.fresh)).dlink DLink.a.other).up = true ∧
    ((State.reset.dlink .a).up = false ∧ (State.reset.dlink DLink.a.other).up = false ∧
      State.reset.lossSince = some 0) := by decide +kernel

/-- A HEARTBEAT reply. -/
def beat : Reply := ⟨0x20, .accepted, .none_, false, []⟩

/-- A notification entry. -/
def note : Notif := ⟨.carrierState, 0, .carrier 5, [.byte 2, .byte 3]⟩

/-- Link A sending a notification, with or without drops. -/
def notifying (drops : Nat) : State := quay.onDlink .a (fun d => { d with
  tx := .notification, notifs := [note], dropCount := drops, firstDrop := if drops = 0 then none else some 0 })

/-- Link A sending a reply. -/
def replying : State := quay.onDlink .a (fun d => { d with tx := .reply beat })

theorem witness_DispatchTransmitter : (quay.dlink .a).up = true ∧ (quay.dlink .a).tx = .idle ∧
    (quay.dlink .a).replies ++ [beat] = beat :: [] ∧ (replying.dlink .a).tx = .reply beat ∧
    ((notifying 0).dlink .a).tx = .notification ∧ ((notifying 0).dlink .a).dropCount = 0 ∧
    ((notifying 1).dlink .a).tx = .notification ∧ ((notifying 1).dlink .a).dropCount ≠ 0 := by decide +kernel

/-- Link A with a notification waiting. -/
def notified : State := quay.onDlink .a (fun d => { d with notifs := [note] })

/-- Link A with nothing waiting, with a reply, with a notification alone, while it sends, and while it is DOWN. -/
theorem witness_DispatchTransmitter_choice : (quay.dlink .a).replies = [] ∧ (quay.dlink .a).notifs = [] ∧
    ((quay.onDlink .a (DispatchLink.enqueue beat)).dlink .a).replies = beat :: [] ∧
    ((quay.onDlink .a (DispatchLink.enqueue beat)).dlink .a).tx = .idle ∧
    (notified.dlink .a).up = true ∧ (notified.dlink .a).tx = .idle ∧ (notified.dlink .a).replies = [] ∧
    (notified.dlink .a).notifs ≠ [] ∧ (replying.dlink .a).tx ≠ .idle ∧ (State.reset.dlink .a).up = false := by
  decide +kernel

/-- Link A with so many replies waiting. -/
def waitingReplies (n : Nat) : State := quay.onDlink .a (fun d => { d with replies := List.replicate n beat })

theorem witness_RequestsAreAnsweredOnce : (ownerOf (.heartbeat .a)).isSome = true ∧
    (Instr.heartbeat .a).link = some (.dispatch .a) ∧ (waitingReplies 15).hasRoom .a ∧
    ¬ (waitingReplies 16).hasRoom .a := by decide +kernel

theorem witness_ARefusalChangesNothing :
    (∃ o, ownerOf (.setGrid .a 1 1) = some o ∧ (o quay).2.status = .refused) ∧
    (∃ o, ownerOf (.saveSettings .a) = some o ∧ (o { quay with save := some ⟨0, berth⟩ }).2.status = .busy) :=
  ⟨⟨_, rfl, by decide⟩, ⟨_, rfl, by decide⟩⟩

theorem witness_FramesByKindAndPayload :
    ((Instr.heartbeat .a).WellFormed ∧ encode (.heartbeat .a) = some (0x20, [0, 0, 0, 0]) ∧
      (Instr.heartbeat .a).link = some (.dispatch .a)) ∧
    ((Instr.modemHeartbeat 3).WellFormed ∧ encode (.modemHeartbeat 3) = some (0x03, [0, 0, 0, 0]) ∧
      (Instr.modemHeartbeat 3).link = some (.radio 3)) ∧
    ((Instr.slotRelease 7).WellFormed ∧ encode (.slotRelease 7) = some (0x12, [0, 0, 0, 0]) ∧
      (Instr.slotRelease 7).link = some (.crane 7)) ∧
    quay.hasRoom .a ∧ (0x1F < 0x20 ∨ 0x3F < 0x1F) ∧ (0x40 < 0x20 ∨ 0x3F < 0x40) ∧
    readRequest .a 0x20 [0, 0, 0, 0, 0] = none ∧ readRequest .a 0x3F [0, 0, 0, 0, 0] = none := by decide +kernel

/-- Link A with its timer at 0. -/
def silent : State := quay.onDlink .a (fun d => { d with timer := some 0 })

theorem witness_DispatchLinkTimeout : ((silent.dlink .a).up = true ∧ (silent.dlink .a).timer = some 0 ∧
      (silent.dlink DLink.a.other).up = true ∧ ∀ r, (silent.dlink .a).tx ≠ .reply r) ∧
    ((silent.onDlink .b (fun _ => DispatchLink.fresh)).dlink DLink.a.other).up = false ∧
    ((silent.onDlink .a (fun d => { d with tx := .reply beat })).dlink .a).tx = .reply beat := by
  and_intros
  any_goals decide +kernel
  exact fun r h => nomatch h

theorem witness_HeartbeatAndSetDispatch : quay.hasRoom .a := by decide +kernel

/-- Segment 11 held by carrier 5 with its route, and by carrier 6, which has none. -/
theorem witness_QueriesAnswerAndChangeNothing : quay.hasRoom .a ∧ ((quay.taken .a).carrier? 5).isSome = true ∧
    (5 : Nat) ≠ 65535 ∧ 14 ≤ 14 ∧
    (quay.taken .a).grid.lanes * (quay.taken .a).grid.bays ≤ 12 ∧
    11 < (quay.taken .a).grid.lanes * (quay.taken .a).grid.bays ∧
    ((routed.taken .a).seg 7).holder = some (.carrier 5) ∧ ((routed.taken .a).route? 5).isSome = true ∧
    (((hold quay 11 (.held (.carrier 6) .route)).taken .a).seg 11).holder = some (.carrier 6) ∧
    ((hold quay 11 (.held (.carrier 6) .route)).taken .a).route? 6 = none ∧
    (6 : Nat) ≠ 65535 ∧ (quay.taken .a).carrier? 6 = none ∧ (8 : Nat) ≠ 65535 ∧ 8 ≤ 8 := by decide +kernel

/-- A carrier with a held segment and a pending entry, and one with no entry; the last radio link and crane. -/
theorem witness_Queries_records : (queued.taken .a).segs.Sorted ∧ ((queued.taken .a).carrier? 5).isSome = true ∧
    (∀ i, i ∈ [5] ↔ ((queued.taken .a).seg i).holder = some (.carrier 5)) ∧ [5].Nodup ∧
    (queued.taken .a).waiting = [] ++ entry :: [] ∧ (∀ y ∈ (idle.taken .a).waiting, y.carrier ≠ 5) ∧
    (3 : Nat) < 4 ∧ (7 : Nat) < 8 := by
  refine ⟨by decide +kernel, by decide +kernel, segs_iff (fun r => r.holder = some (.carrier 5)) [5] (by decide +kernel)
    (fun h => nomatch h) (by decide +kernel), ?_⟩
  decide +kernel

/-- What QUERY_SEGMENT answers of the gate segment 0 with every field of its record present, worked out from R2, R17, R46
and R172; and QUERY_BROADCAST of a part with the default configuration on 3 lanes of 4 bays, from R133, R134 and R136. -/
theorem test_query_fields :
    (ownQuerySegment 0 (quay.putSeg 0 ⟨.frozen (.carrier 5) .standing,
        ⟨[(0, ⟨true, false, true, false⟩), (2, ⟨false, true, false, true⟩)]⟩, ⟨true, false, true⟩, some (.crane 7)⟩)).2 =
      ⟨0x2C, .accepted, .none_, false, [.byte 0, .byte 0, .byte 1, .byte 1, .half 1000, .half 300, .byte 1, .byte 0,
        .byte 2, .byte 1, .half 5, .byte 1, .byte 2, .half 0, .byte 5, .half 2, .byte 10, .byte 5, .byte 2, .half 7,
        .byte 3, .byte 0]⟩ ∧
    (ownQueryBroadcast quay).2 = ⟨0x3B, .accepted, .none_, false, [.byte 0, .byte 16, .byte 0, .byte 64, .byte 0,
      .half 1000, .byte 0, .byte 0, .byte 3, .byte 0, .byte 4, .byte 0, .byte 0, .byte 0, .byte 0, .byte 0, .byte 0,
      .byte 0, .byte 0, .absent 4, .absent 4, .half 0, .half 0]⟩ := by decide +kernel

/-- The parties of a segment record as QUERY_SEGMENT gives them. -/
theorem witness_Queries_parties : partyVals none = [.byte 0, .half 65535] ∧
    (∀ c, partyVals (some (.carrier c)) = [.byte 1, .half c]) ∧ (∀ k, partyVals (some (.crane k)) = [.byte 2, .half k]) :=
  ⟨rfl, fun _ => rfl, fun _ => rfl⟩

/-- A frame at the largest value of every field, on each kind of link. -/
theorem witness_FramesDecodeToTheirCommand :
    ((Instr.setDispatch .b 65535 65535).WellFormed ∧
      encode (.setDispatch .b 65535 65535) = some (0x21, [255, 255, 255, 255]) ∧
      (Instr.setDispatch .b 65535 65535).link = some (.dispatch .b)) ∧
    ((Instr.modemHeartbeat 0).WellFormed ∧ encode (.modemHeartbeat 0) = some (0x03, [0, 0, 0, 0]) ∧
      (Instr.modemHeartbeat 0).link = some (.radio 0)) ∧
    ((Instr.gantryRequest 7 255).WellFormed ∧ encode (.gantryRequest 7 255) = some (0x13, [255, 0, 0, 0]) ∧
      (Instr.gantryRequest 7 255).link = some (.crane 7)) ∧
    (∀ l k q, Instr.gantryRequest 7 255 ≠ .dispatchFrame l k q) ∧
    (∀ r k q, Instr.gantryRequest 7 255 ≠ .radioUnusableFrame r k q) ∧
    (∀ c k q, Instr.gantryRequest 7 255 ≠ .craneUnusableFrame c k q) := by
  and_intros
  any_goals decide +kernel
  all_goals exact fun _ _ _ h => nomatch h

/-- The last lane and bay of the berth, and the first id beyond it. -/
theorem witness_AdjacentSegments : 2 < grid.lanes ∧ 3 < grid.bays ∧ grid.lanes * grid.bays ≤ 12 ∧
    grid.adjacent 10 11 = true ∧ grid.adjacent 7 11 = true ∧ grid.adjacent 3 4 = false := by decide +kernel

theorem witness_SetGrid : quay.hasRoom .a ∧ (quay.taken .a).mode ≠ .config ∧ bench.hasRoom .a ∧
    (bench.taken .a).mode = .config := by decide +kernel

/-- The berth with every segment of a use and segment 6, in lane 1 and bay 2, of a kind. -/
def ground (usable : Bool) (kind : SegKind) : Settings :=
  { berth with grid := ⟨3, 4, ⟨(List.range 12).map (fun i => (i,
      ⟨usable, if i = 6 then kind else .lane, 1000, 300, true, false, false⟩))⟩⟩ }

/-- The berth with a second present crane of some geometry. -/
def second (waterside landside : Nat) (slots : List Nat) : Settings :=
  { berth with cranes := berth.cranes.put 7 { CraneConfig.default with
      present := true, waterside := waterside, landside := landside, slotLanes := slots } }

/-- A berth that passes; no usable segment, and a gate off the edge, with and without which the other fails; and each
item of a crane, the results written out from the tables of R13 and R14. -/
theorem witness_ValidationFindsTheFirstFailure : (ground true .lane).validate = none ∧
    (ground false .gate).validate = some ⟨.noUsableSegment, none, 255⟩ ∧
    (ground true .gate).validate = some ⟨.gateNotOnEdge, some 6, 255⟩ ∧ 6 = 1 * 4 + 2 ∧
    (∃ i, i < (ground true .gate).grid.lanes * (ground true .gate).grid.bays ∧
      ((ground true .gate).grid.record i).usable = true) ∧
    (∀ j < 6, ((ground true .gate).grid.record j).kind ≠ .gate) ∧
    [second 3 4 [1], second 0 3 [1], second 1 1 [1], second 0 2 [1, 2], second 0 2 [1, 1], second 0 1 []].map
        Settings.validate =
      [some ⟨.legLaneOutside, some 7, 0⟩, some ⟨.legLaneOutside, some 7, 1⟩, some ⟨.legLanesOrder, some 7, 255⟩,
        some ⟨.slotOutsideLegs, some 7, 1⟩, some ⟨.slotLaneRepeated, some 7, 1⟩, some ⟨.legLanesDiffer, some 7, 255⟩] := by
  and_intros
  all_goals decide +kernel

/-- A run of ids that ends with the grid; then the first id beyond it, and a value out of its enumeration. -/
def lastCells : SegmentArgs := ⟨11, 64, 1, 1, 5000, 800, 1, 3⟩

theorem witness_SetSegment : bench.hasRoom .a ∧ (bench.taken .a).mode = .config ∧ (quay.taken .a).mode ≠ .config ∧
    (bench.taken .a).grid.lanes * (bench.taken .a).grid.bays ≤ 12 ∧
    lastCells.first < (bench.taken .a).grid.lanes * (bench.taken .a).grid.bays ∧ lastCells.usable ≤ 1 ∧
    lastCells.kind ≤ 1 ∧ lastCells.crossNext ≤ 1 ∧ lastCells.closure ≤ 3 ∧
    ¬ (lastCells.usable ≤ 1 ∧ lastCells.kind ≤ 1 ∧ lastCells.crossNext ≤ 1 ∧ 4 ≤ 3) := by decide +kernel

/-- The last cell of the berth, and a rectangle beyond it. -/
theorem witness_SegmentBlockAndUnblock : quay.hasRoom .a ∧ (bench.taken .a).mode = .config ∧
    (quay.taken .a).mode ≠ .config ∧ 1 ≤ (quay.taken .a).grid.lanes ∧ 1 ≤ (quay.taken .a).grid.bays ∧
    min 255 ((quay.taken .a).grid.lanes - 1) = 2 ∧ max 1 (min 255 ((quay.taken .a).grid.lanes - 2)) = 1 := by
  decide +kernel

/-- A request whose first segment is the carrier's own and whose others are available in `idle`. -/
def ask (queue : Nat) : RouteArgs := ⟨5, 700, queue, 20, 9, [5, 6, 7]⟩

/-- `idle` with segment 6 taken by crane 0 and these entries waiting. -/
def crowded (waiting : List PendingEntry) : State :=
  { hold idle 6 (.held (.crane 0) .leg) with waiting := waiting }

/-- The request passes the checks of R24 wherever carrier 5 stands as in `idle` and its ground is not locked. -/
theorem ask_may {s : State} {q : Nat} (hq : q ≤ 1) (hg : s.grid = grid) (hm : s.mode = .active) (ho : s.segs.Sorted)
    (hc : s.carrier? 5 = idle.carrier? 5)
    (hl : ∀ r ∈ s.segs.rows, r.2.hold = .held (.carrier 5) .standing → r.2.lock.rows = []) :
    ∃ r, s.MayRequest (ask q) r := by
  refine ⟨(idle.carrier? 5).getD (Carrier.fresh ClassVals.default), ⟨⟨hm, hq, ?_, by decide +kernel, rfl,
    List.cons_ne_nil _ _, ?_, ?_, ?_, ?_, Nat.le_of_ble_eq_true rfl, ho⟩,
    segs_all (fun _ r => r.hold = .held (.carrier 5) .standing → r.lock.rows = []) hl (fun _ h => nomatch h)⟩⟩
  · show s.carrier? 5 = _
    rw [hc]
    decide +kernel
  · rw [hg]
    show ∀ i ∈ [5, 6, 7], grid.usable i = true
    decide +kernel
  · rw [hg]
    intro k hk
    have hk' : k + 1 < 3 := hk
    have : k = 0 ∨ k = 1 := by omega
    rcases this with rfl | rfl
    · show grid.adjacent 5 6 = true
      decide +kernel
    · show grid.adjacent 6 7 = true
      decide +kernel
  · show [5, 6, 7].Nodup
    decide
  · intro b _ hne
    exact absurd (by decide +kernel) hne

theorem witness_RouteRequestGranted : idle.hasRoom .a ∧ (∃ r, (idle.taken .a).MayRequest (ask 0) r) ∧
    ∀ i ∈ (ask 0).ids, (idle.taken .a).openTo 5 i := by
  refine ⟨by decide +kernel, ask_may (by decide) rfl rfl (by decide +kernel) (by decide +kernel) (by decide +kernel),
    fun i hi => ?_⟩
  have h : i = 5 ∨ i = 6 ∨ i = 7 := by simpa [ask] using hi
  rcases h with rfl | rfl | rfl <;> (show _ ∨ _; decide +kernel)

/-- With the queue flag clear and set: an entry to replace, a place left, and no place left. -/
theorem witness_RouteRequestRefusedOrQueued : ∀ w ∈ [[], [entry], List.replicate 31 { entry with carrier := 6 },
      List.replicate 32 { entry with carrier := 6 }], ∀ q ∈ [0, 1],
    (crowded w).hasRoom .a ∧ (∃ r, ((crowded w).taken .a).MayRequest (ask q) r) ∧
      (ask q).ids = [5] ++ 6 :: [7] ∧ (∀ j ∈ [5], ((crowded w).taken .a).openTo 5 j) ∧
      (((crowded w).taken .a).seg 6).hold ≠ .held (.carrier 5) .standing ∧
      (((crowded w).taken .a).seg 6).blockCause = some .conflict := by
  intro w hw q hq
  have hq' : q ≤ 1 := by simp at hq; omega
  simp only [List.mem_cons, List.not_mem_nil, or_false] at hw
  rcases hw with rfl | rfl | rfl | rfl
  all_goals
    refine ⟨by decide +kernel, ask_may hq' rfl rfl (by decide +kernel) (by decide +kernel) (by decide +kernel), rfl,
      fun j hj => ?_, by decide +kernel, by decide +kernel⟩
    have h : j = 5 := by simpa using hj
    subst h
    show _ ∨ _
    decide +kernel

/-- Carrier 5 IDLE in segment 5 with further STANDING segments 6 and 7, and hoist locks on some of the three. -/
def locks (ids : List Nat) : State :=
  ids.foldl (fun s i => s.putSeg i { s.seg i with lock := ⟨[(0, ⟨true, false, false, false⟩)]⟩ })
    (hold (hold idle 6 (.held (.carrier 5) .standing)) 7 (.held (.carrier 5) .standing))

/-- What a dispatch request sent on link A is answered: its reason and detail. -/
def answer (i : Instr) (s : State) : Option (Reason × List Val) :=
  match ((after i s).dlink .a).tx with
  | .reply r => some (r.reason, r.detail)
  | _ => none

/-- Carrier 5 IDLE at the start of a single lane of 25 segments. -/
def longLane : State := { idle.onCarrier 5 (fun r => { r with front := some 0, rear := some 0 }) with
  cfg := { berth with grid := ⟨1, 25, ⟨(List.range 25).map (fun i => (i,
    ⟨true, .lane, 1000, 300, false, false, false⟩))⟩⟩ }, segs := Table.filled 25 SegDyn.fresh }

/-- One ROUTE_REQUEST for each check of R24 up to the eighth, and one whose standing ground is locked. -/
theorem test_route_request_refusals :
    answer (.routeRequest .a (ask 1)) bench = some (.badMode, [.byte 0]) ∧
    answer (.routeRequest .a (ask 2)) idle = some (.badValue, [.field 2]) ∧
    answer (.routeRequest .a { ask 1 with carrier := 6 }) idle = some (.unknownCarrier, [.half 6]) ∧
    answer (.routeRequest .a (ask 1)) routed = some (.routeActive, [.byte 1]) ∧
    answer (.routeRequest .a (ask 1)) stopped = some (.badCarrierState, [.byte 4]) ∧
    answer (.routeRequest .a { ask 1 with ids := [] }) idle = some (.notAtStart, [.half 5]) ∧
    answer (.routeRequest .a { ask 1 with ids := [5, 12] }) idle = some (.badSegment, [.byte 1, .half 12]) ∧
    answer (.routeRequest .a { ask 1 with ids := [5, 7] }) idle = some (.notAdjacent, [.byte 1]) ∧
    answer (.routeRequest .a { ask 1 with ids := [5, 6, 5] }) idle = some (.repeated, [.byte 2]) ∧
    answer (.routeRequest .a { ask 1 with ids := List.range 25 }) longLane = some (.tooLong, [.byte 25]) ∧
    answer (.routeRequest .a (ask 1)) (idle.putSeg 5 { idle.seg 5 with lock := ⟨[(3, ⟨true, false, false, false⟩)]⟩ }) =
      some (.locked, [.half 5, .byte 1, .half 3]) := by
  and_intros
  all_goals decide +kernel

/-- The first check of the chain fails in CONFIG; a locked standing segment with every check of R24 passed. -/
theorem witness_RouteRequest_refused : bench.hasRoom .a ∧
    (∀ rest, FirstFails ((Reason.badMode, fun (d : List Val) => (bench.taken .a).mode ≠ .active ∧
      d = [.byte (bench.taken .a).mode.code]) :: rest) .badMode [.byte 0]) ∧
    (locks [5]).hasRoom .a ∧ (∃ r, ((locks [5]).taken .a).MayAsk { ask 1 with ids := [5, 1, 2] } r ∧ r.front = some 5) ∧
    (((locks [5]).taken .a).seg 5).hold = .held (.carrier 5) .standing ∧
    (((locks [5]).taken .a).seg 5).lock.rows ≠ [] := by
  refine ⟨by decide +kernel, fun rest => .inl ⟨rfl, by decide +kernel, rfl⟩, by decide +kernel,
    ⟨_, ⟨by decide +kernel, by decide, rfl, by decide +kernel, by decide +kernel, List.cons_ne_nil _ _, ?_, ?_, ?_, ?_,
      Nat.le_of_ble_eq_true rfl, by decide +kernel⟩, by decide +kernel⟩, by decide +kernel, by decide +kernel⟩
  · show ∀ i ∈ [5, 1, 2], grid.usable i = true
    decide +kernel
  · intro k hk
    have hk' : k + 1 < 3 := hk
    have : k = 0 ∨ k = 1 := by omega
    rcases this with rfl | rfl
    · show grid.adjacent 5 1 = true
      decide +kernel
    · show grid.adjacent 1 2 = true
      decide +kernel
  · show [5, 1, 2].Nodup
    decide
  · intro b _ hne
    exact absurd (by decide +kernel) hne

/-- One ROUTE_EXTEND for each check of R27, and one that meets a held segment. -/
theorem test_route_extend_refusals :
    answer (.routeExtend .a 5 0 [3]) { routed with mode := .config } = some (.badMode, []) ∧
    answer (.routeExtend .a 6 0 [3]) routed = some (.unknownCarrier, []) ∧
    answer (.routeExtend .a 5 0 [3]) idle = some (.noRoute, []) ∧
    answer (.routeExtend .a 5 0 [3]) stopped = some (.badCarrierState, []) ∧
    answer (.routeExtend .a 5 0 [3, 12]) routed = some (.badSegment, [.byte 1]) ∧
    answer (.routeExtend .a 5 0 [3, 1]) routed = some (.notAdjacent, [.byte 1]) ∧
    answer (.routeExtend .a 5 0 [6]) routed = some (.repeated, []) ∧
    answer (.routeExtend .a 5 0 []) routed = some (.tooLong, [.byte 3]) ∧
    answer (.routeExtend .a 5 0 [3]) (hold routed 3 (.held (.crane 0) .leg)) =
      some (.conflict, .half 3 :: partyVals (some (.crane 0))) := by
  and_intros
  all_goals decide +kernel

/-- An extension of which both segments are available, and one of which the second is held. -/
theorem witness_RouteExtendGrantedOrRefused :
    (∀ s ∈ [routed, hold routed 2 (.held (.crane 0) .leg)],
      s.hasRoom .a ∧ ∃ r, (s.taken .a).MayExtend 5 [3, 2] r route) ∧
    (∀ i ∈ [3, 2], ((routed.taken .a).seg i).blockCause = none) ∧
    (((hold routed 2 (.held (.crane 0) .leg)).taken .a).seg 3).blockCause = none ∧
    (((hold routed 2 (.held (.crane 0) .leg)).taken .a).seg 2).blockCause = some .conflict ∧
    (∀ rest, FirstFails ((Reason.badMode, fun (d : List Val) => (bench.taken .a).mode ≠ .active ∧ d = []) :: rest)
      .badMode []) := by
  refine ⟨fun s hs => ?_, by decide +kernel, by decide +kernel, by decide +kernel,
    fun rest => .inl ⟨rfl, by decide +kernel, rfl⟩⟩
  simp only [List.mem_cons, List.not_mem_nil, or_false] at hs
  rcases hs with rfl | rfl
  all_goals
    refine ⟨by decide +kernel, _, by decide +kernel, rfl, by decide +kernel, by decide +kernel, List.cons_ne_nil _ _,
      by decide, by decide, ?_, fun k hk => ?_, by decide, by decide⟩
    · show ∀ i ∈ [3, 2], grid.usable i = true
      decide +kernel
    · have hk' : k < 2 := hk
      have : k = 0 ∨ k = 1 := by omega
      rcases this with rfl | rfl
      · show grid.adjacent 7 3 = true
        decide +kernel
      · show grid.adjacent 3 2 = true
        decide +kernel

/-- One ROUTE_CANCEL for each check of R28. -/
theorem test_route_cancel_refusals :
    answer (.routeCancel .a 5) bench = some (.badMode, []) ∧
    answer (.routeCancel .a 6) routed = some (.unknownCarrier, []) ∧
    answer (.routeCancel .a 5) idle = some (.noRoute, []) ∧
    answer (.routeCancel .a 5) stopped = some (.badCarrierState, []) := by
  and_intros
  all_goals decide +kernel

/-- `routed` at another speed. -/
def atSpeed (v : Nat) : State := routed.onCarrier 5 (fun r => { r with speed := v })

/-- At 100 cm/s the stopping distance is 374 cm and the cut point, at 874, lies in entry 0; at 1000 cm/s it is 4034 cm
and the cut point lies beyond the last entry. -/
theorem witness_RouteCancel : (atSpeed 100).hasRoom .a ∧ (atSpeed 1000).hasRoom .a ∧
    (∀ p ∈ [(100, 874), (1000, 4534)], ∃ r, ((atSpeed p.1).taken .a).carrier? 5 = some r ∧ r.state = .authorized ∧
      ((atSpeed p.1).taken .a).mode = .active ∧ ((atSpeed p.1).taken .a).route? 5 = some route ∧
      1 ≤ r.applied.decel ∧ p.2 = frontPos grid route r.frontRem +
        ((r.speed * r.speed + (2 * r.applied.decel - 1)) / (2 * r.applied.decel) +
          (r.speed * r.applied.latency + 999) / 1000 + r.applied.margin)) ∧
    routePos grid route.list 0 ≤ 874 ∧ 874 < routePos grid route.list (0 + 1) ∧
    routePos grid route.list 2 ≤ 4534 ∧ 2 + 1 = route.list.length := by
  refine ⟨by decide +kernel, by decide +kernel, fun p hp => ?_, by decide +kernel⟩
  simp only [List.mem_cons, List.not_mem_nil, or_false] at hp
  rcases hp with rfl | rfl <;> exact ⟨_, rfl, by decide +kernel⟩

/-- The route 5, 6, 7 of 1000 cm each: both sides of a boundary, and a position beyond the end (worked out from R23). -/
theorem witness_RoutePositions : route.list.length = 3 ∧ route.front < route.list.length ∧
    [0, 999, 1000, 1999, 2000, 2999, 3000, 9000].map (entryAt grid route.list) = [0, 0, 1, 1, 2, 2, 2, 2] ∧
    [0, 1, 2, 3].map (routePos grid route.list) = [0, 1000, 2000, 3000] ∧ stopPos grid route = 2700 := by decide +kernel

theorem witness_PendingCancel : queued.hasRoom .a ∧ (bench.taken .a).mode ≠ .active ∧
    (queued.taken .a).mode = .active ∧ (queued.taken .a).carrier? 6 = none ∧ (queued.taken .a).carrier? 5 ≠ none ∧
    (queued.taken .a).waiting = [] ++ entry :: [] ∧ (idle.taken .a).carrier? 5 ≠ none ∧
    (∀ x ∈ (idle.taken .a).waiting, x.carrier ≠ 5) := by decide +kernel

/-- The end of a request in which nothing changed, and of one that calls for re-examination and names carrier 5. -/
theorem witness_EndOfRequest : (Work.start queued none).report = none ∧ (Work.start queued none).reexam = false ∧
    (∃ r, queued.carrier? 5 = some r) ∧ (5 ∉ (Work.start queued none).runs) ∧
    (∀ i ∈ (Work.start queued none).touched, (queued.seg i).holder ≠ some (.carrier 5)) ∧
    ({ Work.start queued none with reexam := true, runs := [5] } : Work).report = none :=
  ⟨rfl, rfl, ⟨_, rfl⟩, by decide +kernel, by decide +kernel, rfl⟩

/-- A request that names carrier 5, with a link that is UP and no learning entry, and with an entry for one link. -/
theorem witness_EndOfRequest_concerned : queued.carriers.Sorted ∧
    5 ∈ ({ Work.start queued none with runs := [5] } : Work).runs ∧
    (queued.seg 5).holder = some (.carrier 5) ∧ (queued.radio 3).state = .up ∧ queued.learning.get? 5 = none ∧
    (({ queued with learning := ⟨[(5, ⟨3, 0, 4000⟩)]⟩ } : State).learning.get? 5) = some ⟨3, 0, 4000⟩ := by
  decide +kernel

/-- A request in ON_CHANGE that has changed the picture of segment 5. -/
def changing (s : State) : Work :=
  { Work.start { s with cfg := { s.cfg with broadcast := { s.cfg.broadcast with
      mode := .onChange, lane := 0, lanes := 3, bay := 0, bays := 4 } } } none with
    touched := [5], before := quay.segs }

/-- A picture change with and without a cycle in progress, none outside ON_CHANGE, and a request that a report of
carrier 5 has started. -/
theorem witness_EndOfRequest_picture : (changing idle).s.mode = .active ∧
    (changing idle).s.cfg.broadcast.mode = .onChange ∧ (changing idle).touched = [5] ∧
    ((changing idle).before.get 5 SegDyn.fresh).picture ≠ ((changing idle).s.seg 5).picture ∧
    inWindow (changing idle).s.window (changing idle).s.grid 5 = true ∧ (changing idle).s.cycle.since = none ∧
    (changing { idle with cycle := { Cycle.fresh with since := some 0 } }).s.cycle.since ≠ none ∧
    queued.cfg.broadcast.mode ≠ .onChange ∧ (Work.start idle (some 5)).report = some 5 ∧
    (((Work.start idle (some 5)).testSpeed 5).s.carrier? 5).isSome = true ∧ [5] = [] ++ 5 :: [] := by decide +kernel

/-- An entry whose ground is open, one that meets a held segment, and one whose standing segment is locked. -/
theorem witness_ReexaminationTriesAnEntry :
    (∀ s ∈ [{ idle with waiting := [entry] }, queued,
        queued.putSeg 5 { queued.seg 5 with lock := ⟨[(0, ⟨true, false, false, false⟩)]⟩ }],
      s.segs.Sorted ∧ (∃ r, s.carrier? entry.carrier = some r ∧ r.state = .idle ∧ r.front = entry.list.head?) ∧
        entry.list ≠ []) ∧
    (∀ i, (({ idle with waiting := [entry] } : State).seg i).hold = .held (.carrier 5) .standing →
      (({ idle with waiting := [entry] } : State).seg i).lock.rows = []) ∧
    (∀ i ∈ entry.list, ({ idle with waiting := [entry] } : State).openTo 5 i) ∧
    entry.list = [5] ++ 6 :: [] ∧ queued.openTo 5 5 ∧ ¬ queued.openTo 5 6 ∧
    (∀ j, ((queued.putSeg 5 { queued.seg 5 with lock := ⟨[(0, ⟨true, false, false, false⟩)]⟩ }).seg j).hold =
      .held (.carrier 5) .standing → j = 5) := by
  refine ⟨fun s hs => ?_, segs_all (fun _ r => r.hold = .held (.carrier 5) .standing → r.lock.rows = [])
    (by decide +kernel) (fun _ h => nomatch h), fun i hi => ?_, rfl, ?_, ?_,
    segs_all (fun j r => r.hold = .held (.carrier 5) .standing → j = 5) (by decide +kernel) (fun _ h => nomatch h)⟩
  · simp only [List.mem_cons, List.not_mem_nil, or_false] at hs
    rcases hs with rfl | rfl | rfl
    all_goals exact ⟨by decide +kernel, ⟨_, rfl, by decide +kernel, by decide +kernel⟩, by decide +kernel⟩
  · have h : i = 5 ∨ i = 6 := by simpa [entry] using hi
    rcases h with rfl | rfl <;> (show _ ∨ _; decide +kernel)
  · show _ ∨ _
    decide +kernel
  · show ¬ (_ ∨ _)
    decide +kernel

/-- The front locked beside another, and the front open with two others locked. -/
theorem witness_Reexamination_locks :
    (∃ r, (locks [5, 7]).carrier? 5 = some r ∧ r.front = some 5) ∧ ((locks [5, 7]).seg 5).lock.rows ≠ [] ∧
    ((locks [5, 7]).seg 7).lock.rows ≠ [] ∧ ((locks [6, 7]).seg 5).lock.rows = [] ∧
    ((locks [6, 7]).seg 6).hold = .held (.carrier 5) .standing ∧ ((locks [6, 7]).seg 6).lock.rows ≠ [] ∧
    (∀ j, ((locks [6, 7]).seg j).lock.rows ≠ [] → some 5 ≠ some j ∧ 6 ≤ j) := by
  refine ⟨⟨_, rfl, by decide +kernel⟩, by decide +kernel, by decide +kernel, by decide +kernel, by decide +kernel,
    by decide +kernel, segs_all (fun j r => r.lock.rows ≠ [] → some 5 ≠ some j ∧ 6 ≤ j) (by decide +kernel)
      (fun _ h => absurd rfl h)⟩

/-! ## What the statements assume is met: the roster, recovery and carrier reports -/

theorem witness_RegisterCarrier : quay.hasRoom .a ∧ 96 ≤ 96 ∧ 95 < 96 ∧ 4 ≤ 4 ∧ 3 < 4 ∧
    ((quay.taken .a).carrier? 5).isSome = true ∧ (quay.taken .a).carrier? 95 = none := by decide +kernel

/-- Carrier 5 IDLE with an entry, OFFLINE, and in the four states that hold it. -/
theorem witness_DeregisterCarrier :
    (∀ s ∈ [quay, queued, routed, stopped, lost], s.hasRoom .a ∧ (s.taken .a).segs.Sorted ∧
      (s.taken .a).carrier? 6 = none) ∧
    [routed, stopped, lost].map (fun s => ((s.taken .a).carrier? 5).map (fun r => r.state)) =
      [some .authorized, some .emergency, some .lost] ∧
    [quay, queued].map (fun s => ((s.taken .a).carrier? 5).map (fun r => r.state)) = [some .offline, some .idle] ∧
    (∀ i, i ∈ [5] ↔ ((queued.taken .a).seg i).hold = .held (.carrier 5) .standing) ∧
    ((queued.taken .a).entry? 5).toList = [entry] := by
  and_intros
  any_goals decide +kernel
  exact segs_iff (fun r => r.hold = .held (.carrier 5) .standing) [5] (by decide +kernel) (by decide) (by decide +kernel)

/-- The links of an IDLE carrier that leaves: UP with no learning entry, UP with an entry for it, and DOWN. -/
theorem witness_DeregisterCarrier_links : ((queued.taken .a).radio 3).state = .up ∧
    (queued.taken .a).learning.get? 5 = none ∧
    ((({ queued with learning := ⟨[(5, ⟨3, 0, 4000⟩)]⟩ } : State).taken .a).learning.get? 5) = some ⟨3, 0, 4000⟩ ∧
    (((queued.onRadio 0 (fun _ => RadioLink.fresh .down)).taken .a).radio 0).state = .down := by decide +kernel

/-- The last class and the last rule, and the first beyond each. -/
theorem witness_ClassesAndCopyRules : quay.hasRoom .a ∧ 4 ≤ 4 ∧ 3 < 4 ∧ 2 ≤ 2 ∧ 1 ≤ 1 ∧
    ¬ ((⟨4, 1, 1, 127, 127, 2, 1⟩ : CopyArgs).rule < 4) ∧ (⟨3, 1, 1, 127, 127, 2, 1⟩ : CopyArgs).rule < 4 := by
  decide +kernel

theorem witness_LostCarriers : lost.hasRoom .a ∧ (lost.taken .a).segs.Sorted ∧ (lost.taken .a).mode ≠ .config ∧
    (∃ r, (lost.taken .a).carrier? 5 = some r ∧ r.state = .lost ∧
      r.sighting = some ⟨some 5, 500, some 5, 0, ⟨false, false, false⟩, 0⟩) ∧
    5 < (lost.taken .a).grid.lanes * (lost.taken .a).grid.bays ∧
    (∃ k, ((lost.taken .a).seg 5).hold = .frozen (.carrier 5) k) ∧
    (∀ i, i ∈ [6] ↔ i ∉ [5] ∧ ∃ k, ((lost.taken .a).seg i).hold = .frozen (.carrier 5) k) ∧
    (∀ i, i ∈ [5, 6] ↔ ∃ k, ((lost.taken .a).seg i).hold = .frozen (.carrier 5) k) := by
  have h : ∀ i, i ∈ [5, 6] ↔ ∃ k, ((lost.taken .a).seg i).hold = .frozen (.carrier 5) k := by
    simp only [frozen_iff]
    exact segs_iff (fun r => r.frozenBy (.carrier 5) = true) [5, 6] (by decide +kernel) (by decide)
      (by decide +kernel)
  and_intros
  any_goals decide +kernel
  · exact ⟨.route, by decide +kernel⟩
  · intro i
    rw [← h i]
    simp
    omega
  · exact h

/-- In EMERGENCY in segment 5 with segment 6 still held; and standing nowhere. -/
theorem witness_ClearEmergency : stopped.hasRoom .a ∧ (stopped.taken .a).segs.Sorted ∧
    (stopped.taken .a).mode ≠ .config ∧
    (∃ r, (stopped.taken .a).carrier? 5 = some r ∧ r.state = .emergency ∧ r.speed = 0 ∧ r.flags.fault = false ∧
      (r.front.toList ++ if r.rear = r.front then [] else r.rear.toList) = [5]) ∧
    5 < (stopped.taken .a).grid.lanes * (stopped.taken .a).grid.bays ∧
    (∃ k, ((stopped.taken .a).seg 5).hold = .held (.carrier 5) k) ∧
    (∀ i, i ∈ [6] ↔ i ∉ [5] ∧ ((stopped.taken .a).seg i).holder = some (.carrier 5)) ∧
    (∃ r, ((five quay (fun r => { r with state := .emergency })).taken .a).carrier? 5 = some r ∧
      r.state = .emergency ∧ r.front = none ∧ r.rear = none) := by
  have h : ∀ i, i ∈ [5, 6] ↔ ((stopped.taken .a).seg i).holder = some (.carrier 5) :=
    segs_iff (fun r => r.holder = some (.carrier 5)) [5, 6] (by decide +kernel) (by decide) (by decide +kernel)
  and_intros
  any_goals decide +kernel
  · exact ⟨.route, by decide +kernel⟩
  · intro i
    rw [← h i]
    simp
    omega

/-- `lost` with another sighting. -/
def seen (front rear : Option Nat) (speed : Nat) : State := lost.onCarrier 5 (fun r => { r with
  sighting := some ⟨front, 500, rear, speed, ⟨false, false, false⟩, 0⟩ })

/-- One RECOVER_CARRIER for each check of R70, and one RELEASE_FROZEN for each of R71. -/
theorem test_lost_refusals :
    answer (.recoverCarrier .a 5) { lost with mode := .config } = some (.badMode, []) ∧
    answer (.recoverCarrier .a 6) lost = some (.unknownCarrier, []) ∧
    answer (.recoverCarrier .a 5) idle = some (.badCarrierState, [.byte 2]) ∧
    answer (.recoverCarrier .a 5) (lost.onCarrier 5 (fun r => { r with sighting := none })) = some (.noSighting, []) ∧
    answer (.recoverCarrier .a 5) (seen (some 5) (some 5) 1) = some (.moving, [.half 1, .byte 0]) ∧
    answer (.recoverCarrier .a 5) (seen none (some 5) 0) = some (.badSegment, [.half 65535]) ∧
    answer (.recoverCarrier .a 5) (seen (some 5) (some 12) 0) = some (.badSegment, [.half 12]) ∧
    answer (.recoverCarrier .a 5) (hold (seen (some 1) (some 5) 0) 1 (.held (.crane 0) .leg)) =
      some (.conflict, .half 1 :: partyVals (some (.crane 0))) ∧
    answer (.recoverCarrier .a 5) (hold (seen (some 5) (some 1) 0) 1 (.held (.crane 0) .leg)) =
      some (.conflict, .half 1 :: partyVals (some (.crane 0))) ∧
    answer (.releaseFrozen .a 5) { lost with mode := .config } = some (.badMode, []) ∧
    answer (.releaseFrozen .a 6) lost = some (.unknownCarrier, []) ∧
    answer (.releaseFrozen .a 5) idle = some (.badCarrierState, []) := by
  and_intros
  all_goals decide +kernel

/-- One CLEAR_EMERGENCY for each check of R72. -/
theorem test_clear_emergency_refusals :
    answer (.clearEmergency .a 5) { stopped with mode := .config } = some (.badMode, []) ∧
    answer (.clearEmergency .a 6) stopped = some (.unknownCarrier, []) ∧
    answer (.clearEmergency .a 5) idle = some (.badCarrierState, []) ∧
    answer (.clearEmergency .a 5) (stopped.onCarrier 5 (fun r => { r with speed := 1 })) = some (.moving, []) ∧
    answer (.clearEmergency .a 5) (stopped.onCarrier 5 (fun r => { r with rear := some 12 })) =
      some (.badSegment, []) ∧
    answer (.clearEmergency .a 5) (hold stopped 5 (.held (.crane 0) .leg)) =
      some (.conflict, .half 5 :: partyVals (some (.crane 0))) ∧
    answer (.clearEmergency .a 5) (hold (stopped.onCarrier 5 (fun r => { r with rear := some 1 })) 1
      (.held (.crane 0) .leg)) = some (.conflict, .half 1 :: partyVals (some (.crane 0))) := by
  and_intros
  all_goals decide +kernel

/-- The first check of RECOVER_CARRIER, RELEASE_FROZEN, CLEAR_EMERGENCY and CLEAR_CRANE fails in CONFIG. -/
theorem witness_RecoveryRefused : bench.hasRoom .a ∧ (bench.taken .a).grid.lanes * (bench.taken .a).grid.bays ≤ 65535 ∧
    ∀ rest, FirstFails ((Reason.badMode, fun (d : List Val) => (bench.taken .a).mode = .config ∧ d = []) :: rest)
      .badMode [] :=
  ⟨by decide +kernel, by decide +kernel, fun rest => .inl ⟨rfl, by decide +kernel, rfl⟩⟩

/-- Reports of ids not in the roster with and without a recent notification, a duplicate, and early reports of an IDLE
and of an EMERGENCY carrier: 251 ms are left where the window opens at 250. -/
theorem witness_ReportsPreparedAndDropped : (quay.radio 3).state ≠ .unconfigured ∧
    (quay.radioArrival 3).carrier? 65535 = none ∧ (quay.radioArrival 3).unknownTimes.get? 96 = none ∧
    ((0 : Time) - 0).toNat < 10000 ∧ 10000 ≤ ((10000 : Time) - 0).toNat ∧
    (∃ x, (idle.radioArrival 3).carrier? 5 = some x ∧ x.lastSeq = some 7 ∧ x.lastSeq ≠ some 8 ∧ x.state = .idle ∧
      x.applied.early = .drop ∧ x.applied.period * x.applied.window / 100 < 251) ∧
    (((idle.onCarrier 5 (fun r => { r with timer := some 251 })).radioArrival 3).carrier? 5).map (fun r => r.timer) =
      some (some 251) ∧
    (∃ x, (stopped.radioArrival 3).carrier? 5 = some x ∧ x.state = .emergency) ∧ quay.mode ≠ .config := by
  and_intros
  all_goals decide +kernel

/-- Early reports under policy FAULT of an IDLE carrier with an entry and of an AUTHORIZED one. -/
theorem witness_EarlyUnderFault : ∀ p ∈ [(queued, CarrierState.idle), (routed, .authorized)],
    ∃ x, ((p.1.onCarrier 5 (fun r => { r with
        timer := some 251, applied := { r.applied with early := .fault } })).radioArrival 3).carrier? 5 = some x ∧
      x.state = p.2 ∧ x.applied.early = .fault ∧ x.timer = some 251 ∧ x.lastSeq ≠ some 8 ∧
      x.applied.period * x.applied.window / 100 < 251 := by decide +kernel

/-- A report is accepted when the record and the part, looked up, pass every test. -/
theorem accepts_of {s : State} {a : ReportArgs} {P : Carrier → Prop}
    (h : s.mode ≠ .config ∧ s.segs.Sorted ∧ ∃ x, s.carrier? a.carrier = some x ∧ x.lastSeq ≠ some a.seq ∧
      (x.state = .missing ∨ ((x.state = .idle ∨ x.state = .authorized ∨ x.state = .emergency) ∧
        ∀ n, x.timer = some n → n ≤ x.applied.period * x.applied.window / 100)) ∧ P x) :
    ∃ x, s.Accepts a x ∧ P x := by
  obtain ⟨hm, hs, x, hx, hn, ht, hp⟩ := h
  exact ⟨x, ⟨hm, hx, hn, ht, hs⟩, hp⟩

/-- A report of carrier 5 with this front, speed and flags, its rear the same as its front. -/
def told (front speed flags : Nat) : ReportArgs := ⟨5, 8, front, 400, 65535, speed, flags⟩

/-- Carrier 5 MISSING from a state, where it stands in `s`. -/
def missing (s : State) (prior : CarrierState) : State :=
  s.onCarrier 5 (fun r => { r with state := .missing, prior := some prior })

/-- A lock of crane 0 on segment 5. -/
def under (s : State) : State := s.putSeg 5 { s.seg 5 with lock := ⟨[(0, ⟨true, false, false, false⟩)]⟩ }

/-- `routed` with its route at an end in the gate, where it stands. -/
def gated : State := { five (hold quay 0 (.held (.carrier 5) .route)) (fun r => { r with
    state := .authorized, timer := some 250, front := some 0, rear := some 0, lastSeq := some 7 }) with
  routes := ⟨[(5, { route with list := [0] })]⟩ }

theorem witness_AddressingAndSighting : (∃ x, (bench.radioArrival 0).carrier? 5 = some x ∧ x.lastSeq ≠ some 8) ∧
    (bench.radioArrival 0).mode = .config ∧ (bench.radio 0).state ≠ .unconfigured ∧
    (∃ x, (lost.radioArrival 0).carrier? 5 = some x ∧ x.lastSeq ≠ some 8 ∧ x.state = .lost) ∧
    (lost.radio 0).state ≠ .unconfigured :=
  ⟨⟨_, rfl, by decide +kernel⟩, by decide +kernel, by decide +kernel, ⟨_, rfl, by decide +kernel⟩, by decide +kernel⟩

/-- In EMERGENCY on ground it holds, on ground it does not hold, and nowhere; and in MISSING from each state, from
AUTHORIZED with and without a lock. -/
theorem witness_AcceptedReports : (stopped.radio 0).state ≠ .unconfigured ∧
    (∀ f ∈ [5, 7, 65535], ∃ x, (stopped.radioArrival 0).Accepts (told f 0 0) x ∧ x.state = .emergency) ∧
    (prepare (told 5 0 0)).ground = [5] ∧ (∃ k, ((stopped.radioArrival 0).seg 5).hold = .held (.carrier 5) k) ∧
    (prepare (told 7 0 0)).ground = [7] ∧ ((stopped.radioArrival 0).seg 7).hold = .free ∧
    (prepare (told 65535 0 0)).front = none ∧
    (∀ q ∈ [(idle, CarrierState.idle), (routed, .authorized), (under routed, .authorized), (stopped, .emergency)],
      ∃ x, ((missing q.1 q.2).radioArrival 0).Accepts (told 5 0 0) x ∧ x.state = .missing ∧ x.prior = some q.2) ∧
    (∀ i, (((missing routed .authorized).radioArrival 0).seg i).lock.rows = []) ∧
    (∃ k, (((missing (under routed) .authorized).radioArrival 0).seg 5).hold = .held (.carrier 5) k) ∧
    (((missing (under routed) .authorized).radioArrival 0).seg 5).lock.rows ≠ [] := by
  and_intros
  any_goals decide +kernel
  · intro f hf
    simp only [List.mem_cons, List.not_mem_nil, or_false] at hf
    rcases hf with rfl | rfl | rfl <;> exact accepts_of (by decide +kernel)
  · exact ⟨.route, by decide +kernel⟩
  · intro q hq
    simp only [List.mem_cons, List.not_mem_nil, or_false] at hq
    rcases hq with rfl | rfl | rfl | rfl <;> exact accepts_of (by decide +kernel)
  · exact segs_all (fun _ r => r.lock.rows = []) (by decide +kernel) (fun _ => rfl)
  · exact ⟨.route, by decide +kernel⟩

/-- At rest, and moving where nothing is locked, exactly at the start of the window. -/
theorem witness_IdleReport : ∀ v ∈ [0, 100],
    (idle.radio 0).state ≠ .unconfigured ∧ (idle.radioArrival 0).segs.Sorted ∧
    (idle.radioArrival 0).mode ≠ .config ∧
    (∃ x, ((idle.onCarrier 5 (fun r => { r with timer := some 250 })).radioArrival 0).carrier? 5 = some x ∧
      x.lastSeq ≠ some 8 ∧ x.state = .idle ∧
      (∀ n, x.timer = some n → n ≤ x.applied.period * x.applied.window / 100)) ∧
    (prepare ⟨5, 8, 5, 400, 65535, v, 0⟩).flags.fault = false ∧
    (prepare ⟨5, 8, 5, 400, 65535, v, 0⟩).front = some 5 ∧ (prepare ⟨5, 8, 5, 400, 65535, v, 0⟩).rear = some 5 ∧
    ((idle.radioArrival 0).seg 5).hold = .held (.carrier 5) .standing ∧
    (∀ i, ((idle.radioArrival 0).seg i).hold = .held (.carrier 5) .standing →
      ((idle.radioArrival 0).seg i).lock.rows = []) := by
  intro v hv
  simp only [List.mem_cons, List.not_mem_nil, or_false] at hv
  rcases hv with rfl | rfl
  all_goals
    and_intros
    any_goals decide +kernel
    exact segs_all (fun _ r => r.hold = .held (.carrier 5) .standing → r.lock.rows = []) (by decide +kernel)
      (fun _ h => nomatch h)

/-- FAULT, a deviation to a segment of crane 0, to a free one and to nowhere, and movement under a lock; a marked
segment, and one that is free. -/
theorem witness_IdleEmergencies : (idle.radio 0).state ≠ .unconfigured ∧
    (∀ q ∈ [(idle, told 5 0 2), (hold idle 6 (.held (.crane 0) .leg), told 6 0 0), (idle, told 6 0 0),
        (idle, told 65535 0 0), (under idle, told 5 1 0)],
      ∃ x, (q.1.radioArrival 0).Accepts q.2 x ∧ x.state = .idle) ∧
    (prepare (told 5 0 2)).flags.fault = true ∧ (prepare (told 6 0 0)).flags.fault = false ∧
    (prepare (told 6 0 0)).ground = [6] ∧ ((idle.radioArrival 0).seg 6).hold = .free ∧
    (((under idle).radioArrival 0).seg 5).hold = .held (.carrier 5) .standing ∧
    (((under idle).radioArrival 0).seg 5).lock.rows ≠ [] ∧ 0 < (prepare (told 5 1 0)).speed ∧
    0 ∈ (((under idle).radioArrival 0).seg 5).lock.keys ∧ 1 ∉ (((under idle).radioArrival 0).seg 5).lock.keys ∧
    ({ SegDyn.fresh with intruder := some (.crane 1) } : SegDyn).intruder ≠ none ∧ SegDyn.fresh.intruder = none ∧
    (∀ k, SegDyn.fresh.hold ≠ .held (.crane 1) k) := by
  and_intros
  any_goals decide +kernel
  · intro q hq
    simp only [List.mem_cons, List.not_mem_nil, or_false] at hq
    rcases hq with rfl | rfl | rfl | rfl | rfl <;> exact accepts_of (by decide +kernel)
  · exact fun k h => nomatch h

/-- On the way, front in entry 1 and rear in entry 0; and complete at rest at the stop of the last entry. -/
theorem witness_AuthorizedReport : (routed.radio 0).state ≠ .unconfigured ∧ (routed.radioArrival 0).segs.Sorted ∧
    (routed.radioArrival 0).mode ≠ .config ∧ (routed.radioArrival 0).route? 5 = some route ∧ route.list.Nodup ∧
    (∃ x, (routed.radioArrival 0).carrier? 5 = some x ∧ x.lastSeq ≠ some 8 ∧ x.state = .authorized ∧
      (∀ n, x.timer = some n → n ≤ x.applied.period * x.applied.window / 100)) ∧
    (∀ a ∈ [(⟨5, 8, 6, 400, 5, 100, 0⟩ : ReportArgs), ⟨5, 8, 7, 350, 7, 0, 0⟩], (prepare a).flags.fault = false) ∧
    (prepare ⟨5, 8, 6, 400, 5, 100, 0⟩).front = some 6 ∧ (prepare ⟨5, 8, 6, 400, 5, 100, 0⟩).rear = some 5 ∧
    route.list[1]? = some 6 ∧ route.list[0]? = some 5 ∧ route.front ≤ 1 ∧
    (prepare ⟨5, 8, 7, 350, 7, 0, 0⟩).front = some 7 ∧ (prepare ⟨5, 8, 7, 350, 7, 0, 0⟩).rear = some 7 ∧
    route.list[2]? = some 7 ∧ 2 + 1 = route.list.length ∧
    stopPos grid route = frontPos grid { route with front := 2 } 350 + 50 ∧
    (∀ i ∈ [5, 6, 7], ∃ k, ((routed.radioArrival 0).seg i).hold = .held (.carrier 5) k) := by
  and_intros
  any_goals decide +kernel
  refine fun i hi => ⟨.route, ?_⟩
  revert i
  decide +kernel

/-- FAULT on the route and off it, a deviation to a segment off the route, one that falls behind the front index, and
the gate exit. -/
theorem witness_AuthorizedEmergencies : (routed.radio 0).state ≠ .unconfigured ∧
    (∀ q ∈ [(routed, told 5 0 2), (routed, told 3 0 2), (routed, told 3 0 0), (gated, told 65535 0 0)],
      ∃ x, (q.1.radioArrival 0).Accepts q.2 x ∧ x.state = .authorized) ∧
    (prepare (told 5 0 2)).flags.fault = true ∧ (prepare (told 3 0 0)).flags.fault = false ∧
    3 ∉ route.list ∧ (routed.radioArrival 0).route? 5 = some route ∧
    (prepare (told 65535 0 0)).front = none ∧ ((gated.radioArrival 0).route? 5).isSome = true ∧
    ([0] : List Nat).getLast? = some 0 ∧ ([0] : List Nat).Nodup ∧
    (∃ x, (gated.radioArrival 0).carrier? 5 = some x ∧ x.front = some 0) ∧
    0 < (gated.radioArrival 0).grid.lanes * (gated.radioArrival 0).grid.bays ∧
    ((gated.radioArrival 0).grid.record 0).usable = true ∧ ((gated.radioArrival 0).grid.record 0).kind = .gate ∧
    ((gated.radioArrival 0).seg 0).holder = some (.carrier 5) := by
  and_intros
  any_goals decide +kernel
  intro q hq
  simp only [List.mem_cons, List.not_mem_nil, or_false] at hq
  rcases hq with rfl | rfl | rfl | rfl <;> exact accepts_of (by decide +kernel)

/-- Carrier 5 AWAY. -/
def away : State := five quay (fun r => { r with state := .away })

/-- From OFFLINE onto segment 5, onto segment 12, which is none of the grid, and nowhere; from AWAY onto the gate and
onto a lane segment. -/
theorem witness_EntryReport : (quay.radio 0).state ≠ .unconfigured ∧ (quay.radioArrival 0).mode ≠ .config ∧
    (∃ x, (quay.radioArrival 0).carrier? 5 = some x ∧ x.lastSeq ≠ some 8 ∧ x.state = .offline) ∧
    (∃ x, (away.radioArrival 0).carrier? 5 = some x ∧ x.lastSeq ≠ some 8 ∧ x.state = .away) ∧
    (∀ f ∈ [0, 5, 12], (prepare ⟨5, 8, f, 400, 65535, 0, 0⟩).flags.fault = false ∧
      (prepare ⟨5, 8, f, 400, 65535, 0, 0⟩).speed = 0 ∧ (prepare ⟨5, 8, f, 400, 65535, 0, 0⟩).front = some f ∧
      (prepare ⟨5, 8, f, 400, 65535, 0, 0⟩).rear = some f ∧ ((quay.radioArrival 0).seg f).hold = .free) ∧
    5 < (quay.radioArrival 0).grid.lanes * (quay.radioArrival 0).grid.bays ∧
    ¬ 12 < (quay.radioArrival 0).grid.lanes * (quay.radioArrival 0).grid.bays ∧
    ((away.radioArrival 0).grid.record 0).usable = true ∧ ((away.radioArrival 0).grid.record 0).kind = .gate ∧
    ((away.radioArrival 0).grid.record 5).kind ≠ .gate ∧ (prepare ⟨5, 8, 65535, 400, 65535, 0, 0⟩).front = none ∧
    (prepare ⟨5, 8, 65535, 400, 65535, 0, 0⟩).rear = none :=
  ⟨by decide +kernel, by decide +kernel, ⟨_, rfl, by decide +kernel⟩, ⟨_, rfl, by decide +kernel⟩, by decide +kernel⟩

/-- Each line of R62 in turn: FAULT; no front; a front and a rear just beyond the last segment; from AWAY in a lane and
in the gate; moving; and a front and a rear that crane 0 holds. -/
theorem witness_EntryReasons : (quay.radioArrival 0).grid.lanes * (quay.radioArrival 0).grid.bays = 12 ∧
    (prepare (told 5 0 2)).flags.fault = true ∧ (prepare ⟨5, 8, 65535, 400, 5, 0, 0⟩).front = none ∧
    (prepare (told 12 0 0)).front = some 12 ∧ (prepare ⟨5, 8, 11, 400, 12, 0, 0⟩).front = some 11 ∧
    (prepare ⟨5, 8, 11, 400, 12, 0, 0⟩).rear = some 12 ∧ ((away.radioArrival 0).grid.record 5).kind = .lane ∧
    ((away.radioArrival 0).grid.record 0).usable = true ∧ ((away.radioArrival 0).grid.record 0).kind = .gate ∧
    0 < (prepare (told 5 1 0)).speed ∧ (prepare (told 5 0 0)).speed = 0 ∧ (prepare (told 5 0 0)).flags.fault = false ∧
    (((hold quay 5 (.held (.crane 0) .leg)).radioArrival 0).seg 5).hold ≠ .free ∧
    (((hold quay 5 (.held (.crane 0) .leg)).radioArrival 0).seg 5).holder = some (.crane 0) ∧
    (((hold quay 5 (.held (.crane 0) .leg)).radioArrival 0).seg 6).hold = .free := by decide +kernel

/-- `queued` and `routed` with the supervision timer at 0; then MISSING with the grace timer at 0. -/
theorem witness_SupervisionAndGraceExpiry : (∀ p ∈ [(queued, CarrierState.idle), (routed, .authorized),
      (stopped, .emergency), (routed.onCarrier 5 (fun r => { r with state := .missing }), .missing)],
      ∃ r, (p.1.onCarrier 5 (fun r => { r with timer := some 0 })).carrier? 5 = some r ∧ r.timer = some 0 ∧
        r.state = p.2 ∧ p.1.segs.Sorted) ∧
    (∀ i, i ∈ [5, 6, 7] ↔ ∃ k, (routed.seg i).hold = .held (.carrier 5) k) := by
  constructor
  · intro p hp
    simp only [List.mem_cons, List.not_mem_nil, or_false] at hp
    rcases hp with rfl | rfl | rfl | rfl <;> exact ⟨_, rfl, by decide +kernel⟩
  · simp only [held_iff]
    exact segs_iff (fun r => r.heldBy (.carrier 5) = true) [5, 6, 7] (by decide +kernel) (by decide)
      (by decide +kernel)

/-! ## What the statements assume is met: authority and cranes -/

/-- A state with BLOCK on one segment. -/
def blocked (s : State) (i : Nat) : State := s.putSeg i { s.seg i with oos := ⟨true, false, false⟩ }

/-- No obstacle, the first obstacle at the entry after the front, and an obstacle under the front, which is the rear. -/
theorem witness_EndOfAuthority : (∃ r, routed.carrier? 5 = some r ∧ r.state = .authorized) ∧
    routed.route? 5 = some route ∧ route.front < route.list.length ∧
    (∀ k < 3, (routed.seg (route.list.getD k 0)).obstacle 5 = false) ∧
    ((blocked routed 6).seg (route.list.getD 1 0)).obstacle 5 = true ∧
    ((blocked routed 6).seg (route.list.getD 0 0)).obstacle 5 = false ∧ route.front < 1 ∧ 1 < route.list.length ∧
    ((blocked routed 5).seg (route.list.getD 0 0)).obstacle 5 = true ∧ route.rear ≤ 0 ∧ 0 ≤ route.front :=
  ⟨⟨_, rfl, by decide +kernel⟩, by decide +kernel⟩

/-- A carrier IDLE with a front and with a rear alone; one in EMERGENCY, and an IDLE one being deregistered, whose front
is its own, whose rear alone is, and that holds neither; one that is OFFLINE. -/
theorem witness_EndOfAuthority_others :
    (∃ r, idle.carrier? 5 = some r ∧ r.state = .idle ∧ r.front = some 5 ∧ r.rear = some 5) ∧
    (Carrier.fresh ClassVals.default).front = none ∧ (Carrier.fresh ClassVals.default).state = .offline ∧
    (∃ r, stopped.carrier? 5 = some r ∧ r.state = .emergency ∧ r.front = some 5 ∧ r.rear = some 5) ∧
    (stopped.seg 5).hold = .held (.carrier 5) .route ∧ (lost.seg 6).hold = .frozen (.carrier 5) .route ∧
    (∀ k, (quay.seg 5).hold ≠ .held (.carrier 5) k ∧ (quay.seg 5).hold ≠ .frozen (.carrier 5) k) :=
  ⟨⟨_, rfl, by decide +kernel⟩, rfl, rfl, ⟨_, rfl, by decide +kernel⟩, by decide +kernel, by decide +kernel,
    fun _ => ⟨fun h => (nomatch h), fun h => nomatch h⟩⟩

/-- Each state, each mode, an IDLE carrier with and without an obstacle under it, ends that fell and that did not, a
link that is UP, links that are DOWN, and a learning entry for one link. -/
theorem witness_AuthorityRun : stopped.mode = .active ∧ bench.mode ≠ .active ∧ idle.mode = .active ∧
    idle.segs.Sorted ∧ ((blocked idle 5).seg 5).hold = .held (.carrier 5) .standing ∧
    ((blocked idle 5).seg 5).obstacle 5 = true ∧
    (∀ i, (idle.seg i).hold = .held (.carrier 5) .standing → (idle.seg i).obstacle 5 = false) ∧
    (∃ r, routed.carrier? 5 = some r ∧ r.state = .authorized ∧ (routed.endPoint 5 r false).pos = some 2700 ∧
      (routed.endPoint 5 r false).blocked = false ∧
      routed.speedCode r route (routed.endPoint 5 r false) = 30 ∧
      ((blocked routed 5).endPoint 5 r false).blocked = true ∧
      (blocked routed 6).speedCode r route ((blocked routed 6).endPoint 5 r false) = 21 ∧
      routed.speedCode { r with speed := 1000 } route ((blocked routed 6).endPoint 5 r false) = 0) ∧
    (Work.start routed none).report ≠ some 5 ∧ 5 ∉ (Work.start routed none).bumped ∧
    5 ∉ (Work.start routed none).settled ∧ 5 ∈ ({ Work.start idle none with settled := [5] } : Work).settled ∧
    (∃ r, (routed.onCarrier 5 (fun r => { r with auth := { r.auth with endPos := some 2701 } })).carrier? 5 = some r ∧
      r.auth.endPos = some 2701) ∧
    (routed.radio 3).state = .up ∧ (State.reset.radio 3).state ≠ .up ∧ routed.learning.get? 5 = none ∧
    (({ routed with learning := ⟨[(5, ⟨3, 0, 4000⟩)]⟩ } : State).learning.get? 5) = some ⟨3, 0, 4000⟩ := by
  and_intros
  any_goals decide +kernel
  · exact segs_all (fun _ r => r.hold = .held (.carrier 5) .standing → r.obstacle 5 = false) (by decide +kernel)
      (fun _ h => nomatch h)

/-- The authority fields with the check cap at 300 and a fall to 100 pending until 5000 or until 2000. -/
def capped (until_ : Time) : AuthorityFields :=
  { AuthorityFields.fresh with lastCap := 300, checkCap := 300, pendingCap := some ⟨100, until_, 0⟩ }

/-- A carrier far from and at its end, the lowest limit of the ground, a pending fall that is due and one that is not,
and reports at the check cap and above it. -/
theorem witness_SpeedAndCheckCap : 75000000 < 2 ^ 40 ∧
    (∃ r, routed.carrier? 5 = some r ∧ (routed.endPoint 5 r false).pos = some 2700 ∧
      0 < effectiveDistance 2700 (frontPos grid route r.frontRem) r.speed r.applied ∧
      effectiveDistance 840 (frontPos grid route r.frontRem) r.speed r.applied = 0 ∧
      (routed.endPoint 5 r false).entry = 2) ∧
    route.rear ≤ 2 ∧ 2 < route.list.length ∧ (∀ k < 3, 300 = (grid.record (route.list.getD k 0)).limit) ∧
    1 ≤ ClassVals.default.decel ∧ (capped 5000).pendingCap = some ⟨100, 5000, 0⟩ ∧
    ¬ (((5000 : Time) - 0).toNat ≤ ((2000 : Time) - 0).toNat) ∧ ((2000 : Time) - 0).toNat ≤ ((2000 : Time) - 0).toNat ∧
    (300 = (capped 5000).lastCap) ∧ (301 ≠ (capped 5000).lastCap ∧ (capped 5000).checkCap ≤ 301) ∧
    (299 ≠ (capped 5000).lastCap ∧ 299 < (capped 5000).checkCap) ∧
    (∃ r, (Work.start idle (some 5)).s.carrier? 5 = some r ∧ r.state = .idle ∧
      r.speed ≤ (r.auth.promote idle.now).checkCap + r.applied.overTol) ∧
    (∃ r, (Work.start (atSpeed 31) (some 5)).s.carrier? 5 = some r ∧ r.state = .authorized ∧
      (r.auth.promote (atSpeed 31).now).checkCap + r.applied.overTol < r.speed) := by
  and_intros
  all_goals decide +kernel

/-- A run that a report has started: a report above the cap of an IDLE carrier with a pending entry, and one of a
carrier in EMERGENCY, which is not tested. -/
theorem witness_RunOfAReport : (Work.start queued (some 5)).report = some 5 ∧
    (∃ r, (queued.onCarrier 5 (fun r => { r with speed := 31 })).carrier? 5 = some r ∧ r.state = .idle ∧
      (r.auth.promote queued.now).checkCap + r.applied.overTol < r.speed) ∧
    (queued.entry? 5).toList = [entry] ∧
    (∃ r, stopped.carrier? 5 = some r ∧ r.state ≠ .idle ∧ r.state ≠ .authorized) := by
  and_intros
  all_goals decide +kernel

/-- Geometry with the largest values, and with a slot lane that no grid has. -/
def geometry (lane : Nat) : GeometryArgs := ⟨1, 4, 1, 2, 3, lane, 0, 15⟩

/-- Operating fields with the largest values of the two enumerations. -/
def operating : OperatingArgs := ⟨255, 500, 60001, 3, 0, 1, 3, 99⟩

theorem witness_SetCrane : bench.hasRoom .a ∧ quay.hasRoom .a ∧ (8 : Nat) ≤ 8 ∧ (7 : Nat) < 8 ∧
    (quay.taken .a).mode ≠ .config ∧ (bench.taken .a).mode = .config ∧
    (1 ≤ (geometry 15).slotCount ∧ (geometry 15).slotCount ≤ 4 ∧ (∀ x ∈ [1, 2, 3, 15].take 4, x < 16) ∧
      (geometry 15).waterside < 16 ∧ (geometry 15).landside < 16 ∧ (geometry 15).present ≤ 1 ∧ operating.fault ≤ 1 ∧
      operating.crossing ≤ 3) ∧
    ¬ (∀ x ∈ [1, 2, 3, 16].take 4, x < 16) ∧ ¬ (({ operating with crossing := 4 } : OperatingArgs).crossing ≤ 3) := by
  decide +kernel

theorem witness_SetCrane_selector : 2 ≤ 2 ∧ 2 ≤ 255 ∧ (8 : Nat) ≤ 8 ∧ (7 : Nat) < 8 ∧ bench.hasRoom .a := by decide +kernel

/-- Crane 0 with a record in another state. -/
def craneAs (f : Crane → Crane) : State := standing.onCrane 0 f

theorem witness_ClearCrane : standing.hasRoom .a ∧ (standing.taken .a).segs.Sorted ∧
    (standing.taken .a).mode ≠ .config ∧ ((quay.taken .a).crane 0).state = .offline ∧ ((0 : Nat) < 8) ∧
    (((craneAs (fun c => { c with filtered := .unknown })).taken .a).crane 0).filtered ≠ .up ∧
    ((standing.taken .a).crane 0).state = .standing ∧ ((standing.taken .a).crane 0).filtered = .up ∧
    (((craneAs (fun c => { c with state := .halted, flags := ⟨true, false⟩ })).taken .a).crane 0).flags.stopped = true ∧
    (((craneAs (fun c => { c with state := .halted, flags := ⟨true, false⟩ })).taken .a).crane 0).episode = false ∧
    (∀ i ∈ [0, 8], ∃ x, ((standing.taken .a).seg i).hold = .held (.crane 0) x) ∧
    (∀ i, i ∈ [1] ↔ i ∉ [0, 8] ∧
      ∃ x, (((hold standing 1 (.held (.crane 0) .travel)).taken .a).seg i).hold = .held (.crane 0) x) ∧
    (((craneAs (fun c => { c with state := .linkLost })).taken .a).crane 0).state = .linkLost ∧
    (∀ i, i ∈ [0, 8] ↔ ((standing.taken .a).seg i).holder = some (.crane 0)) := by
  and_intros
  any_goals decide +kernel
  · refine fun i hi => ⟨.leg, ?_⟩
    revert i
    decide +kernel
  · intro i
    have h := segs_iff (s := (hold standing 1 (.held (.crane 0) .travel)).taken .a)
      (fun r => r.heldBy (.crane 0) = true) [0, 1, 8] (by decide +kernel) (by decide) (by decide +kernel) i
    simp only [held_iff]
    rw [← h]
    simp
    omega
  · exact segs_iff (fun r => r.holder = some (.crane 0)) [0, 8] (by decide +kernel) (by decide) (by decide +kernel)

/-- A crane LINK_LOST with and without a void claim, and one HALTED with a mark and VIOLATION to take off. -/
theorem witness_ClearCrane_marks :
    (∀ m ∈ [none, some { claim with void := true }],
      (((craneAs (fun c => { c with state := .linkLost, claim := m })).taken .a).crane 0).claim = m) ∧
    (((standing.putSeg 5 ⟨.free, ⟨[(0, ⟨false, true, false, false⟩)]⟩, ⟨false, false, false⟩,
      some (.crane 0)⟩).taken .a).seg 5).intruder = some (.crane 0) ∧
    ((((standing.putSeg 5 ⟨.free, ⟨[(0, ⟨false, true, false, false⟩)]⟩, ⟨false, false, false⟩,
      some (.crane 0)⟩).taken .a).seg 5).reasonsOf 0).violation = true := by decide +kernel

/-- One CLEAR_CRANE for each check of R112. -/
theorem test_clear_crane_refusals :
    answer (.clearCrane .a 0) { standing with mode := .config } = some (.badMode, []) ∧
    answer (.clearCrane .a 8) standing = some (.unknownCrane, []) ∧
    answer (.clearCrane .a 0) quay = some (.badCraneState, []) ∧
    answer (.clearCrane .a 0) (craneAs (fun c => { c with filtered := .unknown })) = some (.hoistDown, []) ∧
    answer (.clearCrane .a 0) (craneAs (fun c => { c with state := .halted })) = some (.moving, []) ∧
    answer (.clearCrane .a 0) (craneAs (fun c => { c with state := .halted, flags := ⟨true, false⟩, episode := true })) =
      some (.faultActive, []) ∧
    answer (.clearCrane .a 0) (hold (craneAs (fun c => { c with state := .halted, flags := ⟨true, false⟩ })) 8
      (.held (.carrier 5) .route)) = some (.conflict, .half 8 :: partyVals (some (.carrier 5))) := by
  and_intros
  all_goals decide +kernel

/-- The first check of SET_SEGMENT, SET_COPY_RULE, SET_CRANE, SET_RADIO and BROADCAST_CONFIG fails; and a later one
with the first passed. -/
theorem witness_ConfigurationRefused : quay.hasRoom .a ∧
    (∀ rest,
      FirstFails ((Reason.badMode, fun (d : List Val) => (quay.taken .a).mode ≠ .config ∧ d = []) :: rest) .badMode [] ∧
      FirstFails ((Reason.badMode, fun (d : List Val) => (bench.taken .a).mode ≠ .config ∧ d = []) ::
        (.badSegment, fun d => (bench.taken .a).grid.lanes * (bench.taken .a).grid.bays ≤ 12 ∧ d = [.half 12]) :: rest)
        .badSegment [.half 12] ∧
      FirstFails ((Reason.badValue, fun (d : List Val) => 4 ≤ 4 ∧ d = [.field 0]) :: rest) .badValue [.field 0] ∧
      FirstFails ((Reason.unknownCrane, fun (d : List Val) => 8 ≤ 8 ∧ d = []) :: rest) .unknownCrane [] ∧
      FirstFails ((Reason.badValue, fun (d : List Val) => 4 ≤ 4 ∧ d = [.field 4]) :: rest) .badValue [.field 4]) ∧
    (∃ pre x post, [⟨1, 99⟩, ⟨1, 100⟩, ⟨1, 2000⟩, (⟨2, 2001⟩ : RadioSetting)] = pre ++ x :: post ∧
      (∀ y ∈ pre, y.configured ≤ 1) ∧ 2 ≤ x.configured) :=
  ⟨by decide +kernel,
    fun _ => ⟨.inl ⟨rfl, by decide +kernel, rfl⟩,
      .inr ⟨fun _ h => absurd h.1 (by decide +kernel), .inl ⟨rfl, by decide +kernel, rfl⟩⟩,
      .inl ⟨rfl, Nat.le_refl 4, rfl⟩, .inl ⟨rfl, Nat.le_refl 8, rfl⟩, .inl ⟨rfl, Nat.le_refl 4, rfl⟩⟩,
    [⟨1, 99⟩, ⟨1, 100⟩, ⟨1, 2000⟩], ⟨2, 2001⟩, [], rfl, by decide +kernel, by decide⟩

/-- The field that BAD_VALUE names, for a value out of each enumeration; where two are bad, the one named first. -/
theorem test_fields_at_fault :
    [({ lastCells with usable := 2, kind := 2 } : SegmentArgs), { lastCells with kind := 2 },
      { lastCells with crossNext := 2 }, { lastCells with closure := 4 }].map (fun a =>
        answer (.setSegment .a a) bench) = [2, 3, 6, 7].map (fun n => some (.badValue, [.field n])) ∧
    [(⟨4, 1, 1, 127, 127, 2, 1⟩ : CopyArgs), ⟨3, 2, 2, 127, 127, 2, 1⟩, ⟨3, 1, 1, 127, 127, 3, 1⟩,
      ⟨3, 1, 1, 127, 127, 2, 2⟩, ⟨3, 2, 1, 127, 127, 2, 1⟩].map (fun a => answer (.setCopyRule .a a) bench) =
        [0, 2, 5, 6, 1].map (fun n => some (.badValue, [.field n])) ∧
    [{ geometry 15 with slotCount := 5 }, geometry 16, { geometry 15 with waterside := 16 },
      { geometry 15 with landside := 16 }, { geometry 15 with present := 2 }].map (fun g =>
        answer (.setCrane .a 7 0 g operating) bench) = [3, 7, 8, 9, 2].map (fun n => some (.badValue, [.field n])) ∧
    [{ operating with fault := 2 }, { operating with crossing := 4 }].map (fun o =>
        answer (.setCraneOperating .a 7 o) quay) = [15, 16].map (fun n => some (.badValue, [.field n])) ∧
    answer (.setClass .a ⟨3, 0, 0, 0, 0, 0, 0, 0, 2, 0, 0⟩) quay = some (.badValue, [.field 8]) := by
  and_intros
  all_goals decide +kernel

/-- A first report of crane 0 at bay 3, with the hoist just above and just below the clearance over slot 0. -/
theorem witness_CraneFrames : (quay.craneCfg 0).present = true ∧ (quay.craneCfg 1).present = false ∧
    decodeCrane 1 0x10 [0, 0, 0, 0] = .badLength ∧
    ((standing.craneArrival 0).crane 0).lastSeq = some 1 ∧ ((quay.craneArrival 0).crane 0).lastSeq ≠ some 1 ∧
    (bench.craneArrival 0).mode = .config ∧ (quay.craneArrival 0).mode ≠ .config ∧
    ((quay.craneArrival 0).crane 0).state = .offline ∧ ((quay.craneArrival 0).crane 0).episode = false ∧
    3 < (quay.craneArrival 0).grid.bays ∧ 2 ≤ (quay.craneCfg 0).filter ∧
    (∀ i ∈ [0 * 4 + 3, 2 * 4 + 3], ((quay.craneArrival 0).seg i).hold = .free) ∧
    6000 ≤ (quay.craneCfg 0).ceiling ∧ (quay.craneCfg 0).clearance = 6000 ∧
    0 < (quay.craneCfg 0).slotLanes.length ∧ 1 / 2 % 2 = 0 := by decide +kernel

/-- Crane 0 TRAVELLING from bay 1 to bay 3, its legs in segments 1 and 9, the cells ahead its own. -/
def underway : State :=
  { standing with segs := ⟨(List.range 12).map (fun i => (i, { SegDyn.fresh with
      hold := if i = 1 ∨ i = 9 then .held (.crane 0) .leg
        else if i = 2 ∨ i = 3 ∨ i = 10 ∨ i = 11 then .held (.crane 0) .travel else .free }))⟩ }.onCrane 0 (fun c =>
    { c with state := .travelling, bay := some 1, target := some 3 })

/-- A report in each state at the last bay and beyond it; a first report where carrier 5 holds a leg cell. -/
theorem witness_CraneReports : (standing.craneCfg 0).present = true ∧
    (∀ st ∈ [CraneState.offline, .standing, .travelling, .halted, .linkLost],
      (((craneAs (fun c => { c with state := st })).craneArrival 0).crane 0).state = st) ∧
    ((standing.craneArrival 0).crane 0).lastSeq ≠ some 2 ∧ (standing.craneArrival 0).mode ≠ .config ∧
    3 < (standing.craneArrival 0).grid.bays ∧ (standing.craneArrival 0).grid.bays ≤ 4 ∧
    (hold quay 3 (.held (.carrier 5) .standing)).segs.Sorted ∧
    (hold quay 3 (.held (.carrier 5) .standing)).foreign 0
      ((hold quay 3 (.held (.carrier 5) .standing)).legsAt 0 3) = [3] := by decide +kernel

/-- Crane 0 placed at bay 3 on free ground, and where it holds a leg cell already. -/
theorem witness_CranePlaced : quay.segs.Sorted ∧ quay.foreign 0 (quay.legsAt 0 3) = [] ∧
    (hold quay 3 (.held (.crane 0) .travel)).foreign 0 (quay.legsAt 0 3) = [] := by decide +kernel

/-- What the entries that precede a lock or a mark name (R36, R69): a carrier that is asked, by its state. -/
theorem test_asked_entries :
    queued.askEntries .gantryViolation none 5 =
      [⟨.carrierState, 0, .carrier 5, [.byte 2, .byte 4, .byte 4]⟩, ⟨.pendingStale, 0, .carrier 5, [.half 9, .byte 0]⟩] ∧
    routed.lockEntries ⟨false, true, false, false⟩ [5, 6] =
      [⟨.carrierState, 0, .carrier 5, [.byte 3, .byte 4, .byte 3, .byte 2]⟩] ∧
    lost.askEntries .gantryViolation none 5 = [] := by decide +kernel

/-- The travel range from its own bay to the target, the bays just outside it, and another bay while STANDING with a
claim and without. -/
theorem witness_CraneBays : underway.segs.Sorted ∧ (underway.crane 0).state = .travelling ∧
    (underway.crane 0).bay = some 1 ∧ (underway.crane 0).target = some 3 ∧ (underway.crane 0).claim = none ∧
    1 < underway.grid.bays ∧ 3 < underway.grid.bays ∧
    (∀ b ∈ [1, 2, 3], (1 ≤ b ∧ b ≤ 3) ∨ (3 ≤ b ∧ b ≤ 1)) ∧ (∀ b ∈ [0, 4], ¬ ((1 ≤ b ∧ b ≤ 3) ∨ (3 ≤ b ∧ b ≤ 1))) ∧
    underway.legsFrom 0 1 3 = [1, 9, 2, 10, 3, 11] ∧ underway.legsFrom 0 3 1 = [3, 11, 2, 10, 1, 9] ∧
    (standing.crane 0).state = .standing ∧ (standing.crane 0).bay = some 0 ∧ (1 : Nat) ≠ 0 ∧
    (standing.crane 0).claim = none ∧ (claimed.crane 0).claim = some claim ∧ claimed.claimCell 0 claim = 4 := by
  decide +kernel

/-- Crane 0 with a claim in a phase. -/
def claimIn (phase : ClaimPhase) : State :=
  claimed.onCrane 0 (fun c => { c with claim := some { claim with phase := phase } })

theorem witness_HoistFilterAndCrossings : (1 : Nat) ≤ 1 ∧ (1 : Nat) ≤ 8 ∧
    (Crane.fresh 0 0 0).candidate ≠ some .up ∧
    ({ Crane.fresh 0 0 0 with candidate := some .up } : Crane).candidate = some .up ∧ (0 : Nat) ≠ 1 ∧
    (∀ p ∈ [ClaimPhase.granted, .inUse, .raised],
      (((Work.start (claimIn p) none).s.crane 0).claim = some { claim with phase := p }) ∧
      ((Work.start (claimIn p) none).s.crane 0).state = .standing ∧
      ((Work.start (claimIn p) none).s.craneCfg 0).enable.getLsbD 0 = true) ∧
    claim.slot = 0 ∧ claim.void = false ∧ ((Work.start standing none).s.crane 0).claim = none ∧
    ((hold standing 4 (.held (.carrier 5) .standing)).seg 4).hold = .held (.carrier 5) .standing ∧
    (five standing (fun r => { r with state := .idle })).carrier? 5 =
      some { Carrier.fresh ClassVals.default with state := .idle } := by decide +kernel

/-- What keeps a crossing down at slot 0 from a claim: none, a void one, one on slot 1, one IN_USE, a slot that is
disabled, a crane that is not STANDING; and a carrier MISSING over the segment. -/
theorem witness_HoistViolations : (standing.crane 0).claim = none ∧
    ((claimed.onCrane 0 (fun c => { c with claim := some { claim with void := true } })).crane 0).claim =
      some { claim with void := true } ∧
    ((claimed.onCrane 0 (fun c => { c with claim := some { claim with slot := 1 } })).crane 0).claim =
      some { claim with slot := 1 } ∧
    ((claimIn .inUse).crane 0).claim = some { claim with phase := .inUse } ∧
    (({ claimed with cfg := { berth with cranes := berth.cranes.put 0 { CraneConfig.default with enable := 14 } } } :
      State).craneCfg 0).enable.getLsbD 0 = false ∧
    ((claimed.onCrane 0 (fun c => { c with state := .halted })).crane 0).state ≠ .standing ∧
    (five (hold standing 4 (.held (.carrier 5) .route)) (fun r => { r with state := .missing })).carrier? 5 =
      some { Carrier.fresh ClassVals.default with state := .missing } ∧
    ((claimIn .granted).crane 0).claim = some claim := by decide +kernel

/-- Crane 0 with another sample in its record. -/
def sampled (trolley : Option Nat) (height : Nat) (fault episode : Bool) : State :=
  craneAs (fun c => { c with trolley := trolley, height := height, flags := ⟨true, fault⟩, episode := episode })

/-- Samples just below and at the clearance height, with no slot, above the ceiling, over a slot that is not in the
list, and with the sensor fault, each policy; and the fault run below and at its length. -/
theorem witness_Samples : (standing.craneCfg 0).clearance = 6000 ∧ (standing.craneCfg 0).ceiling = 50000 ∧
    (standing.craneCfg 0).slotLanes.length = 1 ∧ (standing.craneCfg 0).fault = .slot ∧ standing.segs.Sorted ∧
    sampleClass (standing.craneCfg 0) ((sampled (some 0) 5999 false false).crane 0) = .down 0 ∧
    sampleClass (standing.craneCfg 0) ((sampled (some 0) 6000 false false).crane 0) = .up ∧
    sampleClass (standing.craneCfg 0) ((sampled none 0 false false).crane 0) = .up ∧
    faultCause (standing.craneCfg 0) ((sampled (some 0) 50000 false true).crane 0) true = none ∧
    faultCause (standing.craneCfg 0) ((sampled (some 0) 50001 true false).crane 0) true = some .height ∧
    faultCause (standing.craneCfg 0) ((sampled (some 1) 50000 false false).crane 0) true = some .trolley ∧
    faultCause (standing.craneCfg 0) ((sampled none 50000 true true).crane 0) true = some .sensor ∧
    faultCause { standing.craneCfg 0 with fault := .all } ((sampled none 0 false true).crane 0) false = some .bay ∧
    ((sampled none 0 false true).crane 0).episode = true ∧ ((sampled none 0 false false).crane 0).episode = false ∧
    ((sampled none 0 false true).crane 0).faultRun + 1 < 2 ∧ 1 ≤ ((sampled none 0 false true).crane 0).faultRun + 1 ∧
    crossingsOf .up (.down 0) = [⟨0, true⟩] ∧ (HoistClass.up ≠ .down 0) := by decide +kernel

/-- A claim to grant over a free segment and under carrier 5 at rest; one to release; one whose deadline is reached
and one with 1 ms left. -/
theorem witness_Claims : standing.segs.Sorted ∧ (standing.craneCfg 0).present = true ∧ standing.craneRoom 0 ∧
    (standing.craneArrival 0).mode = .active ∧ ((standing.craneArrival 0).crane 0).state = .standing ∧
    ((standing.craneArrival 0).crane 0).claim = none ∧ 0 < (standing.craneCfg 0).slotLanes.length ∧
    (standing.craneCfg 0).enable.getLsbD 0 = true ∧ ((standing.craneArrival 0).seg 4).hold = .free ∧
    ((standing.craneArrival 0).seg 4).oos = ⟨false, false, false⟩ ∧
    ((standing.craneArrival 0).seg 4).intruder = none ∧ ((standing.craneArrival 0).seg 4).lock.rows = [] ∧
    ((five (hold standing 4 (.held (.carrier 5) .standing)) (fun r => { r with state := .idle })).craneArrival
      0).carrier? 5 = some { Carrier.fresh ClassVals.default with state := .idle } ∧
    ((claimed.craneArrival 0).crane 0).claim = some claim ∧ ((claimed.craneArrival 0).crane 0).state ≠ .linkLost ∧
    claim.phase ≠ .inUse ∧ claim.void = false ∧ (claimed.crane 0).claim = some claim ∧
    ((19999 : Time) - claim.start).toNat < claim.window ∧ claim.window ≤ ((20000 : Time) - claim.start).toNat := by
  decide +kernel

/-- Crane 0 with 16 replies waiting on its link. -/
def heaped : State := standing.onCraneLink 0 (fun l => { l with queue := List.replicate 16 (.reply beat) })

/-- Crane 0 STANDING with another record of its slot segment. -/
def slotAs (f : SegDyn → SegDyn) : State := standing.putSeg 4 (f (standing.seg 4))

/-- What each check of LOWER_REQUEST and SLOT_RELEASE meets where it fails, in the order of the checks. -/
theorem witness_Claims_refused : (bench.craneArrival 0).mode ≠ .active ∧
    ((underway.craneArrival 0).crane 0).state = .travelling ∧ ((underway.craneArrival 0).crane 0).target = some 3 ∧
    (((craneAs (fun c => { c with state := .halted })).craneArrival 0).crane 0).state = .halted ∧
    (((craneAs (fun c => { c with state := .linkLost })).craneArrival 0).crane 0).state = .linkLost ∧
    ((claimed.craneArrival 0).crane 0).claim = some claim ∧ (standing.craneCfg 0).slotLanes.length ≤ 1 ∧
    (({ standing with cfg := { berth with cranes := berth.cranes.put 0 { CraneConfig.default with
      present := true, enable := 14 } } } : State).craneCfg 0).enable.getLsbD 0 = false ∧
    (((blocked standing 4).craneArrival 0).seg 4).oos ≠ ⟨false, false, false⟩ ∧
    (((slotAs (fun r => { r with intruder := some (.carrier 6) })).craneArrival 0).seg 4).intruder ≠ none ∧
    (((slotAs (fun r => { r with lock := ⟨[(1, ⟨false, false, false, true⟩)]⟩ })).craneArrival 0).seg 4).lock.rows ≠
      [] ∧
    (((slotAs (fun r => { r with hold := .held (.carrier 5) .route })).craneArrival 0).seg 4).hold =
      .held (.carrier 5) .route ∧
    (((claimIn .inUse).craneArrival 0).crane 0).claim = some { claim with phase := .inUse } ∧
    ¬ heaped.craneRoom 0 ∧ (heaped.craneCfg 0).present = true ∧ (standing.craneCfg 1).present = false := by
  decide +kernel

/-- The bay beyond the grid, the crane's own bay, and the last bay. -/
theorem witness_GantryRequest : (standing.craneCfg 0).present = true ∧ standing.craneRoom 0 ∧
    (standing.craneArrival 0).mode = .active ∧ ((standing.craneArrival 0).crane 0).state = .standing ∧
    ((standing.craneArrival 0).crane 0).bay = some 0 ∧ (standing.craneArrival 0).grid.bays ≤ 4 ∧
    3 < (standing.craneArrival 0).grid.bays ∧ ((standing.craneArrival 0).crane 0).filtered = .up ∧
    ((standing.craneArrival 0).crane 0).claim = none ∧
    (∀ lane ∈ (standing.craneCfg 0).slotLanes, ((standing.craneArrival 0).seg (lane * 4 + 0)).lock.rows = []) ∧
    (∀ i, i ∈ [1, 2, 3, 9, 10, 11] ↔
      ∃ x, ((0 < x ∧ x ≤ 3) ∨ (3 ≤ x ∧ x < 0)) ∧ (i = 0 * 4 + x ∨ i = 2 * 4 + x)) ∧
    (∀ i ∈ [1, 2, 3, 9, 10, 11], ((standing.craneArrival 0).seg i).hold = .free ∧
      ((standing.craneArrival 0).seg i).oos = ⟨false, false, false⟩ ∧
      ((standing.craneArrival 0).seg i).intruder = none) := by
  and_intros
  any_goals decide +kernel
  intro i
  constructor
  · intro h
    have h' : i = 1 ∨ i = 2 ∨ i = 3 ∨ i = 9 ∨ i = 10 ∨ i = 11 := by simpa using h
    rcases h' with rfl | rfl | rfl | rfl | rfl | rfl
    · exact ⟨1, by omega, .inl rfl⟩
    · exact ⟨2, by omega, .inl rfl⟩
    · exact ⟨3, by omega, .inl rfl⟩
    · exact ⟨1, by omega, .inr rfl⟩
    · exact ⟨2, by omega, .inr rfl⟩
    · exact ⟨3, by omega, .inr rfl⟩
  · rintro ⟨x, hx, hi⟩
    simp
    omega

/-- What each check of GANTRY_REQUEST meets where it fails: the hoist, a claim, a lock over the only slot, and at the
cells toward bay 3 one that is held, one that is blocked and one with an intruder, the last of them too. -/
theorem witness_GantryRequest_refused :
    (((craneAs (fun c => { c with filtered := .unknown })).craneArrival 0).crane 0).filtered ≠ .up ∧
    ((claimed.craneArrival 0).crane 0).claim ≠ none ∧ (standing.craneCfg 0).slotLanes = [] ++ 1 :: [] ∧
    (((slotAs (fun r => { r with lock := ⟨[(1, ⟨false, true, false, false⟩), (2, ⟨false, false, true, false⟩)]⟩
      })).craneArrival 0).seg 4).lock.rows = [(1, ⟨false, true, false, false⟩), (2, ⟨false, false, true, false⟩)] ∧
    ((standing.craneArrival 0).legsFrom 0 0 3).drop 2 = [1, 9, 2, 10, 3] ++ 11 :: [] ∧
    (∀ j ∈ [1, 9, 2, 10, 3], ((standing.craneArrival 0).seg j).hold = .free ∧
      ((standing.craneArrival 0).seg j).oos = ⟨false, false, false⟩ ∧
      ((standing.craneArrival 0).seg j).intruder = none) ∧
    (((hold standing 11 (.held (.carrier 5) .route)).craneArrival 0).seg 11).hold ≠ .free ∧
    (((blocked standing 11).craneArrival 0).seg 11).oos ≠ ⟨false, false, false⟩ ∧
    (((standing.putSeg 11 { SegDyn.fresh with intruder := some (.carrier 5) }).craneArrival 0).seg 11).intruder ≠
      none := by decide +kernel

theorem witness_CraneLinkDownAndTransmission : standing.segs.Sorted ∧
    (∀ st ∈ [CraneState.standing, .travelling, .halted],
      ((craneAs (fun c => { c with state := st, timer := some 0 })).crane 0).state = st ∧
      ((craneAs (fun c => { c with state := st, timer := some 0 })).crane 0).timer = some 0) ∧
    (quay.crane 0).state = .offline ∧ ((craneAs (fun c => { c with state := .linkLost })).crane 0).state = .linkLost ∧
    (quay.craneLink 0).queue = [] ∧
    ((quay.onCraneLink 0 (fun x => { x with queue := [.hoistStop none] })).craneLink 0).queue =
      .hoistStop none :: [] := by decide +kernel

/-- Crane 0 lost under way, its cells FROZEN, and carrier 5 in segment 3. -/
def drifting : State := hold { underway with segs := underway.segs.mapVals SegDyn.freeze } 3
  (.held (.carrier 5) .standing)

/-- `drifting` once the crane has reported at bay 2, and at bay 3, where carrier 5 holds a leg cell. -/
def landed (b : Nat) : State :=
  { drifting with segs := ⟨(List.range 12).map (fun i => (i, { drifting.seg i with
    hold := if i ∈ drifting.legsAt 0 b ∧ ((drifting.seg i).hold = .free ∨
        (drifting.seg i).holder = some (.crane 0)) then .held (.crane 0) .leg
      else if (drifting.seg i).frozenBy (.crane 0) = true then .free else (drifting.seg i).hold }))⟩ }

/-- The return from STANDING with a void claim and without, from HALTED, and from travel to free and to held ground. -/
theorem witness_CraneReturns : drifting.segs.Sorted ∧
    (∀ m ∈ [none, some { claim with void := true }], ∀ st ∈ [CraneState.standing, .halted, .travelling],
      ((craneAs (fun c => { c with state := .linkLost, before := some st, claim := m })).crane 0).before = some st ∧
      ((craneAs (fun c => { c with state := .linkLost, before := some st, claim := m })).crane 0).claim = m) ∧
    (∀ b ∈ [2, 3], ∀ i, (landed b).seg i = { drifting.seg i with
      hold := if i ∈ drifting.legsAt 0 b ∧ ((drifting.seg i).hold = .free ∨
          (drifting.seg i).holder = some (.crane 0)) then .held (.crane 0) .leg
        else if (drifting.seg i).frozenBy (.crane 0) = true then .free else (drifting.seg i).hold }) ∧
    (landed 2).foreign 0 (drifting.legsAt 0 2) = [] ∧ (landed 3).foreign 0 (drifting.legsAt 0 3) = [3] ∧
    (drifting.seg 1).frozenBy (.crane 0) = true := by
  and_intros
  any_goals decide +kernel
  intro b hb i
  by_cases h : i < 12
  · revert i
    simp only [List.mem_cons, List.not_mem_nil, or_false] at hb
    rcases hb with rfl | rfl <;> decide +kernel
  · have hl : i ∉ drifting.legsAt 0 b := by
      have e : drifting.legsAt 0 b = [0 * 4 + b, 2 * 4 + b] := rfl
      simp only [List.mem_cons, List.not_mem_nil, or_false] at hb
      rw [e]
      simp
      omega
    have none_of : ∀ s : State, s.segs.keys = List.range 12 → s.seg i = SegDyn.fresh := fun s hs => by
      unfold State.seg Table.get
      cases e : s.segs.get? i with
      | none => rfl
      | some r =>
        have hm : i ∈ s.segs.keys := (Table.mem_keys i).2 (by rw [e]; rfl)
        rw [hs] at hm
        exact absurd (List.mem_range.1 hm) h
    have h1 := none_of drifting (by decide +kernel)
    have h2 := none_of (landed b) (by simp only [landed, Table.keys, List.map_map, Function.comp_def, List.map_id'])
    rw [h1, h2, if_neg (fun hc => hl hc.1)]
    rfl

/-! ## What the statements assume is met: radio links, picture, modes and line -/

/-- What SET_RADIO carries to keep the four links configured, and with link 3 taken out or out of its enumeration. -/
def settings (last : Nat) : RadioArgs := ⟨0, ⟨1, 99⟩, ⟨1, 100⟩, ⟨1, 2000⟩, ⟨last, 2001⟩⟩

/-- The field that BAD_VALUE names in SET_RADIO and BROADCAST_CONFIG, and a link taken out outside CONFIG. -/
theorem test_radio_and_broadcast_refusals :
    answer (.setRadio .a (settings 2)) bench = some (.badValue, [.field 7]) ∧
    answer (.setRadio .a (settings 0)) quay = some (.badMode, []) ∧
    answer (.broadcastConfig .a ⟨0, 1, 0, 1, 4, 100, 2⟩) quay = some (.badValue, [.field 4]) ∧
    answer (.broadcastConfig .a ⟨0, 1, 0, 1, 3, 100, 2⟩) quay = some (.badValue, [.field 6]) := by
  and_intros
  all_goals decide +kernel

theorem witness_SetRadio : bench.hasRoom .a ∧ quay.hasRoom .a ∧ (quay.taken .a).mode ≠ .config ∧
    (bench.taken .a).mode = .config ∧ (∀ r < 4, ((quay.taken .a).radioCfg r).configured = true) ∧
    2 ≤ (settings 2).link3.configured ∧ (settings 0).link3.configured ≤ 1 ∧ (settings 1).link3.configured = 1 ∧
    (∀ x ∈ [(settings 1).link0, (settings 1).link1, (settings 1).link2, (settings 1).link3], x.configured = 1) := by
  decide +kernel

/-- Link 3 taken out while it is UP with a learning entry, and while it is DOWN; link 3 added. -/
theorem witness_SetRadio_links : ((bench.taken .a).radio 3).state = .up ∧ ((settings 0).link3.configured = 0) ∧
    (((bench.onRadio 3 (fun _ => RadioLink.fresh .down)).taken .a).radio 3).state ≠ .up ∧
    ({ bench with learning := ⟨[(5, ⟨3, 0, 4000⟩)]⟩ } : State).learning.Sorted ∧
    (({ bench with cfg := { berth with radios := berth.radios.put 3 ⟨false, 300⟩ } } : State).radioCfg 3).configured =
      false ∧ (RadioLink.fresh .unconfigured).state ≠ .up := by decide +kernel

/-- Radio link 0 in a state. -/
def radioAs (st : RadioState) : State := quay.onRadio 0 (fun _ => RadioLink.fresh st)

theorem witness_RadioFrames : ((radioAs .unconfigured).radio 0).state = .unconfigured ∧
    (quay.radio 0).state = .up ∧ ((radioAs .down).radio 0).state = .down ∧
    (∀ k < 4, k ≠ 0 → ((radioAs .down).radio k).state ≠ .down) ∧
    (false = (radioAs .down).rlcClosed) ∧ (false ≠ ({ radioAs .down with rlcClosed := true } : State).rlcClosed) ∧
    decodeRadio 0 0x20 [0, 0, 0, 0] = .badKind ∧ (quay.radioArrival 0).carrier? 96 = none ∧
    32 < (List.replicate 33 (0 : Byte)).length ∧ (quay.radioArrival 0).carrier? 5 ≠ none ∧
    (List.replicate 32 (0 : Byte)).length ≤ 32 ∧ (quay.radioArrival 0).eventSeqs.get? 5 ≠ some 7 ∧
    ((({ quay with eventSeqs := ⟨[(5, 7)]⟩ } : State).radioArrival 0).eventSeqs.get? 5) = some 7 := by decide +kernel

theorem witness_RadioLinkTimeout :
    ((quay.onRadio 3 (fun x => { x with timer := some 0 })).radio 3).state = .up ∧
    ((quay.onRadio 3 (fun x => { x with timer := some 0 })).radio 3).timer = some 0 ∧ quay.learning.Sorted ∧
    (quay.radio 3).timer ≠ some 0 ∧ (State.reset.radio 3).state ≠ .up := by
  decide +kernel

/-- An authority of carrier 6. -/
def orderSix (c : Command) : Authority := ⟨6, none, 0, c, none, 0, 0, []⟩

/-- Link 3 with its timer at 0, an urgent authority of carrier 6 waiting, and a frame being sent. -/
def failing (sending : RadioFrame) : State := quay.onRadio 3 (fun x => { x with
  timer := some 0, urgent := [orderSix .stopNow], sending := some sending })

/-- An abandoned authority for a carrier of its own, urgent and not, one that a later one has overtaken, and none;
another link UP and none; a row that a cycle has outstanding. -/
theorem witness_RadioLinkTimeout_requeue :
    (((failing (.authority ⟨5, none, 0, .hold, none, 0, 0, []⟩)).radio 3).sending =
      some (.authority ⟨5, none, 0, .hold, none, 0, 0, []⟩)) ∧
    (∀ x ∈ [orderSix .stopNow], x.carrier ≠ 5) ∧ (∃ x ∈ [orderSix .stopNow], x.carrier = (orderSix .hold).carrier) ∧
    ((failing (.row ⟨0, 0, 0, [.free]⟩)).radio 3).sending ≠ some (.authority (orderSix .hold)) ∧
    ((failing (.row ⟨0, 0, 0, [.free]⟩)).radio 0).state = .up ∧
    (∀ k < 4, k ≠ 3 → (({ failing (.row ⟨0, 0, 0, [.free]⟩) with
      radios := Table.empty } : State).radio k).state ≠ .up) ∧
    (({ failing (.row ⟨0, 0, 0, [.free]⟩) with rlcClosed := true } : State).rlcClosed = true) ∧
    ([(⟨0, 0, 0, [.free]⟩ : PictureRow)].filter (fun r => decide (r.cycle = 0))).length < 2 := by decide +kernel

/-- The order in which an abandoned authority of its own carrier and a waiting one are offered again; and a link state
report that finds the closure in force and one that finds it not. -/
theorem witness_RadioLost :
    ((failing (.authority ⟨5, none, 0, .hold, none, 0, 0, []⟩)).radio 3).RequeueOrder
      [orderSix .stopNow, ⟨5, none, 0, .hold, none, 0, 0, []⟩] ∧
    (∃ k, k < 4 ∧ (State.reset.radio k).state = .down) ∧ State.reset.rlcClosed = true ∧
    (({ State.reset with rlcClosed := false } : State).rlcClosed = false) ∧
    (∀ k < 4, (quay.radio k).state ≠ .down) ∧ quay.rlcClosed = false := by
  refine ⟨?_, ⟨0, by decide +kernel⟩, by decide +kernel, by decide +kernel, by decide +kernel, by decide +kernel⟩
  rintro normal rfl
  refine ⟨fun h => absurd rfl (h _), fun a ha => ?_⟩
  cases ha
  exact ⟨fun h => absurd h (by decide +kernel), fun _ => ⟨fun h => absurd h (by decide +kernel), fun _ => rfl⟩⟩

/-- An authority for carrier 5. -/
def order (c : Command) : Authority := ⟨5, none, 0, c, none, 0, 0, []⟩

/-- A row of lane 0 of cycle 0. -/
def row : PictureRow := ⟨0, 0, 0, [.free]⟩

/-- Radio link 0 sending, in a cycle with so many rows outstanding. -/
def sendingRow (outstanding : Nat) : State :=
  { quay.onRadio 0 (fun x => { x with sending := some (.row row) }) with
    cycle := { Cycle.fresh with since := some 0, outstanding := outstanding } }

theorem witness_RadioQueuesAndTransmission :
    ({ RadioLink.fresh .up with urgent := [order .stopNow] } : RadioLink).urgent = [] ++ order .stopNow :: [] ∧
    (∀ x ∈ (RadioLink.fresh .up).urgent, x.carrier ≠ 5) ∧
    (RadioFrame.authority (order .hold)).isFor 5 = true ∧
    (∀ x ∈ (RadioLink.fresh .up).normal, x.isFor 5 = false) ∧
    ((sendingRow 2).radio 0).state = .up ∧ ((sendingRow 2).radio 0).sending = some (.row row) ∧
    (sendingRow 2).cycle.since ≠ none ∧ row.cycle = (sendingRow 2).cycle.number ∧
    2 ≤ (sendingRow 2).cycle.outstanding ∧ (sendingRow 1).cycle.outstanding = 1 ∧
    (sendingRow 1).cycle.rerun = false ∧
    ((quay.onRadio 0 (fun x => { x with sending := some (.authority (order .hold)) })).radio 0).sending =
      some (.authority (order .hold)) := by decide +kernel

/-- A dropped row of a cycle with two rows outstanding and with one, with the rerun flag in ON_CHANGE and without it. -/
theorem witness_RadioLinkTimeout_rows : (sendingRow 2).cycle.since ≠ none ∧ row.cycle = (sendingRow 2).cycle.number ∧
    2 ≤ (sendingRow 2).cycle.outstanding ∧ (sendingRow 1).cycle.since = some 0 ∧
    (sendingRow 1).cycle.outstanding = 1 ∧ (sendingRow 1).cycle.rerun = false ∧ (sendingRow 1).mode = .active ∧
    ({ (sendingRow 1).cycle with rerun := true } : Cycle).rerun = true ∧ quay.cycle.since = none := by decide +kernel

/-- A row of the same lane in the queue and none; the last row of a cycle under the rerun flag in ON_CHANGE and outside
it; a row of no cycle. -/
theorem witness_RadioQueues_rows :
    ([.row row] : List RadioFrame) = [] ++ .row row :: [] ∧ row.lane = 0 ∧
    (∀ y : PictureRow, RadioFrame.row y ∈ (quay.radio 0).normal → y.lane ≠ 0) ∧
    (sendingRow 1).cycle.since = some 0 ∧ (sendingRow 1).mode = .active ∧
    ({ (sendingRow 1).cycle with rerun := true } : Cycle).rerun = true ∧
    ({ (sendingRow 1).cfg.broadcast with mode := .onChange } : BroadcastConfig).mode = .onChange ∧
    (sendingRow 1).cfg.broadcast.mode ≠ .onChange ∧ Cycle.fresh.since = none := by
  and_intros
  any_goals decide +kernel
  exact fun y h => nomatch (show RadioFrame.row y ∈ [] from h)

/-- A learning entry of carrier 5 set at 0 that ages in 4 s, seen 1 ms before its time and at it; the sweep at its first
and its last id, before and at its time; an entry that is and is not due. -/
theorem witness_AgingAndExpiry : quay.hasRoom .a ∧
    (⟨[(5, (⟨0, 0, 4000⟩ : LearnEntry))]⟩ : Table LearnEntry).get? 5 = some ⟨0, 0, 4000⟩ ∧
    ((3999 : Time) - 0).toNat < ((4000 : Time) - 0).toNat ∧ ((4000 : Time) - 0).toNat ≤ ((4000 : Time) - 0).toNat ∧
    (quay.taken .a).flush = none ∧ ((0 : Time) - 0).toNat ≤ (0 : Nat) ∧ (0 : Nat) < ((1 : Time) - 0).toNat ∧
    (95 : Nat) < ((96 : Time) - 0).toNat ∧ queued.waiting = [] ++ entry :: [] ∧
    (∀ x ∈ queued.waiting, x.carrier ≠ 6) ∧
    ((19999 : Time) - entry.arrival).toNat < (entry.expiry - entry.arrival).toNat ∧
    (entry.expiry - entry.arrival).toNat ≤ ((20000 : Time) - entry.arrival).toNat := by decide +kernel

theorem witness_BroadcastConfigAndQuery : quay.hasRoom .a ∧ (4 : Nat) ≤ 4 ∧ (2 : Nat) ≤ 2 ∧ (3 : Nat) ≤ 3 ∧
    (1 : Nat) ≤ 1 ∧ max 1 (min 255 16) = 16 ∧ max 1 (min 16 (quay.taken .a).grid.lanes) = 3 ∧
    min 15 ((quay.taken .a).grid.lanes - 3) = 0 ∧ max 1 (min 64 (quay.taken .a).grid.bays) = 4 ∧
    (quay.taken .a).mode = .active ∧ (quay.taken .a).cycle.since = none ∧
    ((sendingRow 1).taken .a).cycle.since ≠ none := by decide +kernel

/-- The quay with a configured broadcast mode. -/
def showing (m : BroadcastMode) (s : State) : State :=
  { s with cfg := { s.cfg with broadcast := { BroadcastConfig.default with mode := m } } }

theorem witness_CycleStarts : quay.hasRoom .a ∧ (bench.taken .a).mode ≠ .active ∧ (quay.taken .a).mode = .active ∧
    (quay.taken .a).cfg.broadcast.mode ≠ .oneShot ∧
    ((showing .oneShot quay).taken .a).cfg.broadcast.mode = .oneShot ∧
    ((showing .oneShot (sendingRow 1)).taken .a).cycle.since ≠ none ∧
    ((showing .oneShot quay).taken .a).cycle.since = none ∧ quay.cycle.timer ≠ some 0 ∧
    ({ quay with cycle := { Cycle.fresh with timer := some 0 } } : State).cycle.timer = some 0 ∧
    (∀ r < 4, (State.reset.radio r).state ≠ .up) ∧ State.reset.cycle.rerun = false ∧ (quay.radio 3).state = .up ∧
    (∀ r < 4, (quay.radio r).normal = []) := by decide +kernel

/-- CONFIG with a berth that passes and one that does not; RECOVERY with 1 ms left and with none; ACTIVE. -/
theorem witness_Activate : quay.hasRoom .a ∧ (quay.taken .a).mode = .active ∧ (bench.taken .a).mode = .config ∧
    (bench.taken .a).cfg.validate = none ∧ (State.reset.taken .a).mode = .config ∧
    (State.reset.taken .a).cfg.validate ≠ none ∧
    (({ quay with mode := .recovery, recoveryStart := some 0 } : State).taken .a).recoveryStart = some 0 ∧
    ((9999 : Time) - 0).toNat < 1000 * berth.recoveryTime ∧ 1000 * berth.recoveryTime ≤ ((10000 : Time) - 0).toNat := by
  decide +kernel

/-- ACTIVATE from RECOVERY with each broadcast mode, and with a cycle in progress. -/
theorem witness_Activate_modes : (∀ m ∈ [BroadcastMode.off, .continuous, .onChange, .oneShot],
      ((showing m { quay with mode := .recovery, recoveryStart := some 0 }).taken .a).cfg.broadcast.mode = m ∧
      ((showing m { quay with mode := .recovery, recoveryStart := some 0 }).taken .a).cycle.since = none) ∧
    (({ sendingRow 1 with mode := .recovery, recoveryStart := some 0 } : State).taken .a).cycle.since ≠ none := by
  decide +kernel

/-- A quiet apron, and one with a carrier on its route. -/
theorem witness_EnterConfig : idle.hasRoom .a ∧ (idle.taken .a).carriers.Sorted ∧ (idle.taken .a).segs.Sorted ∧
    (bench.taken .a).mode = .config ∧ (idle.taken .a).mode ≠ .config ∧
    (∀ x ∈ (idle.taken .a).carriers.rows, x.2.state = .offline ∨ x.2.state = .away ∨ x.2.state = .idle) ∧
    (∀ i p x, ((idle.taken .a).seg i).hold ≠ .frozen p x) ∧
    (∀ k < 8, ((idle.taken .a).crane k).claim = none ∧ ((idle.taken .a).crane k).state ≠ .travelling) ∧
    ((routed.taken .a).carrier? 5).map (fun r => r.state) = some .authorized ∧
    ((idle.taken .a).carrier? 5).map (fun r => r.state) = some .idle ∧ ((idle.taken .a).radio 3).state = .up ∧
    (idle.taken .a).learning.get? 5 = none := by
  and_intros
  any_goals decide +kernel
  intro i p x
  have h := segs_all (s := idle.taken .a)
    (fun _ r => (match r.hold with | .frozen _ _ => true | _ => false) = false) (by decide +kernel) (fun _ => rfl) i
  intro hf
  rw [hf] at h
  cases h

/-- What keeps the apron from being quiet, test by test: an AUTHORIZED carrier, a FROZEN segment, a claim, and a crane
TRAVELLING. -/
theorem witness_EnterConfig_busy : ((routed.taken .a).carrier? 5).map (fun r => r.state) = some .authorized ∧
    ((({ underway with segs := underway.segs.mapVals SegDyn.freeze } : State).taken .a).seg 1).hold =
      .frozen (.crane 0) .leg ∧
    ((({ underway with segs := underway.segs.mapVals SegDyn.freeze } : State).taken .a).seg 0).hold = .free ∧
    ((claimed.taken .a).crane 0).claim = some claim ∧ ((underway.taken .a).crane 0).state = .travelling ∧
    (∀ k < 8, ((underway.taken .a).crane k).claim = none) ∧
    (∀ s ∈ [underway, claimed], (∀ x ∈ (s.taken .a).carriers.rows, x.2.state = .offline) ∧
      ∀ x ∈ (s.taken .a).segs.rows, x.2.isFrozen = false) := by
  and_intros
  all_goals decide +kernel

theorem witness_Saves : quay.hasRoom .a ∧ (quay.taken .a).save = none ∧
    (({ quay with save := some ⟨0, berth⟩ } : State).taken .a).save = some ⟨0, berth⟩ ∧
    ((1499 : Time) - 0).toNat < 1500 ∧ 1500 ≤ ((1500 : Time) - 0).toNat := by decide +kernel

/-- The shortest and the longest payload, lengths just outside, and a CRC that differs. -/
theorem witness_ReceiverAndFrames : (quay.receiver (.crane 7)).state = .hunt ∧ (quay.receiver (.radio 3)).state = .hunt ∧
    (quay.receiver (.dispatch .b)).state = .hunt ∧ (0xA4 : Byte) ≠ 0xA5 ∧ 4 ≤ (List.replicate 4 (0 : Byte)).length ∧
    (List.replicate 250 (0 : Byte)).length ≤ 250 ∧ 255 < 256 ∧ (0 : Byte).toNat * 256 + (3 : Byte).toNat < 4 ∧
    250 < (0 : Byte).toNat * 256 + (251 : Byte).toNat ∧
    ((0 : Byte), (0 : Byte)) ≠ (BitVec.ofNat 8 ((crc16 [0, 4, 0x20, 0, 0, 0, 0]).toNat / 256),
      BitVec.ofNat 8 (crc16 [0, 4, 0x20, 0, 0, 0, 0]).toNat) := by decide +kernel

/-- A frame left after its sync byte, in its header, and before its last byte, and what finishes it. -/
theorem witness_PartialFrames : (∀ n ∈ [0, 1, 2, 8],
      [0, 4, 0x20, 0, 0, 0, 0] ++ [0, 0] = [0, 4, 0x20, 0, 0, 0, 0, (0 : Byte), 0].take n ++
        [0, 4, 0x20, 0, 0, 0, 0, (0 : Byte), 0].drop n ∧
      [0, 4, 0x20, 0, 0, 0, 0, (0 : Byte), 0].drop n ≠ []) ∧
    (∃ t, exec (.badFrame (.dispatch .b) [0xA5, 0]) quay = .next t ∧
      t.receiver (.dispatch .b) = ⟨.header, [0]⟩) := by
  refine ⟨by decide +kernel, _, rfl, by decide +kernel⟩

/-- The quay meets the invariant, and passes to a next state. -/
theorem witness_EveryStepIsSound : quay.Inv ∧ ∃ t, step quay = .next t := by
  refine ⟨?_, _, rfl⟩
  have radios : ∀ r, quay.radio r = { RadioLink.fresh .up with timer := some 300 } ∨
      quay.radio r = RadioLink.fresh .unconfigured := by
    intro r
    unfold State.radio Table.get
    cases e : quay.radios.get? r with
    | none => exact .inr rfl
    | some x =>
      have h : ∀ p ∈ quay.radios.rows, p.2 = { RadioLink.fresh .up with timer := some 300 } := by decide +kernel
      exact .inl (h _ (mem_of_findRow e))
  have cranes : ∀ k, quay.craneLink k = CraneLink.fresh := by
    intro k
    unfold State.craneLink Table.get
    cases e : quay.craneLinks.get? k with
    | none => rfl
    | some x =>
      have h : ∀ p ∈ quay.craneLinks.rows, p.2 = CraneLink.fresh := by decide +kernel
      exact h _ (mem_of_findRow e)
  have crane : ∀ k, (quay.crane k).state ≠ .travelling := by
    intro k
    unfold State.crane Table.get
    cases e : quay.cranes.get? k with
    | none => exact fun h => nomatch h
    | some x =>
      have h : ∀ p ∈ quay.cranes.rows, p.2.state ≠ .travelling := by decide +kernel
      exact h _ (mem_of_findRow e)
  refine ⟨?_, fun r => ?_, fun k => ?_, fun x hx => ?_, by decide +kernel, fun x hx => ?_,
    fun i => ?_, fun k h => absurd h (crane k)⟩
  · constructor
    · intro l
      have h : quay.dlink l = upLink := by cases l <;> rfl
      rw [h]
      exact ⟨by decide, by decide, (fun e => nomatch e), by decide, (fun e => nomatch e)⟩
    · intro r
      rcases radios r with h | h <;> rw [h]
      · exact ⟨fun e => absurd rfl e⟩
      · exact ⟨fun _ => ⟨rfl, rfl, rfl, rfl⟩⟩
    · decide +kernel
    · intro k
      rw [cranes k]
      decide
    all_goals decide +kernel
  · rcases radios r with h | h <;> rw [h] <;>
      exact ⟨fun _ h => (nomatch h), fun _ h => (nomatch h), .nil, .nil⟩
  · rw [cranes k]
    exact .nil
  · nomatch hx
  · nomatch hx
  · have none : (quay.seg i).lock = ⟨[]⟩ := by
      unfold State.seg Table.get
      cases e : quay.segs.get? i with
      | none => rfl
      | some x =>
        have h : ∀ p ∈ quay.segs.rows, p.2.lock = ⟨[]⟩ := by decide +kernel
        exact h _ (mem_of_findRow e)
    rw [none]
    exact ⟨.nil, fun _ h => nomatch h⟩

end Sys2Proof.Tests
end

section
/-! The part after reset (R15, R168): what each table of the reset part holds, and what RESET makes of an image. -/

namespace Sys2Proof.Machine

/-! ## The reset part -/

@[simp] theorem reset_dlink (l : DLink) : State.reset.dlink l = DispatchLink.fresh := by
  cases l <;> rfl

@[simp] theorem reset_radio (r : Fin 4) : State.reset.radio r = RadioLink.fresh .down := by
  simp [State.radio, State.reset, Table.get, Table.get?_filled]

@[simp] theorem reset_radioCfg (r : Nat) : State.reset.radioCfg r = RadioConfig.default :=
  Table.get_filled 4 r RadioConfig.default

@[simp] theorem reset_crane (k : Nat) : State.reset.crane k = Crane.fresh 0 0 0 :=
  Table.get_filled 8 k (Crane.fresh 0 0 0)

@[simp] theorem reset_craneCfg (k : Nat) : State.reset.craneCfg k = CraneConfig.default :=
  Table.get_filled 8 k CraneConfig.default

@[simp] theorem reset_craneLink (k : Nat) : State.reset.craneLink k = CraneLink.fresh :=
  Table.get_filled 8 k CraneLink.fresh

/-- Settles O3: the plain fields are read off the definition, and the links and cranes from their filled tables. -/
theorem resetLeavesDefaults : Obligations.ResetLeavesDefaults := by
  unfold Obligations.ResetLeavesDefaults
  refine ⟨rfl, rfl, rfl, rfl, rfl, rfl, rfl, rfl, rfl, rfl, rfl, rfl, rfl, rfl, rfl, rfl, rfl, rfl, rfl, rfl, rfl, rfl,
    rfl, fun l => ?links, fun r => ?radios, fun k => ?cranes⟩
  case links => simp [DispatchLink.fresh]
  case radios => simp [RadioLink.fresh, RadioConfig.default]
  case cranes => simp [Crane.fresh, CraneConfig.default, CraneLink.fresh]

/-! ## RESET -/

/-- A radio link after RESET is DOWN when it is configured, and UNCONFIGURED otherwise (R132). -/
theorem boot_radio (i : Image) (p : List Instr) {r : Nat} (hr : r < 4) : (State.boot i p).radio r =
    RadioLink.fresh (if ((State.boot i p).radioCfg r).configured then .down else .unconfigured) := by
  have h := Table.get?_map_range (fun r => RadioLink.atReset (i.loaded.radios.get r RadioConfig.default)) 4 r
  rw [if_pos hr] at h
  show Table.get _ r _ = _
  unfold Table.get
  erw [h]
  rfl

/-- The roster's carriers have fresh records after RESET (R52, log entry 15). -/
theorem boot_carrier? (i : Image) (p : List Instr) (c : Nat) : (State.boot i p).carrier? c =
    ((State.boot i p).cfg.roster.get? c).map (fun k => Carrier.fresh ((State.boot i p).classVals k)) :=
  Table.get?_mapVals _ _ _

/-- A segment after RESET is FREE, and out of service where a closure in force names it (R20). -/
theorem seg_freshSegs (s : State) {i : Nat} (hi : s.grid.inside i = true) :
    s.freshSegs.get i SegDyn.fresh =
      SegDyn.alignClosures s.dlcClosed s.rlcClosed (s.grid.record i) SegDyn.fresh := by
  have h := Table.get?_map_range
    (fun i => SegDyn.alignClosures s.dlcClosed s.rlcClosed (s.grid.record i) SegDyn.fresh) s.grid.cellCount i
  rw [if_pos (by simpa [Grid.inside] using hi)] at h
  unfold Table.get
  erw [h]
  rfl

theorem boot_seg (i : Image) (p : List Instr) {j : Nat} (hj : (State.boot i p).grid.inside j = true) :
    (State.boot i p).seg j = { SegDyn.fresh with
      oos := ⟨false, ((State.boot i p).grid.record j).dlc, ((State.boot i p).grid.record j).rlc &&
        (List.range 4).any (fun r => ((State.boot i p).radioCfg r).configured)⟩ } := by
  have hdlc : (State.boot i p).dlcClosed = true := rfl
  have hrlc : (State.boot i p).rlcClosed =
      (List.range 4).any (fun r => ((State.boot i p).radioCfg r).configured) := rfl
  have hseg : (State.boot i p).seg j = (State.boot i p).freshSegs.get j SegDyn.fresh := rfl
  rw [hseg, seg_freshSegs _ hj, SegDyn.alignClosures, hdlc, hrlc, Bool.true_and, Bool.and_comm]
  rfl

/-- The mode after RESET: RECOVERY exactly when the image is valid and its content passes the validation (R168). -/
theorem boot_mode (i : Image) (p : List Instr) : (State.boot i p).mode =
    if i.valid = true ∧ i.content.validate = none then .recovery else .config := by
  show i.startMode = _
  simp [Image.startMode]

/-- Settles O4: RESET boots from the image, and each clause is a read of the booted part. -/
theorem resetStartsFromTheImage : Obligations.ResetStartsFromTheImage := by
  unfold Obligations.ResetStartsFromTheImage
  intro s
  refine ⟨State.boot s.image s.pending, rfl, rfl, rfl, rfl, rfl, rfl, rfl, rfl, rfl, rfl, rfl, rfl, reset_craneLink, rfl,
    rfl, rfl, ?rlc, boot_mode _ _, rfl, fun c => ⟨rfl, rfl, boot_carrier? _ _ c⟩, reset_crane,
    fun i hi => boot_seg _ _ hi, fun r hr => boot_radio _ _ hr, reset_dlink, rfl, rfl⟩
  case rlc =>
    show (List.range 4).any (fun r => ((State.boot s.image s.pending).radioCfg r).configured) = true ↔ _
    simp [List.any_eq_true]

end Sys2Proof.Machine
end

section
/-! The grid (R1, R4 to R7): ids and places, adjacency, and SET_GRID. -/

namespace Sys2Proof.Machine

/-! ## Ids and places (R1) -/

namespace Grid

variable (g : Grid)

theorem idAt_laneOf_bayOf (i : Nat) : g.laneOf i * g.bays + g.bayOf i = i := by
  have h := Nat.div_mul_le_self i g.bays
  unfold laneOf bayOf
  rw [Nat.mul_comm g.bays]
  omega

theorem laneOf_id {b : Nat} (hb : b < g.bays) (l : Nat) : g.laneOf (l * g.bays + b) = l := by
  unfold laneOf
  rw [Nat.mul_comm, Nat.mul_add_div (by omega), Nat.div_eq_of_lt hb, Nat.add_zero]

theorem bayOf_id {b : Nat} (hb : b < g.bays) (l : Nat) : g.bayOf (l * g.bays + b) = b := by
  have h := g.idAt_laneOf_bayOf (l * g.bays + b)
  rw [g.laneOf_id hb] at h
  omega

theorem id_lt {l b : Nat} (hl : l < g.lanes) (hb : b < g.bays) : l * g.bays + b < g.lanes * g.bays := by
  have h := Nat.mul_le_mul_right g.bays (Nat.succ_le_of_lt hl)
  rw [Nat.succ_mul] at h
  omega

theorem inside_iff (i : Nat) : g.inside i = true ↔ i < g.lanes * g.bays :=
  decide_eq_true_iff

theorem usable_iff (i : Nat) : g.usable i = true ↔ i < g.lanes * g.bays ∧ (g.record i).usable = true := by
  simp [usable, inside_iff]

theorem laneOf_lt {i : Nat} (hi : i < g.lanes * g.bays) : g.laneOf i < g.lanes :=
  Nat.div_lt_of_lt_mul (by rwa [Nat.mul_comm])

theorem bayOf_lt {i : Nat} (hi : i < g.lanes * g.bays) : g.bayOf i < g.bays := by
  have hb : 0 < g.bays := Nat.pos_of_ne_zero (fun h => by simp [h] at hi)
  have h := g.idAt_laneOf_bayOf i
  have hm := Nat.div_add_mod i g.bays
  have hl := Nat.mod_lt i hb
  unfold laneOf at h
  rw [Nat.mul_comm] at h
  omega

/-! ## Adjacency (R4) -/

theorem adjacentUp_iff (i j : Nat) : g.adjacentUp i j = true ↔
    (g.laneOf i = g.laneOf j ∧ g.bayOf i + 1 = g.bayOf j) ∨
      (g.bayOf i = g.bayOf j ∧ g.laneOf i + 1 = g.laneOf j ∧ (g.record i).crossNext = true) := by
  simp [adjacentUp, and_assoc]

theorem adjacent_iff (i j : Nat) : g.adjacent i j = true ↔
    g.usable i = true ∧ g.usable j = true ∧ (g.adjacentUp i j = true ∨ g.adjacentUp j i = true) := by
  simp [adjacent, and_assoc]

theorem adjacent_comm (i j : Nat) : g.adjacent i j = g.adjacent j i := by
  unfold adjacent
  rw [Bool.and_comm (g.usable i), Bool.or_comm]

theorem adjacent_outside (i : Nat) {j : Nat} (hj : g.lanes * g.bays ≤ j) : g.adjacent i j = false := by
  have h : g.usable j = false := by
    rw [Bool.eq_false_iff, ne_eq, usable_iff]
    omega
  simp [adjacent, h]

/-- The neighbour above is one bay or one lane further. -/
theorem eq_of_adjacentUp {i j : Nat} (h : g.adjacentUp i j = true) : j = i + 1 ∨ j = i + g.bays := by
  have hi := g.idAt_laneOf_bayOf i
  have hj := g.idAt_laneOf_bayOf j
  rcases (g.adjacentUp_iff i j).1 h with ⟨hl, hb⟩ | ⟨hb, hl, -⟩
  · rw [← hl] at hj
    omega
  · rw [← hl, ← hb, Nat.succ_mul] at hj
    omega

/-- The four places where a neighbour can stand hold all of them. -/
theorem neighbours_le_four (i : Nat) :
    ((List.range (g.lanes * g.bays)).filter (g.adjacent i)).length ≤ 4 := by
  refine (List.subperm_of_subset (l₂ := [i + 1, i + g.bays, i - 1, i - g.bays]) (List.nodup_range.filter _) ?_).length_le
  intro j hj
  obtain ⟨-, -, h | h⟩ := (g.adjacent_iff i j).1 (List.mem_filter.1 hj).2
  · rcases g.eq_of_adjacentUp h with h | h <;> simp [h]
  · rcases g.eq_of_adjacentUp h with h | h <;> simp [h]

end Grid

/-- Settles O14. -/
theorem adjacentSegments : Obligations.AdjacentSegments := by
  unfold Obligations.AdjacentSegments
  intro g
  refine ⟨fun l b m d hl hb hm hd => ?_, g.adjacent_comm, fun i _ => g.adjacent_outside i, g.neighbours_le_four⟩
  have hi := g.id_lt hl hb
  have hj := g.id_lt hm hd
  simp only [Grid.adjacent_iff, Grid.usable_iff, Grid.adjacentUp_iff, g.laneOf_id hb, g.laneOf_id hd, g.bayOf_id hb,
    g.bayOf_id hd, hi, hj, true_and]
  grind

/-! ## Requests on a link with room (R147) -/

/-- What an owner makes of the part and its reply are what a request on a link with room comes to. -/
theorem next_takeRequest {s u t : State} {l : DLink} {owner : Owner} {r : Reply} (hu : u = s.taken l)
    (hr : s.hasRoom l) (ho : owner u = (t, r)) :
    (.next (s.takeRequest l owner) : Host.Outcome State Fault Refusal) = .next (t.answered l r) := by
  rw [takeRequest_room s l owner hr, ← hu, ho]

/-! ## SET_GRID (R6, R7) -/

@[simp] theorem record_blank (lanes bays i : Nat) : (Grid.blank lanes bays).record i = SegStatic.default :=
  Table.get_filled _ i SegStatic.default

/-- The effective dimensions never name more than 512 cells (R6). -/
theorem gridSize_cells_le (lanes bays : Nat) : (gridSize lanes bays).1 * (gridSize lanes bays).2 ≤ 512 := by
  unfold gridSize
  simp only
  split
  · exact Nat.mul_div_le 512 _
  · next h => exact Nat.not_lt.1 h

/-- The records of a grid whose static records are all the default are fresh, whatever closure is in force (R7, R20). -/
theorem get_freshSegs_of_default (s : State) (h : ∀ i, s.grid.record i = SegStatic.default) (i : Nat) :
    s.freshSegs.get i SegDyn.fresh = SegDyn.fresh := by
  by_cases hi : s.grid.inside i = true
  · rw [seg_freshSegs s hi, h]
    simp [SegDyn.alignClosures, SegStatic.default, SegDyn.fresh]
  · have hrow := Table.get?_map_range
      (fun i => SegDyn.alignClosures s.dlcClosed s.rlcClosed (s.grid.record i) SegDyn.fresh) s.grid.cellCount i
    rw [if_neg (by simpa [Grid.inside] using hi)] at hrow
    unfold Table.get
    erw [hrow]
    rfl

theorem keys_freshSegs (s : State) : s.freshSegs.keys = List.range s.grid.cellCount := by
  simp [State.freshSegs, Table.keys, Grid.ids, Function.comp_def]

/-- Settles O15. -/
theorem setGrid : Obligations.SetGrid := by
  unfold Obligations.SetGrid
  intro s u l lanes bays hu hr
  constructor
  · intro hm
    exact next_takeRequest hu hr (if_pos hm)
  · intro hm x y hx hy
    have hsize : gridSize lanes bays = (x, y) := by rw [hx] at hy; rw [hx, hy]; rfl
    have hle := gridSize_cells_le lanes bays
    rw [hsize] at hle
    have hclamped : decide ((x, y) ≠ (lanes, bays)) = decide (x ≠ lanes ∨ y ≠ bays) := by
      simp only [ne_eq, Prod.mk.injEq, not_and_or]
    have hown : ownSetGrid lanes bays u =
        (State.resetSegs { u with cfg := { u.cfg with grid := Grid.blank x y } },
          ⟨0x23, .accepted, .none_, decide (x ≠ lanes ∨ y ≠ bays), [.byte x, .byte y, .half (x * y)]⟩) := by
      unfold ownSetGrid
      rw [if_neg (not_not.2 hm), hsize, ← hclamped]
      rfl
    exact ⟨_, next_takeRequest hu hr hown, hle, rfl, rfl, record_blank x y,
      get_freshSegs_of_default _ (record_blank x y), keys_freshSegs _, rfl⟩

end Sys2Proof.Machine
end

section
/-! Requests that change each of some segment records once (R21), and the closures brought into line (R9, R39, R40). -/

namespace Sys2Proof.Machine

/-! ## Changes that call for re-examination (R21) -/

theorem SegDyn.inService_iff (r : SegDyn) : r.inService = true ↔ r.oos = ⟨false, false, false⟩ := by
  obtain ⟨hold, lock, ⟨block, dlc, rlc⟩, intruder⟩ := r
  simp [inService, OutOfService.inService, and_assoc]

theorem SegDyn.callsFor_iff (a b : SegDyn) : SegDyn.callsFor a b = true ↔
    (a.hold ≠ .free ∧ b.hold = .free) ∨ (a.oos ≠ ⟨false, false, false⟩ ∧ b.oos = ⟨false, false, false⟩) ∨
      (a.lock.rows ≠ [] ∧ b.lock.rows = []) ∨ (a.intruder ≠ none ∧ b.intruder = none) := by
  have hs : ∀ r : SegDyn, (!r.inService) = true ↔ r.oos ≠ ⟨false, false, false⟩ := fun r => by
    rw [ne_eq, ← SegDyn.inService_iff, Bool.not_eq_true', Bool.not_eq_true]
  have hi : ∀ o : Option Party, o.isSome = true ↔ o ≠ none := fun o => by cases o <;> simp
  simp only [callsFor, Bool.or_eq_true, Bool.and_eq_true, hs, hi, inService_iff, isFree, isLocked, Option.isNone_iff_eq_none,
    Bool.not_eq_true', decide_eq_false_iff_not, decide_eq_true_eq, Bool.not_eq_false', List.isEmpty_iff,
    List.isEmpty_eq_false_iff, or_assoc, ne_eq]

theorem SegDyn.callsFor_self (r : SegDyn) : SegDyn.callsFor r r = false := by
  simp [callsFor]

/-! ## Each of some records changed once -/

namespace Work

/-- Change the dynamic record of each of a list of segments by its own function, in order. -/
def onEach (w : Work) (ids : List Nat) (f : Nat → SegDyn → SegDyn) : Work := ids.foldl (fun w i => w.onSeg i (f i)) w

theorem onEach_cons (w : Work) (i : Nat) (ids : List Nat) (f : Nat → SegDyn → SegDyn) :
    w.onEach (i :: ids) f = (w.onSeg i (f i)).onEach ids f := rfl

theorem mem_touched_onSeg (w : Work) (i j : Nat) (f : SegDyn → SegDyn) :
    j ∈ (w.onSeg i f).touched ↔ j ∈ w.touched ∨ j = i ∧ f (w.s.seg i) ≠ w.s.seg i := by
  unfold onSeg setSeg
  simp only
  split
  · next h => simp [h]
  · next h => simp [h, or_comm]

theorem reexam_onSeg (w : Work) (i : Nat) (f : SegDyn → SegDyn) :
    (w.onSeg i f).reexam = true ↔ w.reexam = true ∨ SegDyn.callsFor (w.s.seg i) (f (w.s.seg i)) = true := by
  unfold onSeg setSeg
  simp only
  split
  · next h => simp [h, SegDyn.callsFor_self]
  · simp

theorem onEach_rest (w : Work) (ids : List Nat) (f : Nat → SegDyn → SegDyn) :
    (w.onEach ids f).s = { w.s with segs := (w.onEach ids f).s.segs } := by
  induction ids generalizing w with
  | nil => rfl
  | cons i rest ih =>
    rw [onEach_cons, ih]
    generalize ((w.onSeg i (f i)).onEach rest f).s.segs = x
    rw [onSeg, setSeg_rest]

theorem onEach_marks (w : Work) (ids : List Nat) (f : Nat → SegDyn → SegDyn) :
    (w.onEach ids f).report = w.report ∧ (w.onEach ids f).bumped = w.bumped ∧
      (w.onEach ids f).settled = w.settled ∧ (w.onEach ids f).runs = w.runs ∧ (w.onEach ids f).before = w.before := by
  induction ids generalizing w with
  | nil => exact ⟨rfl, rfl, rfl, rfl, rfl⟩
  | cons i rest ih =>
    obtain ⟨h1, h2, h3, h4, h5⟩ := ih (w.onSeg i (f i))
    obtain ⟨g1, g2, g3, g4, g5⟩ := setSeg_marks w i (f i (w.s.seg i))
    exact ⟨h1.trans g1, h2.trans g2, h3.trans g3, h4.trans g4, h5.trans g5⟩

section
variable {ids : List Nat} (hn : ids.Nodup)
include hn

theorem seg_onEach (w : Work) (f : Nat → SegDyn → SegDyn) (j : Nat) :
    (w.onEach ids f).s.seg j = if j ∈ ids then f j (w.s.seg j) else w.s.seg j := by
  induction ids generalizing w with
  | nil => rfl
  | cons i rest ih =>
    obtain ⟨hi, hrest⟩ := List.nodup_cons.1 hn
    rw [onEach_cons, ih hrest, seg_onSeg]
    by_cases hj : j = i
    · subst hj; simp [hi]
    · simp [hj]

theorem mem_touched_onEach (w : Work) (f : Nat → SegDyn → SegDyn) (j : Nat) :
    j ∈ (w.onEach ids f).touched ↔ j ∈ w.touched ∨ j ∈ ids ∧ f j (w.s.seg j) ≠ w.s.seg j := by
  induction ids generalizing w with
  | nil => simp [onEach]
  | cons i rest ih =>
    obtain ⟨hi, hrest⟩ := List.nodup_cons.1 hn
    rw [onEach_cons, ih hrest, mem_touched_onSeg, seg_onSeg]
    by_cases hj : j = i
    · subst hj; simp [hi]
    · simp [hj]

theorem reexam_onEach (w : Work) (f : Nat → SegDyn → SegDyn) :
    (w.onEach ids f).reexam = true ↔
      w.reexam = true ∨ ∃ j ∈ ids, SegDyn.callsFor (w.s.seg j) (f j (w.s.seg j)) = true := by
  induction ids generalizing w with
  | nil => simp [onEach]
  | cons i rest ih =>
    obtain ⟨hi, hrest⟩ := List.nodup_cons.1 hn
    have hseg : ∀ j ∈ rest, (w.onSeg i (f i)).s.seg j = w.s.seg j := fun j hj => by
      rw [seg_onSeg, if_neg (ne_of_mem_of_not_mem hj hi)]
    rw [onEach_cons, ih hrest, reexam_onSeg, List.exists_mem_cons_iff, or_assoc]
    refine or_congr_right (or_congr_right (exists_congr fun j => and_congr_right fun hj => ?_))
    rw [hseg j hj]

/-- What the end of a request has to act on when each record was changed at most once (R21, R75). -/
theorem onEach_grown (w : Work) (f : Nat → SegDyn → SegDyn) : w.Grown (w.onEach ids f) (fun _ => False) := by
  obtain ⟨hreport, hbumped, hsettled, hruns, hbefore⟩ := onEach_marks w ids f
  refine ⟨hbefore, fun i => ?_, fun c => by simp [hruns], hbumped, hsettled, hreport⟩
  rw [mem_touched_onEach hn, seg_onEach hn]
  by_cases hi : i ∈ ids <;> simp [hi]

theorem onEach_calls (w : Work) (f : Nat → SegDyn → SegDyn) : w.Calls (w.onEach ids f) := by
  unfold Calls
  simp only [← SegDyn.callsFor_iff]
  rw [reexam_onEach hn]
  refine or_congr_right (exists_congr fun i => ?_)
  rw [seg_onEach hn]
  by_cases hi : i ∈ ids <;> simp [hi, SegDyn.callsFor_self]

end

/-! ## Closures brought into line -/

theorem alignClosures_eq_onEach (w : Work) (ids : List Nat) : w.alignClosures ids =
    w.onEach ids (fun i => SegDyn.alignClosures w.s.dlcClosed w.s.rlcClosed (w.s.grid.record i)) := by
  unfold alignClosures
  induction ids generalizing w with
  | nil => rfl
  | cons i rest ih =>
    rw [List.foldl_cons, ih, onEach_cons, onSeg, setSeg_rest]
    rfl

end Work

theorem Grid.nodup_ids (g : Grid) : g.ids.Nodup := List.nodup_range

theorem Grid.mem_ids (g : Grid) (i : Nat) : i ∈ g.ids ↔ i < g.lanes * g.bays := List.mem_range

/-- The closures of the whole grid brought into line (R39, R40). -/
theorem State.closes_alignClosures (s : State) : s.Closes ((Work.start s none).alignClosures s.grid.ids) := by
  rw [Work.alignClosures_eq_onEach]
  refine ⟨Work.onEach_rest _ _ _, fun i => ?_, Work.onEach_grown s.grid.nodup_ids _ _,
    Work.onEach_calls s.grid.nodup_ids _ _⟩
  rw [Work.seg_onEach s.grid.nodup_ids]
  simp only [s.grid.mem_ids]
  rfl

/-- Dispatch-loss closure brought into or out of force is one request whose body closes the marked segments (R39). -/
theorem State.setDlc_closes (s : State) (inForce : Bool) :
    ∃ w, State.Closes { s with dlcClosed := inForce } w ∧ s.setDlc inForce = w.finish :=
  ⟨_, State.closes_alignClosures _, rfl⟩

theorem State.radioLoss_iff (s : State) : s.radioLoss = true ↔ ∃ r, r < 4 ∧ (s.radio r).state = .down := by
  simp [State.radioLoss]

theorem State.reported_linkReport (s : State) : s.Reported s.linkReport := by
  intro loss hloss
  have h : loss = s.radioLoss := by rw [Bool.eq_iff_iff, hloss, s.radioLoss_iff]
  subst h
  exact ⟨fun he => if_pos he, fun hne => ⟨_, State.closes_alignClosures _, if_neg hne⟩⟩

end Sys2Proof.Machine
end

section
/-! Dispatch links (R37, R39, R144, R152, R153): the arrival of a frame with the regain, and the expiry of a link timer
with dispatch loss. -/

namespace Sys2Proof

theorem putRow_putRow {α : Type} (k : Nat) (u v : α) (l : List (Nat × α)) :
    putRow k v (putRow k u l) = putRow k v l := by
  induction l with
  | nil => simp [putRow]
  | cons p rest ih =>
    obtain ⟨j, x⟩ := p
    rcases Nat.lt_trichotomy k j with h | h | h
    · simp [putRow, h]
    · simp [putRow, h]
    · have h1 : ¬ k < j := by omega
      have h2 : ¬ k = j := by omega
      simp [putRow, h1, h2, ih]

@[simp] theorem Table.put_put {α : Type} (t : Table α) (k : Nat) (u v : α) : (t.put k u).put k v = t.put k v := by
  simp [Table.put, putRow_putRow]

end Sys2Proof

namespace Sys2Proof.Machine

theorem State.onDlink_onDlink (s : State) (l : DLink) (f g : DispatchLink → DispatchLink) :
    (s.onDlink l f).onDlink l g = s.onDlink l (fun d => g (f d)) := by
  have h : ((s.onDlink l f).onDlink l g).dispatch = (s.onDlink l (fun d => g (f d))).dispatch := by
    show Table.put (Table.put _ _ _) _ (g ((s.onDlink l f).dlink l)) = _
    rw [Table.put_put, State.dlink_onDlink_self]
    rfl
  show ({ s with dispatch := ((s.onDlink l f).onDlink l g).dispatch } : State) = _
  rw [h]
  rfl

theorem State.onDlink_congr (s : State) (l : DLink) {f g : DispatchLink → DispatchLink}
    (h : f (s.dlink l) = g (s.dlink l)) : s.onDlink l f = s.onDlink l g := by
  unfold State.onDlink
  rw [h]

/-! ## Notifications posted one after another -/

/-- What posting one notification per element of a list makes of each dispatch link (R156). -/
theorem State.dlink_foldl_post {α : Type} (kind : NotifKind) (subject : α → Subject) (detail : α → List Val)
    (l : List α) (s : State) (m : DLink) :
    (l.foldl (fun s e => s.post kind (subject e) (detail e)) s).dlink m =
      (s.dlink m).offers s.now (l.map (fun e => ⟨kind, s.now, subject e, detail e⟩)) := by
  induction l generalizing s with
  | nil => rfl
  | cons e rest ih =>
    rw [List.foldl_cons, ih, State.dlink_post]
    rfl

theorem State.foldl_post_rest {α : Type} (kind : NotifKind) (subject : α → Subject) (detail : α → List Val)
    (l : List α) (s : State) :
    l.foldl (fun s e => s.post kind (subject e) (detail e)) s =
      { s with dispatch := (l.foldl (fun s e => s.post kind (subject e) (detail e)) s).dispatch } := by
  induction l generalizing s with
  | nil => rfl
  | cons e rest ih =>
    rw [List.foldl_cons, ih]
    rfl

theorem State.dropWaiting_rest (s : State) (cause : Nat) :
    s.dropWaiting cause = { s with waiting := [], dispatch := (s.dropWaiting cause).dispatch } := by
  unfold State.dropWaiting
  simp only
  rw [State.foldl_post_rest]

theorem State.dlink_dropWaiting (s : State) (cause : Nat) (m : DLink) : (s.dropWaiting cause).dlink m =
    (s.dlink m).offers s.now
      (s.waiting.map (fun e => ⟨.pendingDropped, s.now, .carrier e.carrier, [.byte cause, .half e.tag]⟩)) :=
  State.dlink_foldl_post _ _ _ _ _ _

/-! ## The arrival of a frame -/

/-- The regain report with a loss in force: DLC leaves the segments as one request, and DISPATCH_REGAINED follows what
that request posts (R39, R153). -/
theorem State.regainDispatch_closes (s : State) (l : DLink) {since : Time} (h : s.lossSince = some since) :
    ∃ w, State.Closes { s with lossSince := none, dlcClosed := false } w ∧
      s.regainDispatch l = w.finish.post .dispatchRegained (.link l.key) [.word (s.now - since).toNat] := by
  obtain ⟨w, hw, hfinish⟩ := State.setDlc_closes { s with lossSince := none } false
  refine ⟨w, hw, ?_⟩
  unfold State.regainDispatch
  rw [h, ← hfinish]
  rfl

/-- Settles O5: an arrival is a restart of the link, or the regain. -/
theorem dispatchFrameArrives : Obligations.DispatchFrameArrives := by
  unfold Obligations.DispatchFrameArrives
  constructor
  · intro s l hup
    rw [taken_of_up s l hup, State.arrived, State.onDlink_onDlink]
    rfl
  · intro s l since hdown hother hloss
    obtain ⟨w, hw, hregain⟩ := State.regainDispatch_closes (s.arrived l) l (since := since) hloss
    refine ⟨w, hw, ?_⟩
    rw [State.taken, dispatchArrival_of_down s l hdown hother, hregain]
    rfl

/-! ## The expiry of a link timer -/

/-- The loss report (R37, R39, R152): the pending entries dropped, DLC closed as one request, DISPATCH_LOST last. -/
theorem State.loseDispatch_closes (s : State) (l : DLink) :
    ∃ w, State.Closes { s.dropWaiting 2 with lossSince := some s.now, dlcClosed := true } w ∧
      s.loseDispatch l = w.finish.post .dispatchLost (.link l.key) [.byte s.waiting.length] := by
  obtain ⟨w, hw, hfinish⟩ := State.setDlc_closes { s.dropWaiting 2 with lossSince := some s.now } true
  exact ⟨w, hw, congrArg (fun t => t.post .dispatchLost (.link l.key) [.byte s.waiting.length]) hfinish⟩

theorem State.expireDispatch_due (s : State) (l : DLink) (hup : (s.dlink l).up = true)
    (htimer : (s.dlink l).timer = some 0) : s.expireDispatch l =
      if (s.dlink l.other).up then s.onDlink l DispatchLink.lose
      else (s.onDlink l DispatchLink.lose).loseDispatch l := by
  unfold State.expireDispatch
  simp only
  rw [if_pos (by simp [hup, htimer]), State.dlink_onDlink_other]

/-- Settles O10. -/
theorem dispatchLinkTimeout : Obligations.DispatchLinkTimeout := by
  unfold Obligations.DispatchLinkTimeout
  intro s q l d sending hd hup htimer hreply hno hq
  subst hd
  have hsent : sending = match (s.dlink l).tx with | .reply _ => 1 | _ => 0 := by
    cases htx : (s.dlink l).tx with
    | reply r => exact hreply r htx
    | idle => exact hno (fun r h => by simp [htx] at h)
    | notification => exact hno (fun r h => by simp [htx] at h)
  have hlose : s.onDlink l DispatchLink.lose = q := by
    rw [hq]
    refine State.onDlink_congr s l ?_
    rw [hsent]
    rfl
  have hexec : exec (.dispatchLinkTimeout l) s = .next (s.expireDispatch l).pump := rfl
  rw [hexec, State.expireDispatch_due s l hup htimer, hlose]
  constructor
  · intro hother
    rw [if_pos hother]
  · intro hother
    obtain ⟨w, hw, hloss⟩ := State.loseDispatch_closes q l
    have hwaiting : q.waiting = s.waiting := by rw [hq]; rfl
    have hnow : q.now = s.now := by rw [hq]; rfl
    refine ⟨_, w, ?_, hw, ?_, fun m => ?_⟩
    · rw [if_neg (by simp [hother]), hloss, hwaiting]
    · rw [State.dropWaiting_rest, hnow]
    · exact (State.dlink_dropWaiting q 2 m).trans (by rw [hwaiting, hnow])

end Sys2Proof.Machine
end

section
/-! SET_SEGMENT (R8, R9): its fields, the records written into a run of ids, and the closures of the run. -/

namespace Sys2Proof.Machine

/-! ## Checks -/

theorem firstFails_nil {Name Detail : Type} (why : Name) (detail : Detail) : FirstFails [] why detail ↔ False := Iff.rfl

/-- A check with one possible detail fails, or the rest decides. -/
theorem firstFails_cons {Name Detail : Type} (reason : Name) (P : Prop) (v : Detail)
    (rest : List (Name × (Detail → Prop))) (why : Name) (detail : Detail) :
    FirstFails ((reason, fun d => P ∧ d = v) :: rest) why detail ↔
      (why = reason ∧ P ∧ detail = v) ∨ (¬ P ∧ FirstFails rest why detail) := by
  have h : (∀ d, ¬ (P ∧ d = v)) ↔ ¬ P := by simp
  rw [FirstFails, h]

/-! ## Fields -/

theorem readYesNo_bit {n : Nat} (h : n ≤ 1) : readYesNo n = some (decide (n = 1)) := by
  interval_cases n <;> rfl

theorem readYesNo_eq_none {n : Nat} : readYesNo n = none ↔ 2 ≤ n := by
  match n with
  | 0 => simp [readYesNo]
  | 1 => simp [readYesNo]
  | n + 2 => simp [readYesNo]

theorem readSegKind_bit {n : Nat} (h : n ≤ 1) : readSegKind n = some (if n = 1 then .gate else .lane) := by
  interval_cases n <;> rfl

theorem readSegKind_eq_none {n : Nat} : readSegKind n = none ↔ 2 ≤ n := by
  match n with
  | 0 => simp [readSegKind]
  | 1 => simp [readSegKind]
  | n + 2 => simp [readSegKind]

theorem readClosure_bits {n : Nat} (h : n ≤ 3) : readClosure n = some (decide (n % 2 = 1), decide (2 ≤ n)) := by
  interval_cases n <;> rfl

theorem readClosure_eq_none {n : Nat} : readClosure n = none ↔ 4 ≤ n := by
  simp [readClosure]

/-- The record of a SET_SEGMENT whose enumerations are all in range (R8). -/
theorem readSegment_ok {a : SegmentArgs} (hu : a.usable ≤ 1) (hk : a.kind ≤ 1) (hx : a.crossNext ≤ 1)
    (hc : a.closure ≤ 3) : readSegment a = .ok ⟨decide (a.usable = 1), if a.kind = 1 then .gate else .lane,
      clampTo 100 5000 a.length, clampTo 50 800 a.limit, decide (a.crossNext = 1), decide (a.closure % 2 = 1),
      decide (2 ≤ a.closure)⟩ := by
  unfold readSegment
  rw [readYesNo_bit hu, readSegKind_bit hk, readYesNo_bit hx, readClosure_bits hc]

/-- The field that BAD_VALUE names is the first in the layout that is outside its enumeration (log entry 38). -/
theorem readSegment_error {a : SegmentArgs} {place : Nat}
    (h : (2 ≤ a.usable ∧ place = 2) ∨ (a.usable ≤ 1 ∧ 2 ≤ a.kind ∧ place = 3) ∨
      (a.usable ≤ 1 ∧ a.kind ≤ 1 ∧ 2 ≤ a.crossNext ∧ place = 6) ∨
      (a.usable ≤ 1 ∧ a.kind ≤ 1 ∧ a.crossNext ≤ 1 ∧ 4 ≤ a.closure ∧ place = 7)) :
    readSegment a = .error place := by
  unfold readSegment
  rcases h with ⟨hu, rfl⟩ | ⟨hu, hk, rfl⟩ | ⟨hu, hk, hx, rfl⟩ | ⟨hu, hk, hx, hc, rfl⟩
  · rw [readYesNo_eq_none.2 hu]
  · rw [readYesNo_bit hu, readSegKind_eq_none.2 hk]
  · rw [readYesNo_bit hu, readSegKind_bit hk, readYesNo_eq_none.2 hx]
  · rw [readYesNo_bit hu, readSegKind_bit hk, readYesNo_bit hx, readClosure_eq_none.2 hc]

/-! ## A run of ids -/

/-- The ids of a run. -/
def runOf (first n : Nat) : List Nat := (List.range n).map (fun i => first + i)

theorem mem_runOf {first n i : Nat} : i ∈ runOf first n ↔ first ≤ i ∧ i < first + n := by
  simp only [runOf, List.mem_map, List.mem_range]
  constructor
  · rintro ⟨k, hk, rfl⟩
    omega
  · rintro ⟨hle, hlt⟩
    exact ⟨i - first, by omega, by omega⟩

theorem nodup_runOf (first n : Nat) : (runOf first n).Nodup :=
  List.nodup_range.map (fun _ _ h => Nat.add_left_cancel h)

theorem get_foldl_put {α : Type} (ids : List Nat) (v d : α) (t : Table α) (i : Nat) :
    (ids.foldl (fun t k => t.put k v) t).get i d = if i ∈ ids then v else t.get i d := by
  induction ids generalizing t with
  | nil => rfl
  | cons k rest ih =>
    rw [List.foldl_cons, ih, Table.get_put]
    by_cases hr : i ∈ rest <;> by_cases hk : i = k <;> simp [hr, hk]

/-- The part with one static record in every cell of a run. -/
def State.setRun (s : State) (first n : Nat) (r : SegStatic) : State :=
  { s with cfg := { s.cfg with grid := { s.cfg.grid with
    cells := (runOf first n).foldl (fun t i => t.put i r) s.grid.cells } } }

theorem State.record_setRun (s : State) (first n : Nat) (r : SegStatic) (i : Nat) :
    (s.setRun first n r).grid.record i = if first ≤ i ∧ i < first + n then r else s.grid.record i := by
  have h := get_foldl_put (runOf first n) r SegStatic.default s.grid.cells i
  simp only [mem_runOf] at h
  exact h

/-! ## SET_SEGMENT -/

/-- SET_SEGMENT with every check passed: one request on the part with the run of records written. -/
theorem ownSetSegment_ok {u : State} {a : SegmentArgs} {r : SegStatic} {n : Nat} (hm : u.mode = .config)
    (hf : a.first < u.grid.lanes * u.grid.bays) (hr : readSegment a = .ok r)
    (hn : n = min (max 1 (min a.count 64)) (u.grid.lanes * u.grid.bays - a.first)) :
    ownSetSegment a u = ((u.setRun a.first n r).request (fun w => w.alignClosures (runOf a.first n)),
      accept 0x24 (decide (n ≠ a.count ∨ r.length ≠ a.length ∨ r.limit ≠ a.limit))
        [.byte n, .half r.length, .half r.limit]) := by
  unfold ownSetSegment
  rw [if_neg (not_not.2 hm), (Grid.inside_iff _ _).2 hf, hr, hn]
  rfl

theorem ownSetSegment_badValue {u : State} {a : SegmentArgs} {place : Nat} (hm : u.mode = .config)
    (hf : a.first < u.grid.lanes * u.grid.bays) (hr : readSegment a = .error place) :
    ownSetSegment a u = (u, refuseField 0x24 place) := by
  unfold ownSetSegment
  rw [if_neg (not_not.2 hm), (Grid.inside_iff _ _).2 hf, hr]
  rfl

theorem ownSetSegment_badSegment {u : State} {a : SegmentArgs} (hm : u.mode = .config)
    (hf : u.grid.lanes * u.grid.bays ≤ a.first) :
    ownSetSegment a u = (u, refuse 0x24 .badSegment [.half a.first]) := by
  have hout : u.grid.inside a.first = false := by
    rw [Bool.eq_false_iff, ne_eq, Grid.inside_iff]
    omega
  unfold ownSetSegment
  rw [if_neg (not_not.2 hm), hout]
  rfl

/-- Settles O16. -/
theorem setSegment : Obligations.SetSegment := by
  unfold Obligations.SetSegment
  intro s u l a hu hroom
  constructor
  · intro why detail hfails
    refine next_takeRequest hu hroom ?_
    simp only [firstFails_cons, firstFails_nil, ne_eq, not_not, Nat.not_le, and_false, or_false] at hfails
    rcases hfails with ⟨rfl, hm, rfl⟩ | ⟨hm, ⟨rfl, hf, rfl⟩ | ⟨hf, hfield⟩⟩
    · exact if_pos hm
    · exact ownSetSegment_badSegment hm hf
    · obtain ⟨place, rfl, rfl, herror⟩ : ∃ place, why = .badValue ∧ detail = [.field place] ∧
          readSegment a = .error place := by
        rcases hfield with ⟨rfl, hu, rfl⟩ | ⟨hu, ⟨rfl, hk, rfl⟩ | ⟨hk, ⟨rfl, hx, rfl⟩ | ⟨hx, rfl, hc, rfl⟩⟩⟩
        · exact ⟨2, rfl, rfl, readSegment_error (by omega)⟩
        · exact ⟨3, rfl, rfl, readSegment_error (by omega)⟩
        · exact ⟨6, rfl, rfl, readSegment_error (by omega)⟩
        · exact ⟨7, rfl, rfl, readSegment_error (by omega)⟩
      exact ownSetSegment_badValue hm hf herror
  · intro hm hf husable hkind hcross hclosure n len lim hn hlen hlim
    obtain ⟨r, hr⟩ : ∃ r : SegStatic, r = ⟨decide (a.usable = 1), if a.kind = 1 then .gate else .lane, len, lim,
      decide (a.crossNext = 1), decide (a.closure % 2 = 1), decide (2 ≤ a.closure)⟩ := ⟨_, rfl⟩
    have hread : readSegment a = .ok r := by
      rw [readSegment_ok husable hkind hcross hclosure, hr, hlen, hlim]
      rfl
    have hown := ownSetSegment_ok hm hf hread hn
    have hw := Work.alignClosures_eq_onEach (Work.start (u.setRun a.first n r) none) (runOf a.first n)
    have hnodup := nodup_runOf a.first n
    refine ⟨(Work.start (u.setRun a.first n r) none).alignClosures (runOf a.first n),
      (next_takeRequest hu hroom hown).trans ?reply, ?grown, ?calls, ?rest, fun i => ?record, fun i => ?seg⟩
    case reply => rw [hr]; rfl
    case grown =>
      have h := Work.onEach_grown hnodup (Work.start (u.setRun a.first n r) none) (fun i =>
        SegDyn.alignClosures u.dlcClosed u.rlcClosed ((u.setRun a.first n r).grid.record i))
      rw [hw]
      exact ⟨h.before, h.touched, h.runs, h.bumped, h.settled, h.report⟩
    case calls =>
      rw [hw]
      exact Work.onEach_calls hnodup (Work.start (u.setRun a.first n r) none) _
    case rest =>
      rw [hw, Work.onEach_rest]
      rfl
    case record =>
      have h := u.record_setRun a.first n r i
      rw [← hr, hw, Work.onEach_rest]
      exact h
    case seg =>
      rw [hw, Work.seg_onEach hnodup]
      simp only [mem_runOf]
      split
      · next hi =>
        show SegDyn.alignClosures u.dlcClosed u.rlcClosed ((u.setRun a.first n r).grid.record i) (u.seg i) = _
        rw [State.record_setRun, if_pos hi, hr]
        rfl
      · rfl

end Sys2Proof.Machine
end

section
/-! The queries (R11, R46, R73, R116, R131, R154): what each answers, value by value. -/

namespace Sys2Proof.Machine

/-! ## Codes and places -/

/-- A reason set as the sum of its bits (R172). -/
theorem Reasons.code_eq (r : Reasons) : r.code = (if r.claim then 1 else 0) + (if r.violation then 2 else 0) +
    (if r.fault then 4 else 0) + (if r.link then 8 else 0) := by
  simp only [Reasons.code, bitCode, mul_ite, mul_one, mul_zero]

/-- An out-of-service set as the sum of its bits (R172). -/
theorem OutOfService.code_eq (o : OutOfService) : o.code =
    (if o.block then 1 else 0) + (if o.dlc then 2 else 0) + (if o.rlc then 4 else 0) := by
  simp only [OutOfService.code, bitCode, mul_ite, mul_one, mul_zero]

theorem DispatchTx.code_eq (t : DispatchTx) : t.code = if t = .idle then 0 else 1 := by
  cases t <;> rfl

theorem bitCode_isSome {α : Type} [DecidableEq α] (o : Option α) : bitCode o.isSome = if o = none then 0 else 1 := by
  cases o <;> rfl

theorem firstWhere_map_fst {α : Type} (p : α → Bool) (l : List α) (k : Nat) :
    (firstWhere p l k).map (fun q => q.1) = (l.findIdx? p).map (fun i => i + k) := by
  induction l generalizing k with
  | nil => rfl
  | cons a rest ih =>
    unfold firstWhere
    rw [List.findIdx?_cons]
    by_cases h : p a = true
    · simp [h]
    · simp only [h, Bool.false_eq_true, if_false, ih, Option.map_map]
      congr 1
      funext i
      simp only [Function.comp_apply]
      omega

/-- The place of an id is the index at which it first stands. -/
theorem placeOf_eq_findIdx? (l : List Nat) (x : Nat) : placeOf l x = l.findIdx? (fun y => decide (y = x)) := by
  have h := firstWhere_map_fst (fun y => decide (y = x)) l 0
  unfold placeOf
  simpa using h

/-- The place, counted from 1, of the first entry of a carrier. -/
theorem placeOf_waiting {waiting : List PendingEntry} {c : Nat} {place : Option Nat}
    (hfound : ∀ before e after, waiting = before ++ e :: after → e.carrier = c → (∀ y ∈ before, y.carrier ≠ c) →
      place = some (before.length + 1))
    (hnone : (∀ y ∈ waiting, y.carrier ≠ c) → place = none) :
    (placeOf (waiting.map (fun e => e.carrier)) c).map (fun i => i + 1) = place := by
  rw [placeOf_eq_findIdx?, List.findIdx?_map]
  cases h : waiting.findIdx? ((fun y => decide (y = c)) ∘ fun e => e.carrier) with
  | none =>
    rw [List.findIdx?_eq_none_iff] at h
    exact (hnone (by simpa using h)).symm
  | some i =>
    rw [List.findIdx?_eq_some_iff_getElem] at h
    obtain ⟨hi, hc, hbefore⟩ := h
    have hsplit : waiting = waiting.take i ++ waiting[i] :: waiting.drop (i + 1) := by simp
    have hplace := hfound _ _ _ hsplit (by simpa using hc) (fun y hy => by
      obtain ⟨j, hj, rfl⟩ := List.mem_take_iff_getElem.1 hy
      simpa using hbefore j (by omega))
    rw [hplace, List.length_take, Nat.min_eq_left (Nat.le_of_lt hi)]
    rfl

/-- The segments that count as held by a party are exactly those whose holder it is, HELD or FROZEN (log entry 43). -/
theorem length_ownedBy {s : State} (hs : s.segs.Sorted) {p : Party} {held : List Nat}
    (hmem : ∀ i, i ∈ held ↔ (s.seg i).holder = some p) (hn : held.Nodup) : (s.ownedBy p).length = held.length := by
  refine ((List.perm_ext_iff_of_nodup (Table.nodup_keysWhere hs _) hn).2 fun i => ?_).length_eq
  rw [hmem, Table.mem_keysWhere hs]
  unfold State.seg Table.get SegDyn.ownedBy
  cases s.segs.get? i with
  | none => simp [SegDyn.fresh, SegDyn.holder]
  | some r => simp

/-! ## The grid (R11) -/

theorem Grid.filter_usable (g : Grid) :
    g.ids.filter g.usable = (List.range (g.lanes * g.bays)).filter (fun i => (g.record i).usable) := by
  refine List.filter_congr fun i hi => ?_
  rw [Grid.usable, (g.inside_iff i).2 (List.mem_range.1 hi), Bool.true_and]

theorem Grid.filter_isGate (g : Grid) : g.ids.filter g.isGate =
    (List.range (g.lanes * g.bays)).filter (fun i => (g.record i).usable && decide ((g.record i).kind = .gate)) := by
  refine List.filter_congr fun i hi => ?_
  have h := (g.inside_iff i).2 (List.mem_range.1 hi)
  rw [Grid.isGate, Grid.usable, Grid.kindOf, h, Bool.true_and]
  rfl

/-! ## Segments (R46) -/

theorem SegStatic.vals_eq (x : SegStatic) : x.vals = [.byte (if x.usable then 1 else 0),
    .byte (match x.kind with | .lane => 0 | .gate => 1), .half x.length, .half x.limit,
    .byte (if x.crossNext then 1 else 0), .byte ((if x.dlc then 1 else 0) + (if x.rlc then 2 else 0))] := by
  obtain ⟨usable, kind, length, limit, crossNext, dlc, rlc⟩ := x
  cases kind <;> simp [SegStatic.vals, boolVal, bitCode, SegKind.code]

/-- The crane ids and reasons of a lock, after their number (log entry 66). -/
theorem lockVals_eq (t : Table Reasons) :
    lockVals t = .byte t.rows.length :: t.rows.flatMap (fun q => [.half q.1, .byte q.2.code]) := by
  simp [lockVals, listVals, Table.keys]

/-- The route values of a segment whose holder is a carrier with a route, and of every other (R46). -/
theorem State.routeVals_eq {s : State} {i : Nat} {extra : List Val}
    (hroute : ∀ c r, (s.seg i).holder = some (.carrier c) → s.route? c = some r → extra =
      [byteVal? (r.list.findIdx? (fun x => decide (x = i))), .byte r.version, .half r.tag, .byte r.origin.key])
    (hnone : (∀ c, (s.seg i).holder = some (.carrier c) → s.route? c = none) → extra = []) :
    s.routeVals i = extra := by
  unfold State.routeVals SegDyn.holdingCarrier
  rcases hh : (s.seg i).holder with - | c | k
  · exact (hnone (fun c hc => by simp [hh] at hc)).symm
  · cases hr : s.route? c with
    | none =>
      simp only [hr]
      exact (hnone (fun d hd => by rw [hh] at hd; cases hd; exact hr)).symm
    | some r => simp only [hroute c r hh hr, placeOf_eq_findIdx?, hr]
  · exact (hnone (fun c hc => by simp [hh] at hc)).symm

/-- The dynamic record of a segment as values, in whichever way a party is written out (R46). -/
theorem SegDyn.vals_eq (y : SegDyn) {party : Option Party → List Val} (hnone : party none = [.byte 0, .half 65535])
    (hcarrier : ∀ c, party (some (.carrier c)) = [.byte 1, .half c])
    (hcrane : ∀ k, party (some (.crane k)) = [.byte 2, .half k]) :
    y.vals = (match y.hold with
        | .free => [.byte 0] ++ party none ++ [.absent 1]
        | .held p k => [.byte 1] ++ party (some p) ++
            [.byte (match k with | .route => 0 | .standing => 1 | .leg => 2 | .travel => 3)]
        | .frozen p k => [.byte 2] ++ party (some p) ++
            [.byte (match k with | .route => 0 | .standing => 1 | .leg => 2 | .travel => 3)])
      ++ [.byte y.lock.rows.length] ++ y.lock.rows.flatMap (fun q => [.half q.1,
        .byte ((if q.2.claim then 1 else 0) + (if q.2.violation then 2 else 0) + (if q.2.fault then 4 else 0) +
          (if q.2.link then 8 else 0))])
      ++ [.byte ((if y.oos.block then 1 else 0) + (if y.oos.dlc then 2 else 0) + (if y.oos.rlc then 4 else 0))]
      ++ party y.intruder := by
  have hparty : party = partyVals := by
    funext o
    rcases o with - | c | k
    · exact hnone
    · exact hcarrier c
    · exact hcrane k
  have hkind : ∀ k : HoldKind,
      k.code = match k with | .route => 0 | .standing => 1 | .leg => 2 | .travel => 3 := fun k => by cases k <;> rfl
  unfold SegDyn.vals SegDyn.holder
  simp only [hparty, lockVals_eq, OutOfService.code_eq, Reasons.code_eq, hkind]
  cases y.hold <;> simp [Hold.code]

/-! ## Cranes (R116) -/

theorem State.slotVals_eq (s : State) (k : Nat) : s.slotVals k = .byte (s.craneCfg k).slotLanes.length ::
    (s.craneCfg k).slotLanes.flatMap (fun lane => match (s.crane k).bay with
      | some b => [.half (lane * s.grid.bays + b), .byte (s.seg (lane * s.grid.bays + b)).picture.code,
          .byte (s.seg (lane * s.grid.bays + b)).lock.rows.length] ++
          (s.seg (lane * s.grid.bays + b)).lock.rows.flatMap (fun q => [.half q.1, .byte q.2.code])
      | none => [.half 65535, .absent 1, .absent 1]) := by
  unfold State.slotVals
  cases (s.crane k).bay <;> simp [listVals, lockVals_eq, Grid.idAt, idVal, noneId]

theorem claimVals_eq (m : Option Claim) : claimVals m = match m with
    | some m => [.byte m.slot, .byte m.phase.code, .word m.start.toNat,
        if m.void = true ∨ m.phase = .inUse then .absent 4
        else .word (m.start + BitVec.ofNat 32 m.window).toNat, .byte (if m.void then 1 else 0)]
    | none => [.absent 1, .absent 1, .absent 4, .absent 4, .absent 1] := by
  rcases m with - | m
  · rfl
  · have h : timeVal? m.deadline = if m.void = true ∨ m.phase = .inUse then .absent 4
        else .word (m.start + BitVec.ofNat 32 m.window).toNat := by
      simp only [Claim.deadline, Bool.or_eq_true, decide_eq_true_eq]
      split <;> rfl
    simp only [claimVals, h]
    rfl

theorem candidateCode_eq (c : Option HoistClass) : candidateCode c = (c.map (fun h => h.code)).getD 255 := by
  cases c <;> rfl

theorem State.craneSummary_eq (s : State) : s.craneSummary =
    [CraneState.offline, .standing, .travelling, .halted, .linkLost].map (fun st =>
      .byte ((List.range 8).filter (fun k => (s.craneCfg k).present &&
        decide ((s.crane k).state = st))).length) := by
  simp only [State.craneSummary, Settings.presentCranes, List.filter_filter, State.craneCfg, Bool.and_comm]

/-! ## The queries -/

theorem stateCode?_eq (o : Option CarrierState) : stateCode? o = (o.map (fun p => p.code)).getD 255 := by
  cases o <;> rfl

/-- Settles O12: every query hands its values to one reply, and each value is read off its record. -/
theorem queriesAnswerAndChangeNothing : Obligations.QueriesAnswerAndChangeNothing := by
  unfold Obligations.QueriesAnswerAndChangeNothing
  refine ⟨fun s u l hu hr => ⟨?grid, fun c hc hx => ?noCarrier, fun k hk h8 => ?noCrane, fun sel hsel => ?noLink,
      fun m d hd => ?dispatch, fun r x h4 hx => ?radio, fun k h8 => ?crane, ?carriers, ?cranes⟩,
    fun s u l c x held place hu hr hsorted hx hc hmem hn hfound hnone => ?carrier,
    fun s u l k g c hu hr h8 hg hc => ?craneRecord,
    fun s u l i hu hr => ⟨fun hi => ?noSegment, fun hi x y party extra hx hy h0 h1 h2 hroute => ?segment⟩⟩
  case grid =>
    refine next_takeRequest hu hr ?_
    rw [ownQueryGrid, Grid.filter_usable, Grid.filter_isGate]
    rfl
  case noCarrier =>
    refine next_takeRequest hu hr ((if_neg hc).trans ?_)
    rw [hx]
    rfl
  case noCrane => exact next_takeRequest hu hr ((if_neg hk).trans (if_pos h8))
  case noLink =>
    refine next_takeRequest hu hr ?_
    rw [ownQueryLink, if_neg (by omega), if_neg (by omega), if_neg (by omega), if_neg (by omega)]
    rfl
  case dispatch =>
    have hown : ownQueryLink m.key u = (u, accept 0x22 false (u.dispatchVals m)) := by cases m <;> rfl
    rw [State.dispatchVals, DispatchTx.code_eq, boolVal, boolVal, bitCode_isSome, ← hd] at hown
    exact next_takeRequest hu hr hown
  case radio =>
    have hown : ownQueryLink (r + 2) u = (u, accept 0x22 false (u.radioVals r)) := by
      rw [ownQueryLink, if_neg (by omega), if_neg (by omega), if_pos (by omega), Nat.add_sub_cancel]
    rw [State.radioVals, boolVal, boolVal, bitCode_isSome, ← hx] at hown
    refine (next_takeRequest hu hr hown).trans ?_
    cases x.state <;> rfl
  case crane =>
    refine next_takeRequest hu hr ?_
    rw [ownQueryLink, if_neg (by omega), if_neg (by omega), if_neg (by omega), if_pos (by omega), Nat.add_sub_cancel]
    rfl
  case carriers => exact next_takeRequest hu hr rfl
  case cranes =>
    refine next_takeRequest hu hr ((if_pos rfl).trans ?_)
    rw [State.craneSummary_eq]
  case carrier =>
    refine next_takeRequest hu hr ((if_neg hc).trans ?_)
    rw [hx]
    simp only [State.carrierVals, length_ownedBy hsorted hmem hn, placeOf_waiting hfound hnone, stateCode?_eq,
      List.append_assoc]
    rfl
  case craneRecord =>
    have hk : k ≠ 65535 := by omega
    refine next_takeRequest hu hr ((if_neg hk).trans ((if_neg (Nat.not_le.2 h8)).trans ?_))
    rw [State.craneVals, State.slotVals_eq, claimVals_eq, candidateCode_eq, ← hg, ← hc]
    simp only [CraneConfig.geometryVals, listVals, List.append_assoc]
    rfl
  case noSegment =>
    refine next_takeRequest hu hr (if_pos ?_)
    rw [Bool.not_eq_true', Bool.eq_false_iff, ne_eq, Grid.inside_iff]
    omega
  case segment =>
    refine next_takeRequest hu hr ?_
    rw [ownQuerySegment, (Grid.inside_iff _ _).2 hi, State.routeVals_eq hroute.1 hroute.2, ← hx, ← hy,
      SegStatic.vals_eq, SegDyn.vals_eq y h0 h1 h2]
    simp only [List.append_assoc]
    rfl

end Sys2Proof.Machine
end

section
/-! The validation (R12 to R14): each item as a condition on the grid and the cranes, and the first that fails. -/

namespace Sys2Proof.Machine

/-! ## Searches -/

theorem firstWhere_eq_none {α : Type} {p : α → Bool} {l : List α} {k : Nat} :
    firstWhere p l k = none ↔ ∀ x ∈ l, p x = false := by
  induction l generalizing k with
  | nil => simp [firstWhere]
  | cons a rest ih =>
    unfold firstWhere
    by_cases h : p a = true <;> simp [h, ih]

theorem firstWhere_eq_some {α : Type} {p : α → Bool} {l : List α} {k t : Nat} {a : α} :
    firstWhere p l k = some (t, a) ↔
      ∃ pre post, l = pre ++ a :: post ∧ (∀ x ∈ pre, p x = false) ∧ p a = true ∧ t = k + pre.length := by
  induction l generalizing k with
  | nil => simp [firstWhere]
  | cons b rest ih =>
    unfold firstWhere
    by_cases h : p b = true
    · rw [if_pos h, Option.some.injEq, Prod.mk.injEq]
      constructor
      · rintro ⟨rfl, rfl⟩
        exact ⟨[], rest, rfl, by simp, h, rfl⟩
      · rintro ⟨pre, post, hl, hpre, ha, rfl⟩
        cases pre with
        | nil => simp_all
        | cons c pre => simp_all
    · rw [if_neg h, ih]
      constructor
      · rintro ⟨pre, post, rfl, hpre, ha, rfl⟩
        exact ⟨b :: pre, post, rfl, by simpa [h] using hpre, ha, by simp only [List.length_cons]; omega⟩
      · rintro ⟨pre, post, hl, hpre, ha, rfl⟩
        cases pre with
        | nil => simp_all
        | cons c pre =>
          simp only [List.cons_append, List.cons.injEq] at hl
          exact ⟨pre, post, hl.2, fun x hx => hpre x (List.mem_cons_of_mem _ hx), ha, by
            simp only [List.length_cons]; omega⟩

theorem repeatedSlot_eq_none {seen l : List Nat} {k : Nat} :
    repeatedSlot seen l k = none ↔ l.Nodup ∧ ∀ x ∈ l, x ∉ seen := by
  induction l generalizing seen k with
  | nil => simp [repeatedSlot]
  | cons a rest ih =>
    unfold repeatedSlot
    by_cases h : a ∈ seen
    · simp [h]
    · simp only [List.contains_iff_mem, h, if_false, ih, List.nodup_cons, List.mem_cons]
      grind

/-- The lowest index whose lane stands at a lower index, or among those seen before (R14). -/
theorem repeatedSlot_eq_some {seen l : List Nat} {k t : Nat} :
    repeatedSlot seen l k = some t ↔ ∃ pre lane post, l = pre ++ lane :: post ∧ pre.Nodup ∧ (∀ x ∈ pre, x ∉ seen) ∧
      (lane ∈ pre ∨ lane ∈ seen) ∧ t = k + pre.length := by
  induction l generalizing seen k with
  | nil => simp [repeatedSlot]
  | cons a rest ih =>
    unfold repeatedSlot
    by_cases h : a ∈ seen
    · simp only [List.contains_iff_mem, h, if_true, Option.some.injEq]
      constructor
      · rintro rfl
        exact ⟨[], a, rest, rfl, .nil, by simp, .inr h, rfl⟩
      · rintro ⟨pre, lane, post, hl, hn, hpre, hlane, rfl⟩
        cases pre with
        | nil => rfl
        | cons b pre => simp_all
    · simp only [List.contains_iff_mem, h, if_false, ih]
      constructor
      · rintro ⟨pre, lane, post, rfl, hn, hpre, hlane, rfl⟩
        refine ⟨a :: pre, lane, post, rfl, ?_, ?_, ?_, by simp only [List.length_cons]; omega⟩ <;> grind
      · rintro ⟨pre, lane, post, hl, hn, hpre, hlane, rfl⟩
        cases pre with
        | nil => simp_all
        | cons b pre =>
          obtain ⟨rfl, rfl⟩ : a = b ∧ rest = pre ++ lane :: post := by simpa using hl
          refine ⟨pre, lane, post, rfl, ?_, ?_, ?_, by simp only [List.length_cons]; omega⟩ <;> grind

/-! ## The grid items (R13) -/

/-- A usable GATE away from every edge, by its lane and bay. -/
theorem Grid.innerGate_iff (g : Grid) (i : Nat) : (g.isGate i && !(g.onEdge i)) = true ↔
    ∃ l b, i = l * g.bays + b ∧ l < g.lanes ∧ b < g.bays ∧ (g.record i).usable = true ∧ (g.record i).kind = .gate ∧
      0 < l ∧ l + 1 < g.lanes ∧ 0 < b ∧ b + 1 < g.bays := by
  have hgate : g.isGate i = true ↔
      i < g.lanes * g.bays ∧ (g.record i).usable = true ∧ (g.record i).kind = .gate := by
    rw [isGate, Bool.and_eq_true, usable_iff, kindOf, decide_eq_true_eq, and_assoc]
    refine and_congr_right fun hi => ?_
    rw [(g.inside_iff i).2 hi]
    rfl
  have hedge : (!(g.onEdge i)) = true ↔
      g.laneOf i ≠ 0 ∧ g.laneOf i + 1 ≠ g.lanes ∧ g.bayOf i ≠ 0 ∧ g.bayOf i + 1 ≠ g.bays := by
    simp [onEdge, and_assoc]
  rw [Bool.and_eq_true, hgate, hedge]
  constructor
  · rintro ⟨⟨hi, husable, hkind⟩, h⟩
    have hl := g.laneOf_lt hi
    have hb := g.bayOf_lt hi
    exact ⟨g.laneOf i, g.bayOf i, (g.idAt_laneOf_bayOf i).symm, hl, hb, husable, hkind, by omega, by omega, by omega,
      by omega⟩
  · rintro ⟨l, b, rfl, hl, hb, husable, hkind, h⟩
    rw [g.laneOf_id hb, g.bayOf_id hb]
    exact ⟨⟨g.id_lt hl hb, husable, hkind⟩, by omega⟩

theorem Grid.all_unusable_iff (g : Grid) : g.ids.all (fun i => !(g.usable i)) = true ↔
    ¬ ∃ i, i < g.lanes * g.bays ∧ (g.record i).usable = true := by
  simp only [List.all_eq_true, Bool.not_eq_true', Bool.eq_false_iff, ne_eq, usable_iff, mem_ids, not_exists]
  grind

theorem Grid.failure_unusable (g : Grid) (h : ¬ ∃ i, i < g.lanes * g.bays ∧ (g.record i).usable = true) :
    g.failure = some ⟨.noUsableSegment, none, 255⟩ :=
  if_pos (g.all_unusable_iff.2 h)

theorem Grid.failure_usable (g : Grid) (h : ∃ i, i < g.lanes * g.bays ∧ (g.record i).usable = true) :
    g.failure = (g.ids.find? (fun i => g.isGate i && !(g.onEdge i))).map (fun i => ⟨.gateNotOnEdge, some i, 255⟩) := by
  unfold failure
  rw [if_neg (fun hall => g.all_unusable_iff.1 hall h)]
  cases g.ids.find? (fun i => g.isGate i && !(g.onEdge i)) <;> rfl

theorem Grid.failure_gate (g : Grid) {i : Nat} (h : ∃ i, i < g.lanes * g.bays ∧ (g.record i).usable = true)
    (hi : (g.isGate i && !(g.onEdge i)) = true) (hlow : ∀ j, j < i → ¬ (g.isGate j && !(g.onEdge j)) = true) :
    g.failure = some ⟨.gateNotOnEdge, some i, 255⟩ := by
  have hmem : i ∈ g.ids := by
    obtain ⟨l, b, rfl, hl, hb, -⟩ := (g.innerGate_iff i).1 hi
    exact (g.mem_ids _).2 (g.id_lt hl hb)
  have hfind : g.ids.find? (fun i => g.isGate i && !(g.onEdge i)) = some i := by
    unfold ids at hmem ⊢
    rw [List.find?_range_eq_some]
    exact ⟨hi, hmem, fun j hj => by simpa only [Bool.not_eq_true, Bool.not_eq_true'] using hlow j hj⟩
  rw [failure_usable g h, hfind]
  rfl

theorem Grid.failure_eq_none (g : Grid) : g.failure = none ↔
    (∃ i, i < g.lanes * g.bays ∧ (g.record i).usable = true) ∧ ∀ i, ¬ (g.isGate i && !(g.onEdge i)) = true := by
  by_cases h : ∃ i, i < g.lanes * g.bays ∧ (g.record i).usable = true
  · have hin : ∀ i, i ∉ g.ids → ¬ (g.isGate i && !(g.onEdge i)) = true := fun i hi hg => by
      obtain ⟨l, b, rfl, hl, hb, -⟩ := (g.innerGate_iff i).1 hg
      exact hi ((g.mem_ids _).2 (g.id_lt hl hb))
    rw [failure_usable g h, Option.map_eq_none_iff, List.find?_eq_none]
    grind
  · simp [failure_unusable g h, h]

/-! ## The crane items (R14) -/

/-- A check that names a place, and the checks after it. -/
theorem firstFails_place {P : Nat → Prop} {o : Option Nat} {k index : Nat} {first item : ValidationItem}
    {rest : Option Failure} {checks : List (ValidationItem × (Nat → Prop))} (ho : ∀ n, o = some n ↔ P n)
    (hrest : rest = some ⟨item, some k, index⟩ ↔ FirstFails checks item index) :
    o.elim rest (fun n => some ⟨first, some k, n⟩) = some ⟨item, some k, index⟩ ↔
      FirstFails ((first, P) :: checks) item index := by
  have hnone : (∀ n, ¬ P n) ↔ o = none := by simp only [← ho, Option.eq_none_iff_forall_ne_some, ne_eq]
  rw [FirstFails, hnone, ← ho, ← hrest]
  cases o <;> simp [eq_comm]

/-- A check whose index is fixed, and the checks after it. -/
theorem firstFails_fixed {Q : Prop} [Decidable Q] {k n index : Nat} {first item : ValidationItem}
    {rest : Option Failure} {checks : List (ValidationItem × (Nat → Prop))}
    (hrest : rest = some ⟨item, some k, index⟩ ↔ FirstFails checks item index) :
    (if Q then some ⟨first, some k, n⟩ else rest) = some ⟨item, some k, index⟩ ↔
      FirstFails ((first, fun m => Q ∧ m = n) :: checks) item index := by
  rw [firstFails_cons, ← hrest]
  split <;> simp [*, eq_comm]

/-- The place of the first slot lane that does not lie strictly between the legs. -/
def CraneConfig.straySlot (c : CraneConfig) : Option Nat :=
  (firstWhere (fun l => !(decide (c.waterside < l) && decide (l < c.landside))) c.slotLanes 0).map (fun q => q.1)

theorem CraneConfig.straySlot_eq_none (c : CraneConfig) :
    c.straySlot = none ↔ ∀ lane ∈ c.slotLanes, c.waterside < lane ∧ lane < c.landside := by
  rw [straySlot, Option.map_eq_none_iff, firstWhere_eq_none]
  simp

theorem CraneConfig.straySlot_eq_some (c : CraneConfig) (n : Nat) : c.straySlot = some n ↔
    ∃ pre lane post, c.slotLanes = pre ++ lane :: post ∧ (∀ x ∈ pre, c.waterside < x ∧ x < c.landside) ∧
      ¬ (c.waterside < lane ∧ lane < c.landside) ∧ n = pre.length := by
  rw [straySlot, Option.map_eq_some_iff]
  simp only [Prod.exists, firstWhere_eq_some, Bool.not_eq_true', Bool.and_eq_true, decide_eq_true_eq,
    Bool.eq_false_iff, ne_eq, not_not, Nat.zero_add]
  constructor
  · rintro ⟨t, lane, ⟨pre, post, hl, hpre, hlane, ht⟩, rfl⟩
    exact ⟨pre, lane, post, hl, hpre, hlane, ht⟩
  · rintro ⟨pre, lane, post, hl, hpre, hlane, hn⟩
    exact ⟨n, lane, ⟨pre, post, hl, hpre, hlane, hn⟩, rfl⟩

theorem CraneConfig.failure_eq_checks (c : CraneConfig) (k lanes : Nat) (ref : Nat × Nat) : c.failure k lanes ref =
    if lanes ≤ c.waterside then some ⟨.legLaneOutside, some k, 0⟩
    else if lanes ≤ c.landside then some ⟨.legLaneOutside, some k, 1⟩
    else if c.landside ≤ c.waterside then some ⟨.legLanesOrder, some k, 255⟩
    else c.straySlot.elim
      ((repeatedSlot [] c.slotLanes 0).elim
        (if (c.waterside, c.landside) ≠ ref then some ⟨.legLanesDiffer, some k, 255⟩ else none)
        (fun n => some ⟨.slotLaneRepeated, some k, n⟩))
      (fun n => some ⟨.slotOutsideLegs, some k, n⟩) := by
  unfold failure straySlot
  rcases firstWhere (fun l => !(decide (c.waterside < l) && decide (l < c.landside))) c.slotLanes 0 with - | ⟨t, lane⟩
  · cases repeatedSlot [] c.slotLanes 0 <;> rfl
  · rfl

/-- The first failing item of a crane, with its index, against the reference leg lanes. -/
theorem CraneConfig.failure_eq_some (c : CraneConfig) (k lanes : Nat) (ref : Nat × Nat) (item : ValidationItem)
    (index : Nat) : c.failure k lanes ref = some ⟨item, some k, index⟩ ↔ FirstFails [
      (.legLaneOutside, fun n => lanes ≤ c.waterside ∧ n = 0),
      (.legLaneOutside, fun n => lanes ≤ c.landside ∧ n = 1),
      (.legLanesOrder, fun n => c.landside ≤ c.waterside ∧ n = 255),
      (.slotOutsideLegs, fun n => ∃ pre lane post, c.slotLanes = pre ++ lane :: post ∧
        (∀ x ∈ pre, c.waterside < x ∧ x < c.landside) ∧ ¬ (c.waterside < lane ∧ lane < c.landside) ∧ n = pre.length),
      (.slotLaneRepeated, fun n => ∃ pre lane post, c.slotLanes = pre ++ lane :: post ∧ pre.Nodup ∧ lane ∈ pre ∧
        n = pre.length),
      (.legLanesDiffer, fun n => (c.waterside, c.landside) ≠ ref ∧ n = 255)] item index := by
  rw [failure_eq_checks]
  refine firstFails_fixed (firstFails_fixed (firstFails_fixed (firstFails_place c.straySlot_eq_some
    (firstFails_place (fun n => ?repeated) (firstFails_fixed ?last)))))
  case repeated => simp [repeatedSlot_eq_some]
  case last => simp [FirstFails]

/-- A failing item of a crane names that crane. -/
theorem CraneConfig.failure_subject {c : CraneConfig} {k lanes : Nat} {ref : Nat × Nat} {f : Failure}
    (h : c.failure k lanes ref = some f) : f = ⟨f.item, some k, f.index⟩ := by
  rw [failure_eq_checks] at h
  cases hs : c.straySlot <;> cases hr : repeatedSlot [] c.slotLanes 0 <;> simp only [hs, hr, Option.elim] at h <;>
    split_ifs at h <;> cases h <;> rfl

theorem CraneConfig.failure_eq_none (c : CraneConfig) (k lanes : Nat) (ref : Nat × Nat) : c.failure k lanes ref = none ↔
    c.waterside < c.landside ∧ c.landside < lanes ∧ (∀ lane ∈ c.slotLanes, c.waterside < lane ∧ lane < c.landside) ∧
      c.slotLanes.Nodup ∧ (c.waterside, c.landside) = ref := by
  have hnodup : repeatedSlot [] c.slotLanes 0 = none ↔ c.slotLanes.Nodup := by simp [repeatedSlot_eq_none]
  rw [failure_eq_checks, ← straySlot_eq_none, ← hnodup]
  cases c.straySlot <;> cases repeatedSlot [] c.slotLanes 0 <;> grind

/-! ## The whole validation (R12) -/

/-- The leg lanes of the lowest-numbered present crane. -/
def Settings.legs (c : Settings) : Nat × Nat :=
  match c.presentCranes with
  | k :: _ => ((c.cranes.get k CraneConfig.default).waterside, (c.cranes.get k CraneConfig.default).landside)
  | [] => (0, 0)

theorem Settings.mem_presentCranes (c : Settings) (k : Nat) :
    k ∈ c.presentCranes ↔ k < 8 ∧ (c.cranes.get k CraneConfig.default).present = true := by
  simp [presentCranes]

theorem Settings.presentCranes_sorted (c : Settings) : c.presentCranes.Pairwise (· < ·) :=
  List.pairwise_lt_range.filter _

/-- The cranes below a present crane that come before it in the order of the validation. -/
theorem Settings.presentCranes_split (c : Settings) {k : Nat} (hk : k ∈ c.presentCranes) :
    ∃ pre post, c.presentCranes = pre ++ k :: post ∧ ∀ j ∈ pre, j < k := by
  obtain ⟨pre, post, h⟩ := List.append_of_mem hk
  have hs := c.presentCranes_sorted
  rw [h, List.pairwise_append] at hs
  exact ⟨pre, post, h, fun j hj => hs.2.2 j hj k (by simp)⟩

theorem Settings.legs_eq (c : Settings) {j : Nat} (h8 : j < 8)
    (hj : (c.cranes.get j CraneConfig.default).present = true)
    (hlow : ∀ i, i < j → (c.cranes.get i CraneConfig.default).present = false) :
    c.legs = ((c.cranes.get j CraneConfig.default).waterside, (c.cranes.get j CraneConfig.default).landside) := by
  obtain ⟨pre, post, h, hpre⟩ := c.presentCranes_split ((c.mem_presentCranes j).2 ⟨h8, hj⟩)
  cases pre with
  | nil => rw [legs, h]; rfl
  | cons i pre =>
    have hi := (c.mem_presentCranes i).1 (by rw [h]; simp)
    simp [hlow i (hpre i (by simp))] at hi

theorem Settings.exists_lowest (c : Settings) {k : Nat} (h8 : k < 8)
    (hk : (c.cranes.get k CraneConfig.default).present = true) :
    ∃ j, j < 8 ∧ (c.cranes.get j CraneConfig.default).present = true ∧
      ∀ i, i < j → (c.cranes.get i CraneConfig.default).present = false := by
  classical
  have hex : ∃ j, (c.cranes.get j CraneConfig.default).present = true := ⟨k, hk⟩
  exact ⟨Nat.find hex, Nat.lt_of_le_of_lt (Nat.find_min' hex hk) h8, Nat.find_spec hex,
    fun i hi => by simpa using Nat.find_min hex hi⟩

theorem Settings.validate_eq (c : Settings) : c.validate = c.grid.failure.or
    (c.presentCranes.findSome? (fun k => (c.cranes.get k CraneConfig.default).failure k c.grid.lanes c.legs)) := by
  unfold validate
  cases c.grid.failure <;> rfl

/-- The validation passes on the grid items and on the items of every present crane (R12 to R14). -/
theorem Settings.validate_eq_none (c : Settings) : c.validate = none ↔
    c.grid.failure = none ∧ ∀ k ∈ c.presentCranes,
      (c.cranes.get k CraneConfig.default).failure k c.grid.lanes c.legs = none := by
  rw [validate_eq, Option.or_eq_none_iff, List.findSome?_eq_none_iff]

/-- With the grid items passed, the lowest present crane that has a failing item decides (R14). -/
theorem Settings.validate_crane (c : Settings) {k : Nat} {f : Failure} (hgrid : c.grid.failure = none)
    (hk : k ∈ c.presentCranes) (hf : (c.cranes.get k CraneConfig.default).failure k c.grid.lanes c.legs = some f)
    (hlow : ∀ j ∈ c.presentCranes, j < k →
      (c.cranes.get j CraneConfig.default).failure j c.grid.lanes c.legs = none) :
    c.validate = some f := by
  obtain ⟨pre, post, hsplit, hpre⟩ := c.presentCranes_split hk
  rw [validate_eq, hgrid, Option.none_or, List.findSome?_eq_some_iff]
  exact ⟨pre, k, post, hsplit, hf, fun j hj => hlow j (by rw [hsplit]; simp [hj]) (hpre j hj)⟩

/-- All present cranes have the leg lanes of the lowest one exactly when any two have the same (R14). -/
theorem Settings.legs_agree (c : Settings) :
    (∀ k, k < 8 → (c.cranes.get k CraneConfig.default).present = true →
      ((c.cranes.get k CraneConfig.default).waterside, (c.cranes.get k CraneConfig.default).landside) = c.legs) ↔
    ∀ k, k < 8 → (c.cranes.get k CraneConfig.default).present = true →
      ∀ j, j < 8 → (c.cranes.get j CraneConfig.default).present = true →
        (c.cranes.get j CraneConfig.default).waterside = (c.cranes.get k CraneConfig.default).waterside ∧
          (c.cranes.get j CraneConfig.default).landside = (c.cranes.get k CraneConfig.default).landside := by
  constructor
  · intro h k h8 hk j hj8 hj
    exact Prod.mk.injEq .. ▸ (h j hj8 hj).trans (h k h8 hk).symm
  · intro h k h8 hk
    obtain ⟨j, hj8, hj, hlow⟩ := c.exists_lowest h8 hk
    rw [c.legs_eq hj8 hj hlow, Prod.mk.injEq]
    exact h j hj8 hj k h8 hk

/-- The item of leg lanes that differ, of a present crane: against the lowest present crane (R14). -/
theorem Settings.legs_differ (c : Settings) {k : Nat} (h8 : k < 8)
    (hk : (c.cranes.get k CraneConfig.default).present = true) (legs : Nat × Nat)
    (rest : Prop) : legs ≠ c.legs ∧ rest ↔ ∃ j, j < 8 ∧ (c.cranes.get j CraneConfig.default).present = true ∧
      (∀ i, i < j → (c.cranes.get i CraneConfig.default).present = false) ∧
      ¬ (legs.1 = (c.cranes.get j CraneConfig.default).waterside ∧
        legs.2 = (c.cranes.get j CraneConfig.default).landside) ∧ rest := by
  constructor
  · rintro ⟨hne, hrest⟩
    obtain ⟨j, hj8, hj, hlow⟩ := c.exists_lowest h8 hk
    refine ⟨j, hj8, hj, hlow, fun he => hne ?_, hrest⟩
    rw [c.legs_eq hj8 hj hlow]
    exact Prod.ext he.1 he.2
  · rintro ⟨j, hj8, hj, hlow, hne, hrest⟩
    refine ⟨fun he => hne ?_, hrest⟩
    rw [he, c.legs_eq hj8 hj hlow]
    exact ⟨rfl, rfl⟩

/-- Settles O17: the grid items first, and then the items of the lowest present crane that fails one. -/
theorem validationFindsTheFirstFailure : Obligations.ValidationFindsTheFirstFailure := by
  unfold Obligations.ValidationFindsTheFirstFailure
  refine ⟨fun c => ?passes, fun c usable gate inner crane fails husable hinner hgate hcrane hfails => ?fails,
    rfl, fun item subject index => rfl, rfl⟩
  case passes =>
    have hedge : (∀ i, ¬ (c.grid.isGate i && !(c.grid.onEdge i)) = true) ↔
        ∀ l b, l < c.grid.lanes → b < c.grid.bays → (c.grid.record (l * c.grid.bays + b)).usable = true →
          (c.grid.record (l * c.grid.bays + b)).kind = .gate →
          l = 0 ∨ l + 1 = c.grid.lanes ∨ b = 0 ∨ b + 1 = c.grid.bays := by
      simp only [Grid.innerGate_iff, not_exists]
      constructor
      · intro h l b hl hb hu hk
        by_contra hin
        exact h _ l b ⟨rfl, hl, hb, hu, hk, by omega⟩
      · rintro h _ l b ⟨rfl, hl, hb, hu, hk, hin⟩
        have := h l b hl hb hu hk
        omega
    rw [Settings.validate_eq_none, Grid.failure_eq_none, hedge, and_assoc]
    refine and_congr_right fun _ => and_congr_right fun _ => ?_
    simp only [Settings.mem_presentCranes, CraneConfig.failure_eq_none, forall_eq]
    have hagree := c.legs_agree
    grind
  case fails =>
    have hinner' : ∀ i, inner i ↔ (c.grid.isGate i && !(c.grid.onEdge i)) = true := fun i => by
      rw [hinner, Grid.innerGate_iff]
    have hfails' : ∀ k item index, fails k item index ↔ k ∈ c.presentCranes ∧
        (crane k).failure k c.grid.lanes c.legs = some ⟨item, some k, index⟩ := fun k item index => by
      rw [hfails, CraneConfig.failure_eq_some, Settings.mem_presentCranes, and_assoc, ← hcrane]
      refine and_congr_right fun h8 => and_congr_right fun hk => ?_
      rw [hcrane] at hk
      simp only [c.legs_differ h8 hk, ← hcrane]
    refine ⟨fun hno => ?_, fun i hu hi hlow => ?_, fun k item index hu hno hk hlow => ?_⟩
    · rw [husable] at hno
      rw [Settings.validate_eq, Grid.failure_unusable _ hno, Option.some_or]
    · have hgate := c.grid.failure_gate (husable.1 hu) ((hinner' i).1 hi)
        (fun j hj hin => hlow j hj ((hinner' j).2 hin))
      rw [Settings.validate_eq, hgate, Option.some_or]
    · have hgrid : c.grid.failure = none := c.grid.failure_eq_none.2
        ⟨husable.1 hu, fun i hi => hno (hgate.2 ⟨i, (hinner' i).2 hi⟩)⟩
      obtain ⟨hmem, hf⟩ := (hfails' k item index).1 hk
      rw [hcrane] at hf
      refine c.validate_crane hgrid hmem hf (fun j hj hjk => ?_)
      rw [Option.eq_none_iff_forall_ne_some]
      intro f hjf
      refine hlow j f.item f.index hjk ((hfails' j _ _).2 ⟨hj, ?_⟩)
      rw [hcrane, hjf, ← CraneConfig.failure_subject hjf]

end Sys2Proof.Machine
end

section
/-! What the end of a request leaves of the segments (R21, R34, R75): the re-examination grants, so that holds change,
and the out-of-service sets, the locks and the intruders stand. -/

namespace Sys2Proof.Machine

/-- Of a segment record at most the hold changes, and the cranes, their links and the learning table stand. -/
structure HoldsOnly (s t : State) : Prop where
  segs : ∀ i, t.seg i = { s.seg i with hold := (t.seg i).hold }
  cranes : t.cranes = s.cranes
  craneLinks : t.craneLinks = s.craneLinks
  learning : t.learning = s.learning

namespace HoldsOnly

theorem refl (s : State) : HoldsOnly s s := ⟨fun _ => rfl, rfl, rfl, rfl⟩

theorem trans {s t u : State} (h : HoldsOnly s t) (g : HoldsOnly t u) : HoldsOnly s u :=
  ⟨fun i => by rw [g.segs, h.segs], g.cranes.trans h.cranes, g.craneLinks.trans h.craneLinks,
    g.learning.trans h.learning⟩

theorem of_pictured {s t : State} (h : Pictured s t) : HoldsOnly s t := by
  rw [h.rest]
  exact ⟨fun _ => rfl, rfl, rfl, rfl⟩

section
variable {s t : State} (h : HoldsOnly s t)
include h

theorem oos (i : Nat) : (t.seg i).oos = (s.seg i).oos := by rw [h.segs]
theorem lock (i : Nat) : (t.seg i).lock = (s.seg i).lock := by rw [h.segs]
theorem intruder (i : Nat) : (t.seg i).intruder = (s.seg i).intruder := by rw [h.segs]

end

end HoldsOnly

theorem onCarrier_holdsOnly (s : State) (c : Nat) (f : Carrier → Carrier) : HoldsOnly s (s.onCarrier c f) := by
  unfold State.onCarrier
  split <;> exact ⟨fun _ => rfl, rfl, rfl, rfl⟩

namespace Work

/-- The same of an operation on a request in progress. -/
def HoldsOnly (w v : Work) : Prop := Machine.HoldsOnly w.s v.s

theorem HoldsOnly.refl (w : Work) : HoldsOnly w w := Machine.HoldsOnly.refl w.s

theorem HoldsOnly.trans {w v u : Work} (h : HoldsOnly w v) (g : HoldsOnly v u) : HoldsOnly w u :=
  Machine.HoldsOnly.trans h g

theorem on_holdsOnly (w : Work) (f : State → State) (h : Machine.HoldsOnly w.s (f w.s)) : HoldsOnly w (w.on f) := h

theorem concern_holdsOnly (w : Work) (c : Nat) : HoldsOnly w (w.concern c) := .refl _

theorem foldl_holdsOnly {α : Type} (f : Work → α → Work) (h : ∀ w a, HoldsOnly w (f w a)) (l : List α) (w : Work) :
    HoldsOnly w (l.foldl f w) := by
  induction l generalizing w with
  | nil => exact .refl _
  | cons a rest ih => exact (h w a).trans (ih (f w a))

theorem onCarrier_holdsOnly (w : Work) (c : Nat) (f : Carrier → Carrier) : HoldsOnly w (w.onCarrier c f) :=
  Machine.onCarrier_holdsOnly _ _ _

theorem post_holdsOnly (w : Work) (kind : NotifKind) (subject : Subject) (detail : List Val) :
    HoldsOnly w (w.post kind subject detail) :=
  Machine.HoldsOnly.of_pictured (post_pictured _ _ _ _)

theorem dropStale_holdsOnly (w : Work) (c : Nat) (cause : StaleCause) : HoldsOnly w (w.dropStale c cause) := by
  unfold Work.dropStale
  split
  · exact ⟨fun _ => rfl, rfl, rfl, rfl⟩
  · exact .refl _

theorem changeState_holdsOnly (w : Work) (c : Nat) (new : CarrierState) (extra : List Val) :
    HoldsOnly w (w.changeState c new extra) := by
  unfold Work.changeState
  split
  · exact .refl _
  · simp only
    split
    · exact (w.onCarrier_holdsOnly c _).trans ((post_holdsOnly _ _ _ _).trans
        ((concern_holdsOnly _ _).trans (dropStale_holdsOnly _ _ _)))
    · exact (w.onCarrier_holdsOnly c _).trans ((post_holdsOnly _ _ _ _).trans (concern_holdsOnly _ _))

theorem enterEmergency_holdsOnly (w : Work) (c : Nat) (cause : EmergencyCause) (lock : Option Reasons) :
    HoldsOnly w (w.enterEmergency c cause lock) := by
  unfold Work.enterEmergency
  split
  · exact .refl _
  · split
    · exact (w.onCarrier_holdsOnly c _).trans (changeState_holdsOnly _ _ _ _)
    · exact (w.onCarrier_holdsOnly c _).trans (changeState_holdsOnly _ _ _ _)
    · exact post_holdsOnly _ _ _ _
    · exact (w.onCarrier_holdsOnly c _).trans (post_holdsOnly _ _ _ _)
    all_goals exact .refl _

theorem onSegs_hold_holdsOnly (w : Work) (ids : List Nat) (p : Party) (k : HoldKind) :
    HoldsOnly w (w.onSegs ids (SegDyn.hold_ p k)) := by
  refine ⟨fun i => ?_, ?_, ?_, ?_⟩
  · rw [seg_onSegs w ids _ (hold_idem p k)]
    split <;> rfl
  all_goals rw [onSegs_rest]

theorem bumpVersion_holdsOnly (w : Work) (c : Nat) : HoldsOnly w (w.bumpVersion c) := ⟨fun _ => rfl, rfl, rfl, rfl⟩

/-- A grant places holds (R25). -/
theorem grant_holdsOnly (w : Work) (c : Nat) (list : List Nat) (stop tag : Nat) (origin : DLink) :
    HoldsOnly w (w.grant c list stop tag origin) := by
  unfold Work.grant
  split
  · exact .refl _
  · have hroute : ∀ (v : Work) (f : State → Table Route), HoldsOnly v (v.on (fun s => { s with routes := f s })) :=
      fun v f => v.on_holdsOnly _ ⟨fun _ => rfl, rfl, rfl, rfl⟩
    exact HoldsOnly.trans (w.onSegs_hold_holdsOnly _ _ _)
      ((hroute _ _).trans ((bumpVersion_holdsOnly _ _).trans (changeState_holdsOnly _ _ _ _)))

theorem tryEntry_holdsOnly (w : Work) (e : PendingEntry) : HoldsOnly w (w.tryEntry e) := by
  unfold Work.tryEntry
  split
  · exact ⟨fun _ => rfl, rfl, rfl, rfl⟩
  · split
    · exact ⟨fun _ => rfl, rfl, rfl, rfl⟩
    · exact (w.grant_holdsOnly _ _ _ _ _).trans
        ((on_holdsOnly _ _ ⟨fun _ => rfl, rfl, rfl, rfl⟩).trans (post_holdsOnly _ _ _ _))

theorem reexamine_holdsOnly (w : Work) : HoldsOnly w w.reexamine := foldl_holdsOnly _ tryEntry_holdsOnly _ _

theorem testSpeed_holdsOnly (w : Work) (c : Nat) : HoldsOnly w (w.testSpeed c) := by
  have h := w.onCarrier_holdsOnly c (fun r => { r with auth := r.auth.promote w.s.now })
  unfold Work.testSpeed
  simp only
  split
  · exact h
  · split
    · exact h.trans ((onCarrier_holdsOnly _ _ _).trans ((post_holdsOnly _ _ _ _).trans
        (enterEmergency_holdsOnly _ _ _ _)))
    · exact h

theorem cutBack_holdsOnly (w : Work) (c : Nat) (r : Carrier) (e : EndPoint) : HoldsOnly w (w.cutBack c r e) := by
  unfold Work.cutBack
  split
  · split
    · exact bumpVersion_holdsOnly _ _
    · exact .refl _
  · exact .refl _

theorem authorityRun_holdsOnly (w : Work) (c : Nat) (leaving : Bool) :
    HoldsOnly w (w.authorityRun c leaving) := by
  have h : HoldsOnly w (if w.report = some c then w.testSpeed c else w) := by
    split
    · exact testSpeed_holdsOnly _ _
    · exact .refl _
  unfold Work.authorityRun
  simp only
  split
  · exact h
  · exact h.trans ((cutBack_holdsOnly _ _ _ _).trans
      ((on_holdsOnly _ _ (.of_pictured (routeAuthority_pictured _ _ _))).trans (onCarrier_holdsOnly _ _ _)))

/-- The end of a request changes no segment but by its hold. -/
theorem finish_holdsOnly (w : Work) : Machine.HoldsOnly w.s w.finish := by
  have h : HoldsOnly w (if w.reexam then w.reexamine else w) := by
    split
    · exact reexamine_holdsOnly _
    · exact .refl _
  unfold Work.finish
  exact h.trans ((on_holdsOnly _ _ (.of_pictured (pictureChange_pictured _ _))).trans
    (foldl_holdsOnly _ (fun w c => w.authorityRun_holdsOnly c false) _ _))

end Work

/-! ## Link state reports (R40) -/

/-- What a link state report leaves of the part, where radio-loss closure stood otherwise. -/
theorem linkReport_changed {s : State} (h : s.radioLoss ≠ s.rlcClosed) :
    ∃ w, State.Closes { s with rlcClosed := s.radioLoss } w ∧ s.linkReport = w.finish :=
  ⟨_, State.closes_alignClosures _, if_neg h⟩

theorem linkReport_unchanged {s : State} (h : s.radioLoss = s.rlcClosed) : s.linkReport = s := if_pos h

/-- Of a segment a link state report changes at most the hold and the closures; what the report names otherwise
stands. -/
theorem linkReport_frame (s : State) : s.linkReport.cranes = s.cranes ∧ s.linkReport.craneLinks = s.craneLinks ∧
    s.linkReport.learning = s.learning ∧
    ∀ i, (s.linkReport.seg i).oos.block = (s.seg i).oos.block ∧ (s.linkReport.seg i).lock = (s.seg i).lock := by
  by_cases h : s.radioLoss = s.rlcClosed
  · rw [linkReport_unchanged h]
    exact ⟨rfl, rfl, rfl, fun _ => ⟨rfl, rfl⟩⟩
  · obtain ⟨w, hw, he⟩ := linkReport_changed h
    have hf := w.finish_holdsOnly
    rw [he]
    refine ⟨?_, ?_, ?_, fun i => ⟨?_, ?_⟩⟩
    · rw [hf.cranes, hw.rest]
    · rw [hf.craneLinks, hw.rest]
    · rw [hf.learning, hw.rest]
    · rw [hf.oos, hw.segs]
      split <;> rfl
    · rw [hf.lock, hw.segs]
      split <;> rfl

/-- Where radio-loss closure changes, RLC stands in the segments of the grid that the closure now names (R40). -/
theorem linkReport_rlc {s : State} (h : s.radioLoss ≠ s.rlcClosed) {i : Nat} (hi : i < s.grid.lanes * s.grid.bays) :
    (s.linkReport.seg i).oos.rlc = (s.radioLoss && (s.grid.record i).rlc) := by
  obtain ⟨w, hw, he⟩ := linkReport_changed h
  rw [he, w.finish_holdsOnly.oos, hw.segs]
  exact congrArg (fun r : SegDyn => r.oos.rlc) (if_pos hi)

end Sys2Proof.Machine
end

section
/-! Frames on a radio link (R119 to R124, R131, R161): its state and closure, heartbeats, events with their copies, and
unusable frames. -/

namespace Sys2Proof.Machine

theorem State.onRadio_congr (s : State) (r : Nat) {f g : RadioLink → RadioLink} (h : f (s.radio r) = g (s.radio r)) :
    s.onRadio r f = s.onRadio r g := by
  unfold State.onRadio
  rw [h]

/-! ## Copies (R161) -/

/-- The COPY entry of a frame for the rules that matched it (R161, log entry 52). -/
def State.copyEntry (s : State) (radio : Nat) (f : CopyFrame) (l : DLink) : Notif :=
  ⟨.copy, s.now, .carrier f.carrier, [.byte (radioSelector radio), .byte f.disposition.code] ++
    listVals (s.copyRulesFor f l).length ((s.copyRulesFor f l).map Val.byte) ++ [.raw f.bytes]⟩

theorem State.copyTo_rest (s : State) (radio : Nat) (f : CopyFrame) (l : DLink) :
    s.copyTo radio f l = { s with dispatch := (s.copyTo radio f l).dispatch } := by
  unfold State.copyTo
  simp only
  split <;> rfl

theorem State.dlink_copyTo (s : State) (radio : Nat) (f : CopyFrame) (l m : DLink) :
    (s.copyTo radio f l).dlink m =
      if m = l then (s.dlink l).offers s.now (if s.copyRulesFor f l = [] then [] else [s.copyEntry radio f l])
      else s.dlink m := by
  unfold State.copyTo
  simp only [List.isEmpty_iff]
  by_cases h : s.copyRulesFor f l = []
  · rw [if_pos h, if_pos h]
    split
    · next hm => rw [hm]; rfl
    · rfl
  · rw [if_neg h, if_neg h]
    exact State.dlink_onDlink l m _

theorem State.copyFrame_rest (s : State) (radio : Nat) (f : CopyFrame) :
    s.copyFrame radio f = { s with dispatch := (s.copyFrame radio f).dispatch } := by
  unfold State.copyFrame
  rw [State.copyTo_rest, s.copyTo_rest radio f .a]

/-- A frame offered to the copy rules joins the queue of each target link that a matching rule names (R161). -/
theorem State.dlink_copyFrame (s : State) (radio : Nat) (f : CopyFrame) (m : DLink) :
    (s.copyFrame radio f).dlink m =
      (s.dlink m).offers s.now (if s.copyRulesFor f m = [] then [] else [s.copyEntry radio f m]) := by
  obtain ⟨hrules, hentry, hnow⟩ : (s.copyTo radio f .a).copyRulesFor f .b = s.copyRulesFor f .b ∧
      (s.copyTo radio f .a).copyEntry radio f .b = s.copyEntry radio f .b ∧ (s.copyTo radio f .a).now = s.now := by
    rw [s.copyTo_rest radio f .a]
    exact ⟨rfl, rfl, rfl⟩
  unfold State.copyFrame
  rw [State.dlink_copyTo]
  cases m
  · rw [if_neg (by decide), State.dlink_copyTo, if_pos rfl]
  · rw [if_pos rfl, hrules, hentry, hnow, State.dlink_copyTo, if_neg (show DLink.b ≠ .a by decide)]

/-- An event, which has no flags, matches the enabled ANY rules without a flag match that select its carrier (R161). -/
theorem State.copyRulesFor_event (s : State) (f : CopyFrame) (hf : f.flags = none) (m : DLink) :
    s.copyRulesFor f m = s.cfg.copyRules.keysWhere (fun x => x.enable && decide (x.kind = .any) &&
      x.selects f.carrier && decide (x.flag = .nothing) && decide (x.target = m)) := by
  have hflag : ∀ x : CopyRule, x.flagPasses none = decide (x.flag = .nothing) := fun x => by
    unfold CopyRule.flagPasses
    cases x.flag <;> rfl
  simp only [State.copyRulesFor, CopyRule.matchesFrame, hf, hflag, Option.isSome_none, Bool.or_false]

/-! ## Events (R124) -/

theorem takeEvent_unusable {s : State} {r : Nat} {a : EventArgs}
    (h : s.carrier? a.carrier = none ∨ 32 < a.bytes.length) :
    s.takeEvent r a = s.onRadio r RadioLink.countUnusable := by
  refine if_pos ?_
  have hreg : s.registered a.carrier = (s.carrier? a.carrier).isSome := rfl
  rcases h with h | h <;> simp [hreg, h]

theorem takeEvent_usable {s : State} {r : Nat} {a : EventArgs} (hc : s.carrier? a.carrier ≠ none)
    (hl : a.bytes.length ≤ 32) : s.takeEvent r a =
      if s.eventSeqs.get? a.carrier = some a.seq then s.onRadio r RadioLink.countDuplicate
      else State.copyFrame { s with eventSeqs := s.eventSeqs.put a.carrier a.seq } r
        ⟨a.carrier, none, .event, 2 :: a.payload⟩ := by
  have hreg : s.registered a.carrier = true := Option.isSome_iff_ne_none.2 hc
  exact if_neg (by simpa [hreg] using hl)

/-! ## Frames -/

/-- A frame that reads as none of the carriers' or modems' commands is counted as unusable (R122). -/
theorem sortedBy_unusable {r : Fin 4} {kind : Nat} {p : List Byte} (h : ∀ i, decodeRadio r kind p ≠ .command i)
    (s : State) : sortedBy r kind p s = s.onRadio r RadioLink.countUnusable := by
  unfold sortedBy
  cases hd : decodeRadio r kind p with
  | command i => exact absurd hd (h i)
  | badKind => rfl
  | badLength => rfl

/-- A frame that brings a DOWN link UP: RADIO_UP, and the link state report (R119, R120). -/
theorem radioArrival_down (s : State) (r : Nat) (h : (s.radio r).state = .down) : s.radioArrival r =
    ((s.onRadio r (fun l => l.countGood.comeUp (s.radioCfg r).timeout)).post .radioUp (.link (radioSelector r))
      []).linkReport := by
  unfold State.radioArrival
  rw [h]

/-- Settles O49. -/
theorem radioFrames : Obligations.RadioFrames := by
  unfold Obligations.RadioFrames
  intro s u r a kind p hu
  refine ⟨fun hs x hx => ?unconfigured, fun hs => ?up, fun hs v hv => ?down, fun hs => ?configured⟩
  case unconfigured =>
    have hsort : ∀ f, s.sortRadio r f = s.onRadio r (fun _ => x) := fun f => by
      rw [sortRadio_unconfigured s r f hs]
      exact s.onRadio_congr r hx.symm
    have hnext : ∀ f, (.next (s.sortRadio r f).pump : Host.Outcome State Fault Refusal) =
        .next (s.onRadio r (fun _ => x)).pump := fun f => by rw [hsort]
    exact ⟨hnext _, hnext _, hnext _, fun b => hnext _⟩
  case up =>
    rw [hu, radioArrival_up s r hs]
    refine s.onRadio_congr r ?_
    simp only [RadioLink.comeUp, RadioLink.countGood, bump16, hs]
  case down =>
    rw [hu, radioArrival_down s r hs, hv]
    exact State.reported_linkReport _
  case configured =>
    have hnext : ∀ (f : State → State) (t : State), f u = t →
        (.next (s.sortRadio r f).pump : Host.Outcome State Fault Refusal) = .next t.pump := fun f t ht => by
      rw [sortRadio_configured s r f hs, ← hu, ht]
    refine ⟨hnext _ _ rfl, fun hbad => hnext _ _ (sortedBy_unusable hbad u), fun hun => hnext _ _ (takeEvent_unusable hun),
      fun hc hl => ⟨fun hdup => hnext _ _ ((takeEvent_usable hc hl).trans (if_pos hdup)), fun hnew => ?_⟩⟩
    have hrest := State.copyFrame_rest { u with eventSeqs := u.eventSeqs.put a.carrier a.seq } r
      ⟨a.carrier, none, .event, 2 :: a.payload⟩
    refine ⟨_, hnext _ _ ((takeEvent_usable hc hl).trans (if_neg hnew)), ?_, ?_, fun m rules hrules => ?_⟩
    · rw [hrest]
    · rw [hrest]
    · have hcopy := State.copyRulesFor_event { u with eventSeqs := u.eventSeqs.put a.carrier a.seq }
        ⟨a.carrier, none, .event, 2 :: a.payload⟩ rfl m
      rw [State.dlink_copyFrame, State.copyEntry, hcopy.trans hrules.symm]
      refine ⟨fun h => ?_, fun h => ?_⟩
      · rw [if_pos h]; rfl
      · rw [if_neg h]; rfl

end Sys2Proof.Machine
end

section
/-! The loss of a radio link (R121, R138): the fate of its rows, the requeueing of its authorities, and its report. -/

namespace Sys2Proof.Machine

/-! ## The fate of a row (R138) -/

theorem Cycle.fate_dropped {c : Cycle} {row : PictureRow} (hs : c.since ≠ none) (hr : row.cycle = c.number)
    (ho : 0 < c.outstanding) :
    c.fate row false = { c with dropped := c.dropped + 1, outstanding := c.outstanding - 1 } := by
  unfold Cycle.fate
  rw [if_pos (by simp [Option.isSome_iff_ne_none.2 hs, hr, ho])]
  rfl

theorem Cycle.fate_ignored {c : Cycle} {row : PictureRow} (h : c.since = none ∨ row.cycle ≠ c.number) (sent : Bool) :
    c.fate row sent = c := by
  refine if_neg ?_
  rcases h with h | h <;> simp [h]

/-- A cycle that is IDLE or has rows outstanding goes on (R138). -/
theorem State.settleCycle_of_open {s : State} (h : s.cycle.since = none ∨ s.cycle.outstanding ≠ 0) :
    s.settleCycle = s := by
  refine if_neg ?_
  rcases h with h | h <;> simp [h]

theorem State.rowFate_ignored {s : State} {row : PictureRow}
    (h : s.cycle.since = none ∨ (row.cycle ≠ s.cycle.number ∧ s.cycle.outstanding ≠ 0)) (sent : Bool) :
    s.rowFate row sent = s := by
  unfold State.rowFate
  rw [Cycle.fate_ignored (h.imp_right And.left)]
  exact State.settleCycle_of_open (h.imp_right And.right)

theorem State.rowFate_dropped {s : State} {row : PictureRow} (hs : s.cycle.since ≠ none)
    (hr : row.cycle = s.cycle.number) (ho : 2 ≤ s.cycle.outstanding) :
    s.rowFate row false = { s with cycle := { s.cycle with
      dropped := s.cycle.dropped + 1, outstanding := s.cycle.outstanding - 1 } } := by
  unfold State.rowFate
  rw [Cycle.fate_dropped hs hr (by omega)]
  exact State.settleCycle_of_open (.inr (by show s.cycle.outstanding - 1 ≠ 0; omega))

/-- Rows that are reported dropped, fewer than are outstanding (R138). -/
theorem State.foldl_rowFate_cycle (rows : List PictureRow) (s : State) (hs : s.cycle.since ≠ none)
    (hlt : (rows.filter (fun row => decide (row.cycle = s.cycle.number))).length < s.cycle.outstanding) :
    (rows.foldl (fun v row => v.rowFate row false) s).cycle = { s.cycle with
      dropped := s.cycle.dropped + (rows.filter (fun row => decide (row.cycle = s.cycle.number))).length
      outstanding := s.cycle.outstanding -
        (rows.filter (fun row => decide (row.cycle = s.cycle.number))).length } := by
  induction rows generalizing s with
  | nil => rfl
  | cons row rest ih =>
    rw [List.foldl_cons]
    by_cases hr : row.cycle = s.cycle.number
    · simp only [hr, decide_true, List.filter_cons_of_pos, List.length_cons] at hlt ⊢
      have h := ih { s with cycle := { s.cycle with
        dropped := s.cycle.dropped + 1, outstanding := s.cycle.outstanding - 1 } } hs (Nat.lt_sub_of_add_lt hlt)
      rw [State.rowFate_dropped hs hr (by omega)]
      refine h.trans ?_
      simp only [Cycle.mk.injEq, true_and, and_true]
      omega
    · simp only [hr, decide_false, Bool.false_eq_true, not_false_eq_true, List.filter_cons_of_neg] at hlt ⊢
      rw [State.rowFate_ignored (.inr ⟨hr, by omega⟩), ih s hs hlt]

/-! ### The rerun flag through a cycle start -/

theorem Cycle.fate_rerun (c : Cycle) (row : PictureRow) (sent : Bool) : (c.fate row sent).rerun = c.rerun := by
  unfold Cycle.fate
  split
  · split <;> rfl
  · rfl

theorem State.offerRow_rerun (s : State) (r : Nat) (row : PictureRow) :
    (s.offerRow r row).cycle.rerun = s.cycle.rerun := by
  unfold State.offerRow
  simp only [State.onRadio_cycle]
  split
  · exact Cycle.fate_rerun _ _ _
  · rfl

theorem State.handRow_rerun (s : State) (row : PictureRow) : (s.handRow row).cycle.rerun = s.cycle.rerun := by
  have h : ∀ (links : List Nat) (t : State),
      (links.foldl (fun s r => s.offerRow r row) t).cycle.rerun = t.cycle.rerun := by
    intro links
    induction links with
    | nil => exact fun _ => rfl
    | cons r rest ih => exact fun t => (ih _).trans (t.offerRow_rerun r row)
  unfold State.handRow
  simp only
  split <;> exact h _ _

theorem State.beginCycle_rerun (s : State) : s.beginCycle.cycle.rerun = s.cycle.rerun := by
  have h : ∀ (rows : List PictureRow) (t : State), (rows.foldl State.handRow t).cycle.rerun = t.cycle.rerun := by
    intro rows
    induction rows with
    | nil => exact fun _ => rfl
    | cons row rest ih => exact fun t => (ih _).trans (t.handRow_rerun row)
  exact h _ _

theorem State.rerunCycle_of_not {s : State} (h : s.cycle.rerun = false) : s.rerunCycle = s := if_neg (by simp [h])

theorem State.closeCycle_rerun (s : State) : s.closeCycle.cycle.rerun = s.cycle.rerun := by
  unfold State.closeCycle
  simp only
  split <;> rfl

/-- A cycle that starts with its rerun flag clear ends within the start at most once (R137, R138). -/
theorem State.startCycle_of_not_rerun {s : State} (h : s.cycle.rerun = false) :
    s.startCycle = s.beginCycle.closeIfDone := by
  have hr : s.beginCycle.closeCycle.cycle.rerun = false := by
    rw [State.closeCycle_rerun, State.beginCycle_rerun, h]
  unfold State.startCycle State.settleCycle State.closeIfDone
  rw [State.rerunCycle_of_not hr]

theorem State.effectiveMode_onChange (s : State) :
    s.effectiveMode = .onChange ↔ s.mode = .active ∧ s.cfg.broadcast.mode = .onChange := by
  unfold State.effectiveMode
  split <;> simp [*]

/-- The end of a cycle with its rerun (R138): the flag is cleared, and in ON_CHANGE a new cycle starts where it was
set. -/
theorem State.rerunCycle_eq (s : State) : s.rerunCycle =
    if s.cycle.rerun = true ∧ s.mode = .active ∧ s.cfg.broadcast.mode = .onChange then
      State.startCycle { s with cycle := { s.cycle with rerun := false } }
    else { s with cycle := { s.cycle with rerun := false } } := by
  simp only [← State.effectiveMode_onChange]
  unfold State.rerunCycle
  cases hr : s.cycle.rerun
  · rw [if_neg (by simp), if_neg (by simp), ← hr]
  · simp only [if_true, true_and]
    rw [State.startCycle_of_not_rerun rfl]

/-- The last outstanding row of a cycle, dropped (R138). -/
theorem State.rowFate_last {s x : State} {row : PictureRow} {start : Time} (hs : s.cycle.since = some start)
    (hr : row.cycle = s.cycle.number) (ho : s.cycle.outstanding = 1)
    (hc : x.cycle = { s.cycle with
      since := none, dropped := s.cycle.dropped + 1, outstanding := 0, number := (s.cycle.number + 1) % 256
      completed := min (s.cycle.completed + 1) 65535, rerun := false })
    (hx : x = { (if s.cfg.broadcast.notice then s.post .broadcastDone .nothing [.byte s.cycle.number,
        .byte s.cycle.rows, .byte s.cycle.sent, .byte (s.cycle.dropped + 1), .word (s.now - start).toNat]
      else s) with cycle := x.cycle }) :
    s.rowFate row false =
      if s.cycle.rerun = true ∧ s.mode = .active ∧ s.cfg.broadcast.mode = .onChange then x.startCycle else x := by
  have hfate := Cycle.fate_dropped (c := s.cycle) (row := row) (by simp [hs]) hr (by omega)
  obtain ⟨v, hv⟩ : ∃ v : State, v = { s with cycle := s.cycle.fate row false } := ⟨_, rfl⟩
  have hsettle : s.rowFate row false = v.closeCycle.rerunCycle := by
    unfold State.rowFate
    rw [← hv]
    refine if_pos ?_
    rw [hv, hfate]
    simp [hs, ho]
  have hclose : { v.closeCycle with cycle := { v.closeCycle.cycle with rerun := false } } = x := by
    rw [hx, hc, hv, hfate]
    unfold State.closeCycle
    simp only [ho, hs, Option.getD_some]
    cases s.cfg.broadcast.notice <;> rfl
  have hkeep : v.closeCycle.cycle.rerun = s.cycle.rerun ∧ v.closeCycle.mode = s.mode ∧
      v.closeCycle.cfg = s.cfg := by
    have hrest := (closeCycle_pictured v).rest
    refine ⟨?_, ?_, ?_⟩
    · rw [State.closeCycle_rerun, hv]
      exact Cycle.fate_rerun _ _ _
    · rw [hrest, hv]
    · rw [hrest, hv]
  rw [hsettle, State.rerunCycle_eq, hclose, hkeep.1, hkeep.2.1, hkeep.2.2]

end Sys2Proof.Machine
end

section
/-! The loss of a radio link (R121): what its queues held, the requeueing of its authorities, and the expiry of its
timer. -/

namespace Sys2Proof

theorem findRow_filter {α : Type} {l : List (Nat × α)} (h : l.Pairwise (fun a b => a.1 < b.1)) (p : α → Bool) (k : Nat) :
    findRow k (l.filter (fun r => p r.2)) = (findRow k l).filter p := by
  induction l with
  | nil => rfl
  | cons r rest ih =>
    obtain ⟨j, v⟩ := r
    obtain ⟨hlt, hrest⟩ := List.pairwise_cons.1 h
    have ih := ih hrest
    by_cases hj : j = k
    · subst hj
      have hnone : findRow j rest = none := by
        cases hf : findRow j rest with
        | none => rfl
        | some u => exact absurd (hlt _ (mem_of_findRow hf)) (Nat.lt_irrefl j)
      by_cases hp : p v = true <;> simp [findRow, hp, ih, hnone, Option.filter]
    · by_cases hp : p v = true <;> simp [findRow, hp, ih, hj]

/-- A read of the rows that pass a test on their values. -/
theorem Table.get?_filter {α : Type} {t : Table α} (h : t.Sorted) (p : α → Bool) (k : Nat) :
    (t.filter (fun _ v => p v)).get? k = (t.get? k).filter p := findRow_filter h p k

end Sys2Proof

namespace Sys2Proof.Machine

/-! ## What the queues of a lost link held (R121 steps 2 and 4) -/

theorem filterMap_authority_urgent (l : List Authority) :
    (l.map RadioFrame.authority).filterMap RadioFrame.authority? = l := by
  rw [List.filterMap_map]
  exact List.filterMap_some

theorem filterMap_row_urgent (l : List Authority) : (l.map RadioFrame.authority).filterMap RadioFrame.row? = [] := by
  simp [RadioFrame.row?]

theorem any_isFor_iff (urgent : List Authority) (normal : List RadioFrame) (c : Nat) :
    (urgent.map RadioFrame.authority ++ normal).any (RadioFrame.isFor c) = true ↔
      ∃ x ∈ urgent ++ normal.filterMap RadioFrame.authority?, x.carrier = c := by
  have hframe : ∀ f : RadioFrame, f.isFor c = true ↔ ∃ x, f.authority? = some x ∧ x.carrier = c := fun f => by
    cases f <;> simp [RadioFrame.isFor, RadioFrame.authority?]
  have hlist : ∀ l : List RadioFrame,
      l.any (RadioFrame.isFor c) = true ↔ ∃ x ∈ l.filterMap RadioFrame.authority?, x.carrier = c := fun l => by
    simp only [List.any_eq_true, hframe, List.mem_filterMap]
    grind
  rw [hlist, List.filterMap_append, filterMap_authority_urgent]

section
variable {q : RadioLink}

theorem RadioLink.emptied_idle (h : q.sending = none) : q.emptied = q.urgent.map RadioFrame.authority ++ q.normal := by
  simp only [RadioLink.emptied, h]

theorem RadioLink.emptied_row {row : PictureRow} (h : q.sending = some (.row row)) :
    q.emptied = q.urgent.map RadioFrame.authority ++ .row row :: q.normal := by
  simp only [RadioLink.emptied, h]

/-- An abandoned authority stands first in the queue it was taken from, unless a later one for its carrier waits. -/
theorem RadioLink.emptied_authority {a : Authority} (h : q.sending = some (.authority a)) : q.emptied =
    if (q.urgent.map RadioFrame.authority ++ q.normal).any (RadioFrame.isFor a.carrier) then
      q.urgent.map RadioFrame.authority ++ q.normal
    else if a.command.urgent then .authority a :: q.urgent.map RadioFrame.authority ++ q.normal
    else q.urgent.map RadioFrame.authority ++ .authority a :: q.normal := by
  simp only [RadioLink.emptied, h]

end

/-- The rows among the emptied frames, the abandoned one first. -/
theorem RadioLink.emptied_rows (q : RadioLink) : q.emptied.filterMap RadioFrame.row? =
    (q.sending.toList ++ q.normal).filterMap RadioFrame.row? := by
  rcases h : q.sending with - | (a | row)
  · rw [emptied_idle h, List.filterMap_append, filterMap_row_urgent]
    rfl
  · have hrow : (q.urgent.map RadioFrame.authority ++ q.normal).filterMap RadioFrame.row? =
        q.normal.filterMap RadioFrame.row? := by
      rw [List.filterMap_append, filterMap_row_urgent, List.nil_append]
    rw [emptied_authority h]
    split
    · exact hrow
    · split
      · exact hrow
      · rw [List.filterMap_append, filterMap_row_urgent]
        rfl
  · rw [emptied_row h, List.filterMap_append, filterMap_row_urgent]
    rfl

theorem Command.urgent_iff (c : Command) : c.urgent = true ↔ c = .stopNow ∨ c = .emergency := by
  cases c <;> simp [Command.urgent]

theorem Command.not_urgent_iff (c : Command) : ¬ c.urgent = true ↔ c = .proceed ∨ c = .hold := by
  cases c <;> simp [Command.urgent]

/-- The authorities among the emptied frames stand in the order of R121 step 4. -/
theorem RadioLink.emptied_order (q : RadioLink) : q.RequeueOrder (q.emptied.filterMap RadioFrame.authority?) := by
  intro normal hn
  replace hn : normal = q.normal.filterMap RadioFrame.authority? := hn
  have happend : ∀ l, (q.urgent.map RadioFrame.authority ++ l).filterMap RadioFrame.authority? =
      q.urgent ++ l.filterMap RadioFrame.authority? := fun l => by
    rw [List.filterMap_append, filterMap_authority_urgent]
  constructor
  · intro hno
    rcases hs : q.sending with - | (a | row)
    · rw [emptied_idle hs, happend, hn]
    · exact absurd hs (hno a)
    · rw [emptied_row hs, happend, hn]
      rfl
  · intro a hs
    rw [emptied_authority hs, hn]
    simp only [any_isFor_iff]
    refine ⟨fun hlater => ?_, fun hnone => ⟨fun hc => ?_, fun hc => ?_⟩⟩
    · rw [if_pos hlater, happend]
    · rw [if_neg (by simpa using hnone), if_pos (a.command.urgent_iff.2 hc)]
      exact congrArg (a :: ·) (happend _)
    · rw [if_neg (by simpa using hnone), if_neg (a.command.not_urgent_iff.2 hc), happend]
      rfl

/-- The order of R121 step 4 is one order. -/
theorem RadioLink.RequeueOrder.unique {q : RadioLink} {o p : List Authority} (ho : q.RequeueOrder o)
    (hp : q.RequeueOrder p) : o = p := by
  obtain ⟨hono, hosending⟩ := ho _ rfl
  obtain ⟨hpno, hpsending⟩ := hp _ rfl
  by_cases hs : ∃ a, q.sending = some (.authority a)
  · obtain ⟨a, hs⟩ := hs
    obtain ⟨holater, honone⟩ := hosending a hs
    obtain ⟨hplater, hpnone⟩ := hpsending a hs
    by_cases hlater : ∃ x ∈ q.urgent ++ q.normal.filterMap RadioFrame.authority?, x.carrier = a.carrier
    · exact (holater hlater).trans (hplater hlater).symm
    · have hnone : ∀ x ∈ q.urgent ++ q.normal.filterMap RadioFrame.authority?, x.carrier ≠ a.carrier :=
        fun x hx he => hlater ⟨x, hx, he⟩
      by_cases hc : a.command.urgent = true
      · rw [a.command.urgent_iff] at hc
        exact ((honone hnone).1 hc).trans ((hpnone hnone).1 hc).symm
      · rw [a.command.not_urgent_iff] at hc
        exact ((honone hnone).2 hc).trans ((hpnone hnone).2 hc).symm
  · have hno : ∀ a, q.sending ≠ some (.authority a) := fun a h => hs ⟨a, h⟩
    exact (hono hno).trans (hpno hno).symm

/-! ## Requeueing (R121 step 4) -/

theorem mem_upLinks_iff (s : State) (k : Nat) : k ∈ s.upLinks ↔ k < 4 ∧ (s.radio k).state = .up := by
  simp [State.upLinks]

theorem nodup_upLinks (s : State) : s.upLinks.Nodup := List.nodup_range.filter _

theorem upLinks_congr {s t : State} (h : ∀ k, (t.radio k).state = (s.radio k).state) : t.upLinks = s.upLinks := by
  simp only [State.upLinks, h]

/-- An authority offered to every UP link. -/
def State.offerUp (s : State) (a : Authority) : State := s.upLinks.foldl (fun s r => s.offerAuthority r a) s

theorem State.foldl_offerAuthority (a : Authority) {links : List Nat} (hn : links.Nodup) (s : State) :
    links.foldl (fun s r => s.offerAuthority r a) s =
        { s with radios := (links.foldl (fun s r => s.offerAuthority r a) s).radios } ∧
      ∀ k, (links.foldl (fun s r => s.offerAuthority r a) s).radio k =
        if k ∈ links then ((s.radio k).join a).transmit else s.radio k := by
  induction links generalizing s with
  | nil => exact ⟨rfl, fun _ => rfl⟩
  | cons r rest ih =>
    obtain ⟨hr, hrest⟩ := List.nodup_cons.1 hn
    obtain ⟨hframe, hradio⟩ := ih hrest (s.offerAuthority r a)
    rw [List.foldl_cons]
    refine ⟨hframe, fun k => ?_⟩
    rw [hradio, State.offerAuthority, State.radio_onRadio]
    by_cases hk : k = r
    · subst hk; simp [hr]
    · simp [hk]

theorem State.offerUp_rest (s : State) (a : Authority) : s.offerUp a = { s with radios := (s.offerUp a).radios } :=
  (State.foldl_offerAuthority a (nodup_upLinks s) s).1

theorem State.radio_offerUp (s : State) (a : Authority) (k : Nat) :
    (s.offerUp a).radio k = if k ∈ s.upLinks then ((s.radio k).join a).transmit else s.radio k :=
  (State.foldl_offerAuthority a (nodup_upLinks s) s).2 k

theorem State.offerUp_pictured (s : State) (a : Authority) : Pictured s (s.offerUp a) :=
  foldl_links_pictured _ (fun s r h => offerAuthority_pictured s r a h) _ s (fun _ h => mem_upLinks h)

theorem State.upLinks_offerUp (s : State) (a : Authority) : (s.offerUp a).upLinks = s.upLinks :=
  upLinks_congr (fun k => ((s.offerUp_pictured a).radios k).state)

/-- The authorities that are offered again: those whose carrier has no learning entry left, where a link is UP. -/
def State.requeued (s : State) (order : List Authority) : List Authority :=
  if s.upLinks = [] then [] else order.filter (fun a => (s.learning.get? a.carrier).isNone)

/-- Requeueing changes the queues of the UP links alone, each of which the requeued authorities join in order. -/
theorem requeue_foldl (order : List Authority) (s : State) (n : Nat) : ∃ v : State,
    order.foldl requeue (s, n) = (v, n + (s.requeued order).length) ∧ v = { s with radios := v.radios } ∧
      Pictured s v ∧ ∀ k, v.radio k = if k ∈ s.upLinks then
        (s.requeued order).foldl (fun l a => (l.join a).transmit) (s.radio k) else s.radio k := by
  induction order generalizing s n with
  | nil => exact ⟨s, by simp [State.requeued], rfl, .refl s, fun k => by simp [State.requeued]⟩
  | cons a rest ih =>
    by_cases hskip : (s.learning.get? a.carrier).isSome = true ∨ s.upLinks = []
    · have hstep : requeue (s, n) a = (s, n) := if_pos (by simpa using hskip)
      have hsame : s.requeued (a :: rest) = s.requeued rest := by
        unfold State.requeued
        rcases hskip with h | h
        · rw [List.filter_cons_of_neg (by simpa [Option.isSome_iff_ne_none] using h)]
        · simp [h]
      rw [List.foldl_cons, hstep, hsame]
      exact ih s n
    · rw [not_or, Option.not_isSome_iff_eq_none] at hskip
      obtain ⟨hnew, hup⟩ := hskip
      have hstep : requeue (s, n) a = (s.offerUp a, n + 1) := if_neg (by simp [hnew, hup])
      have hmoved : s.requeued (a :: rest) = a :: (s.offerUp a).requeued rest := by
        unfold State.requeued
        rw [s.upLinks_offerUp, if_neg hup, if_neg hup, List.filter_cons_of_pos (by simp [hnew]), s.offerUp_rest a]
      obtain ⟨v, hfold, hrest, hpict, hradio⟩ := ih (s.offerUp a) (n + 1)
      refine ⟨v, ?_, ?_, (s.offerUp_pictured a).trans hpict, fun k => ?_⟩
      · rw [List.foldl_cons, hstep, hfold, hmoved, List.length_cons]
        congr 1
        omega
      · rw [hrest, s.offerUp_rest a]
      · rw [hradio, s.upLinks_offerUp, s.radio_offerUp, hmoved]
        split <;> rfl

end Sys2Proof.Machine
end

section
/-! The loss of a radio link as a whole (R121, R40), and the expiry of its timer. -/

namespace Sys2Proof.Machine

/-! ## The link cut off -/

/-- A radio link that has gone DOWN with nothing queued or sent (R121). -/
def RadioLink.cut (l : RadioLink) : RadioLink :=
  { l with state := .down, timer := none, rx := Receiver.hunting, urgent := [], normal := [], sending := none }

/-- The part once a radio link is cut off: the link is DOWN, and its learning entries are gone (R121 steps 1 and 2). -/
def State.cutRadio (s : State) (r : Nat) : State :=
  State.onRadio { s with learning := s.learning.filter (fun _ e => decide (e.link ≠ r)) } r RadioLink.cut

theorem State.radio_cutRadio (s : State) (r k : Nat) :
    (s.cutRadio r).radio k = if k = r then (s.radio r).cut else s.radio k := State.radio_onRadio r k RadioLink.cut

theorem State.learning_cutRadio {s : State} (hs : s.learning.Sorted) (r c : Nat) :
    (s.cutRadio r).learning.get? c = (s.learning.get? c).filter (fun e => decide (e.link ≠ r)) :=
  Table.get?_filter hs (fun e => decide (e.link ≠ r)) c

/-- The part once the rows of a lost link are reported dropped (R121 step 3, R138). -/
def State.rowsLost (s : State) (r : Nat) : State :=
  (((s.radio r).sending.toList ++ (s.radio r).normal).filterMap RadioFrame.row?).foldl
    (fun v row => v.rowFate row false) (s.cutRadio r)

theorem State.rowsLost_pictured (s : State) (r : Nat) : Pictured (s.cutRadio r) (s.rowsLost r) :=
  Pictured.foldl _ (fun s row => rowFate_pictured s row false) _ _

/-- The authorities of a lost link that are offered again (R121 step 4). -/
def State.movedFrom (s : State) (r : Nat) : List Authority :=
  (s.rowsLost r).requeued ((s.radio r).emptied.filterMap RadioFrame.authority?)

/-- The number of learning entries that name a link. -/
def State.learntOn (s : State) (r : Nat) : Nat := s.learning.countWhere (fun e => decide (e.link = r))

/-- RADIO_DOWN for a lost link, with the entries removed and the authorities offered again (R121 step 5). -/
def State.radioDownEntry (s : State) (r n : Nat) : Notif :=
  ⟨.radioDown, s.now, .link (r + 2), [.byte (s.learntOn r), .byte n]⟩

/-- The loss of a link, step by step: after its rows (`rowsLost`) the requeued authorities join the UP links (`v`), and
RADIO_DOWN goes before the link state report. -/
theorem radioLinkDown_steps (s : State) (r : Nat) : ∃ v : State,
    s.radioLinkDown r = (v.post .radioDown (.link (r + 2))
      [.byte (s.learntOn r), .byte (s.movedFrom r).length]).linkReport ∧
    v = { s.rowsLost r with radios := v.radios } ∧ Pictured (s.rowsLost r) v ∧
    ∀ k, v.radio k = if k ∈ (s.rowsLost r).upLinks then
        (s.movedFrom r).foldl (fun l a => (l.join a).transmit) ((s.rowsLost r).radio k)
      else (s.rowsLost r).radio k := by
  obtain ⟨v, hfold, hrest, hpict, hradio⟩ :=
    requeue_foldl ((s.radio r).emptied.filterMap RadioFrame.authority?) (s.rowsLost r) 0
  refine ⟨v, ?_, hrest, hpict, hradio⟩
  have hrows : ((s.radio r).emptied.filterMap RadioFrame.row?).foldl (fun v row => v.rowFate row false)
      (s.cutRadio r) = s.rowsLost r := by
    rw [RadioLink.emptied_rows]
    rfl
  have hdown : s.radioLinkDown r =
      State.linkReport (State.post
        (((s.radio r).emptied.filterMap RadioFrame.authority?).foldl requeue
          (((s.radio r).emptied.filterMap RadioFrame.row?).foldl (fun v row => v.rowFate row false)
            (s.cutRadio r), 0)).1 .radioDown (.link (r + 2)) [.byte (s.learntOn r), .byte
        (((s.radio r).emptied.filterMap RadioFrame.authority?).foldl requeue
          (((s.radio r).emptied.filterMap RadioFrame.row?).foldl (fun v row => v.rowFate row false)
            (s.cutRadio r), 0)).2]) := rfl
  rw [hdown, hrows, hfold, Nat.zero_add]
  rfl

/-- The loss of a link and its link state report, as R121 and R40 say. -/
theorem radioLinkDown_lost (s : State) (r : Nat) : ∃ y, s.RadioLost y r ∧ s.radioLinkDown r = y.linkReport := by
  obtain ⟨v, hdown, hrest, -, hradio⟩ := radioLinkDown_steps s r
  refine ⟨_, ⟨s.cutRadio r, s.rowsLost r, v, _, s.movedFrom r, (s.radio r).emptied_order, rfl, rfl, fun hno => ?_,
    fun hup => ?_, fun k => ?_, hrest, rfl⟩, hdown⟩
  · refine if_pos ?_
    rw [List.eq_nil_iff_forall_not_mem]
    intro k hk
    obtain ⟨h4, hk⟩ := (mem_upLinks_iff _ k).1 hk
    exact hno k h4 hk
  · obtain ⟨k, h4, hk⟩ := hup
    exact if_neg (List.ne_nil_of_mem ((mem_upLinks_iff _ k).2 ⟨h4, hk⟩))
  · rw [hradio]
    simp only [mem_upLinks_iff]

/-! ## What the loss leaves of the part -/

theorem Within.withRlc {s t : State} (h : Within s t) (b : Bool) :
    Within { s with rlcClosed := b } { t with rlcClosed := b } :=
  ⟨congrArg (fun u : State => { u with rlcClosed := b }) h.rest, h.dlinks, h.radios, h.craneLinks, h.waiting, h.sorted⟩

/-- Everything but the link state report, as one change of queues, notifications and the picture cycle. -/
theorem radioLinkDown_pictured (s : State) (r : Nat) :
    ∃ y, Pictured (s.cutRadio r) y ∧ s.radioLinkDown r = y.linkReport := by
  obtain ⟨v, hdown, -, hpict, -⟩ := radioLinkDown_steps s r
  exact ⟨_, ((s.rowsLost_pictured r).trans hpict).trans (post_pictured v _ _ _), hdown⟩

theorem radioLinkDown_within (s : State) (r : Nat) :
    Within { s.cutRadio r with rlcClosed := (s.radioLinkDown r).rlcClosed } (s.radioLinkDown r) := by
  obtain ⟨y, hpict, hdown⟩ := radioLinkDown_pictured s r
  rw [hdown]
  exact (hpict.within.withRlc _).trans (linkReport_within y)

theorem radioLinkDown_closed (s : State) (r : Nat) : (s.radioLinkDown r).rlcClosed = (s.radioLinkDown r).radioLoss := by
  obtain ⟨y, -, hdown⟩ := radioLinkDown_pictured s r
  rw [hdown]
  exact linkReport_closed y

theorem radioLinkDown_learning (s : State) (r : Nat) : (s.radioLinkDown r).learning = (s.cutRadio r).learning := by
  obtain ⟨y, hpict, hdown⟩ := radioLinkDown_pictured s r
  obtain ⟨-, -, hlearning, -⟩ := linkReport_frame y
  rw [hdown, hlearning, hpict.rest]

theorem radioLinkDown_cranes (s : State) (r : Nat) : (s.radioLinkDown r).cranes = s.cranes := by
  obtain ⟨y, hpict, hdown⟩ := radioLinkDown_pictured s r
  obtain ⟨hcranes, -⟩ := linkReport_frame y
  rw [hdown, hcranes, hpict.rest]
  rfl

theorem radioLinkDown_seg (s : State) (r i : Nat) : ((s.radioLinkDown r).seg i).oos.block = (s.seg i).oos.block ∧
    ((s.radioLinkDown r).seg i).lock = (s.seg i).lock := by
  obtain ⟨y, hpict, hdown⟩ := radioLinkDown_pictured s r
  obtain ⟨-, -, -, hseg⟩ := linkReport_frame y
  have hy : y.seg i = s.seg i := by rw [hpict.rest]; rfl
  rw [hdown, ← hy]
  exact hseg i

/-- The lost link itself, which nothing that follows feeds. -/
theorem radioLinkDown_radio_self (s : State) (r : Nat) : (s.radioLinkDown r).radio r = (s.radio r).cut := by
  have hcut : (s.cutRadio r).radio r = (s.radio r).cut := by rw [State.radio_cutRadio, if_pos rfl]
  have hfed : RadioLink.Fed ((s.cutRadio r).radio r) ((s.radioLinkDown r).radio r) :=
    (radioLinkDown_within s r).radios r
  rw [hfed.down (by rw [hcut]; exact fun h => nomatch h), hcut]

theorem radioLinkDown_radio_ne (s : State) {r k : Nat} (hk : k ≠ r) :
    RadioLink.Fed (s.radio k) ((s.radioLinkDown r).radio k) := by
  have hcut : (s.cutRadio r).radio k = s.radio k := by rw [State.radio_cutRadio, if_neg hk]
  rw [← hcut]
  exact (radioLinkDown_within s r).radios k

/-- Radio-loss closure is in force after the loss of a link (R40). -/
theorem radioLinkDown_rlcClosed (s : State) {r : Nat} (hr : r < 4) : (s.radioLinkDown r).rlcClosed = true := by
  rw [radioLinkDown_closed, State.radioLoss_iff]
  exact ⟨r, hr, by rw [radioLinkDown_radio_self]; rfl⟩

/-- RADIO_DOWN is offered to both queues after what the fate of the rows posts, and before what the link state report
posts. -/
theorem radioLinkDown_notified (s : State) (r : Nat) (m : DLink) :
    ∃ d, DispatchLink.Notified (s.dlink m) d ∧
      DispatchLink.Notified (d.offer s.now (s.radioDownEntry r (s.movedFrom r).length))
        ((s.radioLinkDown r).dlink m) := by
  obtain ⟨v, hdown, -, hpict, -⟩ := radioLinkDown_steps s r
  have hv := (s.rowsLost_pictured r).trans hpict
  have hnow : v.now = s.now := by rw [hv.rest]; rfl
  refine ⟨v.dlink m, hv.dlinks m, ?_⟩
  have hreport := (linkReport_within (v.post .radioDown (.link (r + 2))
    [.byte (s.learntOn r), .byte (s.movedFrom r).length])).dlinks m
  rw [hdown]
  refine DispatchLink.Notified.trans ?_ hreport
  have hpost := v.dlink_post .radioDown (.link (r + 2)) [.byte (s.learntOn r), .byte (s.movedFrom r).length] m
  rw [hnow] at hpost
  exact hpost ▸ .refl _

/-! ## The authorities that are offered again -/

theorem mem_upLinks_rowsLost (s : State) (r k : Nat) :
    k ∈ (s.rowsLost r).upLinks ↔ k < 4 ∧ k ≠ r ∧ (s.radio k).state = .up := by
  rw [mem_upLinks_iff, ((s.rowsLost_pictured r).radios k).state, State.radio_cutRadio]
  by_cases hk : k = r <;> simp [hk, RadioLink.cut]

theorem movedFrom_eq {s : State} {r : Nat} {order moved : List Authority} (hs : s.learning.Sorted)
    (horder : (s.radio r).RequeueOrder order)
    (hno : (∀ k, k < 4 → k ≠ r → (s.radio k).state ≠ .up) → moved = [])
    (hup : (∃ k, k < 4 ∧ k ≠ r ∧ (s.radio k).state = .up) → moved = order.filter (fun a =>
      ((s.learning.get? a.carrier).filter (fun e => decide (e.link ≠ r))).isNone)) : s.movedFrom r = moved := by
  have hlearning : (s.rowsLost r).learning = (s.cutRadio r).learning := by rw [(s.rowsLost_pictured r).rest]
  unfold State.movedFrom State.requeued
  rw [hlearning, ← horder.unique (s.radio r).emptied_order]
  simp only [State.learning_cutRadio hs]
  by_cases h : ∃ k, k < 4 ∧ k ≠ r ∧ (s.radio k).state = .up
  · obtain ⟨k, hk⟩ := h
    rw [if_neg (List.ne_nil_of_mem ((mem_upLinks_rowsLost s r k).2 hk)), hup ⟨k, hk⟩]
  · rw [hno (fun k h4 hk hu => h ⟨k, h4, hk, hu⟩)]
    refine if_pos (List.eq_nil_iff_forall_not_mem.2 fun k hk => h ⟨k, (mem_upLinks_rowsLost s r k).1 hk⟩)

/-! ## The expiry of a link timer -/

/-- With radio-loss closure in force already, the link state report changes nothing. -/
theorem radioLinkDown_of_closed (s : State) {r : Nat} (hr : r < 4) (hc : s.rlcClosed = true) : ∃ v : State,
    s.radioLinkDown r = v.post .radioDown (.link (r + 2)) [.byte (s.learntOn r), .byte (s.movedFrom r).length] ∧
      v = { s.rowsLost r with radios := v.radios } ∧ ∀ k, k ≠ r → k < 4 → (s.radio k).state = .up →
        v.radio k = (s.movedFrom r).foldl (fun l a => (l.join a).transmit) ((s.rowsLost r).radio k) := by
  obtain ⟨v, hdown, hrest, hpict, hradio⟩ := radioLinkDown_steps s r
  have hy := ((s.rowsLost_pictured r).trans hpict).trans
    (post_pictured v .radioDown (.link (r + 2)) [.byte (s.learntOn r), .byte (s.movedFrom r).length])
  refine ⟨v, hdown.trans (linkReport_unchanged ?_), hrest, fun k hk h4 hu => ?_⟩
  · have hloss := hy.within.radioLoss
    have hcut : (s.cutRadio r).radioLoss = true :=
      (State.radioLoss_iff _).2 ⟨r, hr, by rw [State.radio_cutRadio, if_pos rfl]; rfl⟩
    rw [hloss, hcut, hy.within.rlcClosed]
    exact hc.symm
  · rw [hradio, if_pos ((mem_upLinks_rowsLost s r k).2 ⟨h4, hk, hu⟩)]

end Sys2Proof.Machine
end

section
/-! The expiry of a radio link timer (R121, R40, R138). -/

namespace Sys2Proof.Machine

theorem expireRadio_due {s : State} {r : Nat} (hup : (s.radio r).state = .up) (ht : (s.radio r).timer = some 0) :
    s.expireRadio r = s.radioLinkDown r := if_pos (by simp [hup, ht])

theorem expireRadio_not_due {s : State} {r : Nat} (h : (s.radio r).state ≠ .up ∨ (s.radio r).timer ≠ some 0) :
    s.expireRadio r = s := by
  refine if_neg ?_
  rcases h with h | h <;> simp [h]

/-- The part, where radio-loss closure is in force and no row stood in the queues of the lost link. -/
theorem radioLinkDown_quiet (s : State) {r : Nat} (hr : r < 4) (hc : s.rlcClosed = true)
    (hrows : ∀ row, .row row ∉ (s.radio r).normal ∧ (s.radio r).sending ≠ some (.row row)) :
    (∀ k, k < 4 → k ≠ r → (s.radio k).state = .up → (s.radioLinkDown r).radio k =
      (s.movedFrom r).foldl (fun l a => (l.join a).transmit) (s.radio k)) ∧
    s.radioLinkDown r = { s with
      radios := (s.radioLinkDown r).radios, learning := (s.radioLinkDown r).learning
      dispatch := (s.radioLinkDown r).dispatch } := by
  have hnone : ((s.radio r).sending.toList ++ (s.radio r).normal).filterMap RadioFrame.row? = [] := by
    rw [List.filterMap_eq_nil_iff]
    rintro (a | row) hf
    · rfl
    · obtain ⟨hnormal, hsending⟩ := hrows row
      rw [List.mem_append, Option.mem_toList] at hf
      exact absurd hf (not_or.2 ⟨hsending, hnormal⟩)
  have hlost : s.rowsLost r = s.cutRadio r := by rw [State.rowsLost, hnone]; rfl
  obtain ⟨v, hdown, hrest, hradio⟩ := radioLinkDown_of_closed s hr hc
  rw [hlost] at hrest hradio
  constructor
  · intro k h4 hk hu
    have h := hradio k hk h4 hu
    rw [State.radio_cutRadio, if_neg hk] at h
    rw [hdown]
    exact h
  · rw [hdown, hrest]
    rfl

/-- The cycle, where radio-loss closure is in force and rows of the cycle stay outstanding (R138). -/
theorem radioLinkDown_cycle (s : State) {r : Nat} (hr : r < 4) (hc : s.rlcClosed = true) (hs : s.cycle.since ≠ none)
    {rows : List PictureRow}
    (hrows : rows = ((s.radio r).sending.toList ++ (s.radio r).normal).filterMap RadioFrame.row?)
    (hlt : (rows.filter (fun row => decide (row.cycle = s.cycle.number))).length < s.cycle.outstanding) :
    (s.radioLinkDown r).cycle = { s.cycle with
      dropped := s.cycle.dropped + (rows.filter (fun row => decide (row.cycle = s.cycle.number))).length
      outstanding := s.cycle.outstanding -
        (rows.filter (fun row => decide (row.cycle = s.cycle.number))).length } := by
  obtain ⟨v, hdown, hrest, -⟩ := radioLinkDown_of_closed s hr hc
  have hcycle : (s.radioLinkDown r).cycle = (s.rowsLost r).cycle := by
    rw [hdown, State.post_cycle, hrest]
  rw [hcycle, State.rowsLost, ← hrows]
  exact State.foldl_rowFate_cycle rows (s.cutRadio r) hs hlt

/-- Each other UP link is fed by the fate of the rows, then by the requeueing, then by the link state report. -/
theorem radioLinkDown_fed (s : State) {r k : Nat} (h4 : k < 4) (hk : k ≠ r) (hu : (s.radio k).state = .up) :
    ∃ l : RadioLink, RadioLink.Fed (s.radio k) l ∧
      RadioLink.Fed ((s.movedFrom r).foldl (fun x a => (x.join a).transmit) l) ((s.radioLinkDown r).radio k) := by
  obtain ⟨v, hdown, -, -, hradio⟩ := radioLinkDown_steps s r
  have hrows := (s.rowsLost_pictured r).radios k
  rw [State.radio_cutRadio, if_neg hk] at hrows
  refine ⟨(s.rowsLost r).radio k, hrows, ?_⟩
  have hv := hradio k
  rw [if_pos ((mem_upLinks_rowsLost s r k).2 ⟨h4, hk, hu⟩)] at hv
  rw [hdown, ← hv]
  exact (linkReport_within (v.post .radioDown (.link (r + 2))
    [.byte (s.learntOn r), .byte (s.movedFrom r).length])).radios k

/-- RLC stands in the segments that the closure names, where it came into force with the loss (R40). -/
theorem radioLinkDown_rlc (s : State) {r i : Nat} (hr : r < 4) (hc : s.rlcClosed = false)
    (hi : s.grid.inside i = true) : ((s.radioLinkDown r).seg i).oos.rlc = (s.grid.record i).rlc := by
  obtain ⟨y, hpict, hdown⟩ := radioLinkDown_pictured s r
  have hy : y.radioLoss = true := by
    rw [hpict.within.radioLoss, State.radioLoss_iff]
    exact ⟨r, hr, by rw [State.radio_cutRadio, if_pos rfl]; rfl⟩
  have hyc : y.rlcClosed = false := hpict.within.rlcClosed.trans hc
  have hgrid : y.grid = s.grid := congrArg Settings.grid hpict.within.cfg
  rw [hdown, linkReport_rlc (by rw [hy, hyc]; decide) (hgrid ▸ (Grid.inside_iff _ _).1 hi), hy, hgrid, Bool.true_and]

/-- Settles O50. -/
theorem radioLinkTimeout : Obligations.RadioLinkTimeout := by
  unfold Obligations.RadioLinkTimeout
  refine ⟨fun s r q normal order moved hq hup htimer hsorted hnormal horder hno hmoved => ?_,
    fun s r h => ?_, fun s row => ⟨fun h => State.rowFate_ignored h false, fun hs hr ho => State.rowFate_dropped hs hr ho,
      fun start x hs hr ho hc hx => ⟨fun h => ?_, fun h1 h2 h3 => ?_⟩⟩⟩
  · subst hq
    have hmove : s.movedFrom r.val = moved := movedFrom_eq hsorted
      (fun n hn => by cases hn.trans hnormal.symm; exact horder) hno hmoved
    obtain ⟨y, hlost, hdown⟩ := radioLinkDown_lost s r.val
    have hwithin := radioLinkDown_within s r.val
    have hexec : exec (.radioLinkTimeout r) s = .next (s.radioLinkDown r.val).pump := by
      rw [← expireRadio_due hup htimer]
      rfl
    refine ⟨s.radioLinkDown r.val, hexec, ⟨y, hlost, hdown ▸ y.reported_linkReport⟩, radioLinkDown_radio_self s r.val,
      fun k hk => ?links, fun c => ?learning, radioLinkDown_rlcClosed s r.isLt,
      fun hc i hi => radioLinkDown_rlc s r.isLt hc hi, fun i => radioLinkDown_seg s r.val i, fun k h4 hk hu => ?fed,
      fun hc hrows => ?quiet, fun rows hrows hc hs hlt => radioLinkDown_cycle s r.isLt hc hs hrows hlt, fun m => ?notified,
      hwithin.mode, hwithin.cfg, radioLinkDown_cranes s r.val⟩
    case links =>
      have h := radioLinkDown_radio_ne s hk
      exact ⟨h.state, h.timer⟩
    case learning => rw [radioLinkDown_learning, State.learning_cutRadio hsorted]
    case fed => exact hmove ▸ radioLinkDown_fed s h4 hk hu
    case quiet => exact hmove ▸ radioLinkDown_quiet s r.isLt hc hrows
    case notified => exact hmove ▸ radioLinkDown_notified s r.val m
  · show Host.Outcome.next (s.expireRadio r.val).pump = _
    rw [expireRadio_not_due h]
  · rw [State.rowFate_last hs hr ho hc hx, if_neg]
    rintro ⟨h1, h2, h3⟩
    rcases h with h | h | h
    · rw [h] at h1; cases h1
    · exact h h2
    · exact h h3
  · rw [State.rowFate_last hs hr ho hc hx, if_pos ⟨h1, h2, h3⟩]

end Sys2Proof.Machine
end

section
/-! SET_RADIO (R118, R40): its fields, and the links that follow a change of their configured values one by one. -/

namespace Sys2Proof

theorem Table.filter_of_all {α : Type} (t : Table α) {p : α → Bool} (h : ∀ v, p v = true) :
    t.filter (fun _ v => p v) = t := by
  simp [Table.filter, h]

theorem Table.filter_filter {α : Type} (t : Table α) (p q : α → Bool) :
    (t.filter (fun _ v => p v)).filter (fun _ v => q v) = t.filter (fun _ v => q v && p v) := by
  simp [Table.filter, List.filter_filter]

end Sys2Proof

namespace Sys2Proof.Machine

/-! ## What link state reports leave (R40, R120) -/

/-- Some changes with link state reports among them: the settings and the part time stand, the dispatch links get
notifications only, and RLC stands as it was, with its flag, or as the flag and the static records now say. -/
structure Reports (s t : State) : Prop where
  cfg : t.cfg = s.cfg
  now : t.now = s.now
  dlinks : ∀ m, DispatchLink.Notified (s.dlink m) (t.dlink m)
  rlc : (t.rlcClosed = s.rlcClosed ∧ ∀ i, (t.seg i).oos.rlc = (s.seg i).oos.rlc) ∨
    ∀ i, i < s.grid.lanes * s.grid.bays → (t.seg i).oos.rlc = (t.rlcClosed && (s.grid.record i).rlc)

namespace Reports

theorem refl (s : State) : Reports s s := ⟨rfl, rfl, fun _ => .refl _, .inl ⟨rfl, fun _ => rfl⟩⟩

theorem grid {s t : State} (h : Reports s t) : t.grid = s.grid := congrArg Settings.grid h.cfg

theorem trans {s t u : State} (h : Reports s t) (g : Reports t u) : Reports s u := by
  refine ⟨g.cfg.trans h.cfg, g.now.trans h.now, fun m => (h.dlinks m).trans (g.dlinks m), ?_⟩
  rcases g.rlc with ⟨gc, gs⟩ | gs
  · rcases h.rlc with ⟨hc, hs⟩ | hs
    · exact .inl ⟨gc.trans hc, fun i => (gs i).trans (hs i)⟩
    · exact .inr fun i hi => by rw [gs, hs i hi, gc]
  · rw [h.grid] at gs
    exact .inr gs

theorem of_pictured {s t : State} (h : Pictured s t) : Reports s t :=
  ⟨h.within.cfg, h.within.now, h.dlinks, .inl ⟨h.within.rlcClosed, fun i => by rw [h.rest]; rfl⟩⟩

/-- RLC after changes that leave its flag otherwise than it was. -/
theorem rlc_of_changed {s t : State} (h : Reports s t) (hc : t.rlcClosed ≠ s.rlcClosed) {i : Nat}
    (hi : i < s.grid.lanes * s.grid.bays) : (t.seg i).oos.rlc = (t.rlcClosed && (s.grid.record i).rlc) := by
  rcases h.rlc with ⟨he, -⟩ | hs
  · exact absurd he hc
  · exact hs i hi

end Reports

theorem onRadio_reports (s : State) (r : Nat) (f : RadioLink → RadioLink) : Reports s (s.onRadio r f) :=
  ⟨rfl, rfl, fun _ => .refl _, .inl ⟨rfl, fun _ => rfl⟩⟩

theorem linkReport_reports (s : State) : Reports s s.linkReport := by
  have h := linkReport_within s
  refine ⟨h.cfg, h.now, h.dlinks, ?_⟩
  by_cases hl : s.radioLoss = s.rlcClosed
  · rw [linkReport_unchanged hl]
    exact .inl ⟨rfl, fun _ => rfl⟩
  · have hc : s.linkReport.rlcClosed = s.radioLoss := by
      rcases linkReport_cases s with ⟨-, he⟩ | hw
      · exact absurd he hl
      · exact hw.rlcClosed
    exact .inr fun i hi => by rw [linkReport_rlc hl hi, hc]

theorem radioLinkDown_reports (s : State) (r : Nat) : Reports s (s.radioLinkDown r) := by
  obtain ⟨y, hpict, hdown⟩ := radioLinkDown_pictured s r
  rw [hdown]
  have hcut : Reports s (s.cutRadio r) := ⟨rfl, rfl, fun _ => .refl _, .inl ⟨rfl, fun _ => rfl⟩⟩
  exact hcut.trans ((Reports.of_pictured hpict).trans (linkReport_reports y))

/-! ## One link follows a change of its configured value (R118) -/

/-- A radio link taken out of the configuration. -/
def RadioLink.takenOut (l : RadioLink) : RadioLink :=
  { l with state := .unconfigured, timer := none, rx := Receiver.hunting }

/-- A radio link after a change of its configured value. -/
def RadioLink.follow (old new : RadioConfig) (l : RadioLink) : RadioLink :=
  if old.configured = new.configured then l
  else if new.configured then { l with state := .down, timer := none }
  else if l.state = .up then l.cut.takenOut
  else l.takenOut

section
variable {s : State} {r : Nat} {old new : RadioConfig}

theorem followRadio_same (h : old.configured = new.configured) : s.followRadio r old new = s := if_pos h

theorem followRadio_added (hn : new.configured = true) (ho : old.configured = false) :
    s.followRadio r old new = s.onRadio r (fun l => { l with state := .down, timer := none }) :=
  (if_neg (by simp [hn, ho])).trans (if_pos hn)

theorem followRadio_removed (hn : new.configured = false) (ho : old.configured = true) :
    s.followRadio r old new =
      (if (s.radio r).state = .up then s.radioLinkDown r else s).onRadio r RadioLink.takenOut :=
  (if_neg (by simp [hn, ho])).trans (if_neg (by simp [hn]))

theorem RadioLink.follow_same {l : RadioLink} (h : old.configured = new.configured) : l.follow old new = l := if_pos h

theorem RadioLink.follow_added {l : RadioLink} (hn : new.configured = true) (ho : old.configured = false) :
    l.follow old new = { l with state := .down, timer := none } :=
  (if_neg (by simp [hn, ho])).trans (if_pos hn)

theorem RadioLink.follow_removed {l : RadioLink} (hn : new.configured = false) (ho : old.configured = true) :
    l.follow old new = if l.state = .up then l.cut.takenOut else l.takenOut :=
  (if_neg (by simp [hn, ho])).trans (if_neg (by simp [hn]))

/-- What becomes of a link's configured value: it stands, the link is added, or the link is taken out. -/
theorem RadioConfig.change_cases (old new : RadioConfig) : old.configured = new.configured ∨
    (new.configured = true ∧ old.configured = false) ∨ (new.configured = false ∧ old.configured = true) := by
  cases old.configured <;> cases new.configured <;> simp

variable (s r old new)

theorem followRadio_reports : Reports s (s.followRadio r old new) := by
  rcases RadioConfig.change_cases old new with h | ⟨hn, ho⟩ | ⟨hn, ho⟩
  · rw [followRadio_same h]
    exact .refl s
  · rw [followRadio_added hn ho]
    exact onRadio_reports _ _ _
  · rw [followRadio_removed hn ho]
    refine Reports.trans ?_ (onRadio_reports _ _ _)
    split
    · exact radioLinkDown_reports s r
    · exact .refl s

theorem followRadio_self : (s.followRadio r old new).radio r = (s.radio r).follow old new := by
  rcases RadioConfig.change_cases old new with h | ⟨hn, ho⟩ | ⟨hn, ho⟩
  · rw [followRadio_same h, RadioLink.follow_same h]
  · rw [followRadio_added hn ho, RadioLink.follow_added hn ho, State.radio_onRadio, if_pos rfl]
  · rw [followRadio_removed hn ho, RadioLink.follow_removed hn ho, State.radio_onRadio, if_pos rfl]
    split
    · rw [radioLinkDown_radio_self]
    · rfl

theorem followRadio_other {k : Nat} (hk : k ≠ r) : RadioLink.Fed (s.radio k) ((s.followRadio r old new).radio k) := by
  rcases RadioConfig.change_cases old new with h | ⟨hn, ho⟩ | ⟨hn, ho⟩
  · rw [followRadio_same h]
    exact .refl _
  · rw [followRadio_added hn ho, State.radio_onRadio, if_neg hk]
    exact .refl _
  · rw [followRadio_removed hn ho, State.radio_onRadio, if_neg hk]
    split
    · exact radioLinkDown_radio_ne s hk
    · exact .refl _

/-- The learning entries that go with a link that is taken out while it is UP (R121). -/
theorem followRadio_learning : (s.followRadio r old new).learning = s.learning.filter (fun _ e =>
    !(decide (e.link = r) && !new.configured && old.configured && decide ((s.radio r).state = .up))) := by
  rcases RadioConfig.change_cases old new with h | ⟨hn, ho⟩ | ⟨hn, ho⟩
  · rw [followRadio_same h, Table.filter_of_all _ (fun e => by rw [h]; cases new.configured <;> simp)]
  · rw [followRadio_added hn ho, Table.filter_of_all _ (fun e => by simp [hn])]
    rfl
  · rw [followRadio_removed hn ho, State.onRadio_learning]
    split
    · next hup =>
      rw [radioLinkDown_learning]
      simp only [hn, ho, hup, Bool.not_false, Bool.and_true, decide_true]
      show s.learning.filter (fun _ e => decide (e.link ≠ r)) = _
      simp only [ne_eq, decide_not]
    · next hup => rw [Table.filter_of_all _ (fun e => by simp [hup])]

end

/-! ## The links one after another (log entry 33) -/

/-- The first `n` links follow the changes of their configured values, in order. -/
def State.followTo (s : State) (old new : Nat → RadioConfig) (n : Nat) : State :=
  (List.range n).foldl (fun s r => s.followRadio r (old r) (new r)) s

section
variable (s : State) (old new : Nat → RadioConfig)

theorem followTo_succ (n : Nat) :
    s.followTo old new (n + 1) = (s.followTo old new n).followRadio n (old n) (new n) := by
  simp [State.followTo, List.range_succ]

theorem followTo_reports_after {k n : Nat} (h : k ≤ n) : Reports (s.followTo old new k) (s.followTo old new n) := by
  induction n, h using Nat.le_induction with
  | base => exact .refl _
  | succ n _ ih =>
    rw [followTo_succ s old new n]
    exact ih.trans (followRadio_reports _ _ _ _)

theorem followTo_reports (n : Nat) : Reports s (s.followTo old new n) :=
  followTo_reports_after s old new (Nat.zero_le n)

/-- A link whose turn has not come is fed at most. -/
theorem followTo_fed_before {n k : Nat} (h : n ≤ k) :
    RadioLink.Fed (s.radio k) ((s.followTo old new n).radio k) := by
  induction n with
  | zero => exact .refl _
  | succ n ih =>
    rw [followTo_succ]
    exact (ih (by omega)).trans (followRadio_other _ _ _ _ (by omega))

/-- A link whose turn has been is fed at most. -/
theorem followTo_fed_after {n k : Nat} (h : k < n) :
    RadioLink.Fed ((s.followTo old new (k + 1)).radio k) ((s.followTo old new n).radio k) := by
  induction n with
  | zero => omega
  | succ n ih =>
    rcases Nat.lt_or_eq_of_le (Nat.le_of_lt_succ h) with hlt | rfl
    · rw [followTo_succ s old new n]
      exact (ih hlt).trans (followRadio_other _ _ _ _ (by omega))
    · exact .refl _

theorem followTo_same {n : Nat} (h : ∀ r, r < n → (old r).configured = (new r).configured) :
    s.followTo old new n = s := by
  induction n with
  | zero => rfl
  | succ n ih => rw [followTo_succ, ih (fun r hr => h r (by omega)), followRadio_same (h n (by omega))]

/-- The learning entries of the links that are taken out while they are UP are gone, and no others (R121). -/
theorem followTo_learning (n : Nat) : (s.followTo old new n).learning = s.learning.filter (fun _ e =>
    !(decide (e.link < n) && !(new e.link).configured && (old e.link).configured &&
      decide ((s.radio e.link).state = .up))) := by
  induction n with
  | zero => rw [Table.filter_of_all _ (fun e => by simp)]; rfl
  | succ n ih =>
    rw [followTo_succ, followRadio_learning, ih, Table.filter_filter, (followTo_fed_before s old new (Nat.le_refl n)).state]
    congr 1
    funext _ e
    rcases Nat.lt_trichotomy e.link n with h | h | h
    · simp [h, Nat.ne_of_lt h, Nat.lt_succ_of_lt h]
    · simp [h]
    · simp [Nat.ne_of_gt h, Nat.not_lt.2 (Nat.le_of_lt h), Nat.not_lt.2 (Nat.succ_le_of_lt h)]

/-- The turns of other links take no learning entry of a link. -/
theorem learntOn_followTo (r : Nat) : (s.followTo old new r).learntOn r = s.learntOn r := by
  unfold State.learntOn Table.countWhere
  rw [followTo_learning]
  simp only [Table.filter, List.filter_filter]
  congr 1
  refine List.filter_congr fun e _ => ?_
  by_cases h : e.2.link = r <;> simp [h]

end

end Sys2Proof.Machine
end

section
/-! SET_RADIO as a whole (R118, R40): its fields, its refusals, and the part once its links have followed. -/

namespace Sys2Proof.Machine

/-! ## Fields -/

/-- The effective configuration of a link whose configured value is yes or no (R118). -/
def effectiveRadio (x : RadioSetting) : RadioConfig :=
  ⟨decide (x.configured = 1), clampTo 100 2000 x.timeout⟩

theorem readRadio_bit {x : RadioSetting} (h : x.configured ≤ 1) : readRadio x = some (effectiveRadio x) := by
  unfold readRadio
  rw [readYesNo_bit h]
  rfl

theorem readRadio_isNone (x : RadioSetting) : (readRadio x).isNone = decide (2 ≤ x.configured) := by
  rw [Bool.eq_iff_iff, decide_eq_true_eq, ← readYesNo_eq_none, readRadio, Option.isNone_map, Option.isNone_iff_eq_none]

/-- Each configured value is yes or no, or there is a first one that is neither. -/
theorem radioSettings_cases (l : List RadioSetting) : (∀ x ∈ l, x.configured ≤ 1) ∨
    ∃ pre x post, l = pre ++ x :: post ∧ (∀ y ∈ pre, y.configured ≤ 1) ∧ 2 ≤ x.configured := by
  have hbit : ∀ x : RadioSetting, decide (2 ≤ x.configured) = false ↔ x.configured ≤ 1 := fun x => by
    rw [decide_eq_false_iff_not]
    omega
  cases h : firstWhere (fun x : RadioSetting => decide (2 ≤ x.configured)) l 0 with
  | none => exact .inl fun x hx => (hbit x).1 (firstWhere_eq_none.1 h x hx)
  | some found =>
    obtain ⟨pre, post, hl, hpre, hx, -⟩ := firstWhere_eq_some.1 h
    exact .inr ⟨pre, found.2, post, hl, fun y hy => (hbit y).1 (hpre y hy), of_decide_eq_true hx⟩

theorem clampTo_eq_self_iff {lo hi n : Nat} (h : lo ≤ hi) : clampTo lo hi n = n ↔ lo ≤ n ∧ n ≤ hi := by
  unfold clampTo
  omega

/-- The bit of a value that is yes or no. -/
theorem boolVal_bit {n : Nat} (h : n ≤ 1) : boolVal (decide (n = 1)) = .byte n := by
  interval_cases n <;> rfl

/-- The configured values of the four links compared. -/
theorem configured_ne_iff (new old : Nat → RadioConfig) :
    ((List.range 4).map new).map RadioConfig.configured ≠ ((List.range 4).map old).map RadioConfig.configured ↔
      ¬ ∀ r, r < 4 → (new r).configured = (old r).configured := by
  simp only [List.map_map, ne_eq, List.map_inj_left, List.mem_range, Function.comp_apply]

/-! ## The four settings -/

section
variable {a : RadioArgs} (hbits : ∀ x ∈ radioSettings a, x.configured ≤ 1)
include hbits

theorem readRadio_settings : (radioSettings a).filterMap readRadio = (radioSettings a).map effectiveRadio := by
  rw [← List.filterMap_eq_map]
  exact List.filterMap_congr fun x hx => readRadio_bit (hbits x hx)

theorem firstWhere_readRadio : firstWhere (fun x => (readRadio x).isNone) (radioSettings a) 0 = none :=
  firstWhere_eq_none.2 fun x hx => by rw [readRadio_bit (hbits x hx)]; rfl

/-- The values of the links in the reply. -/
theorem effective_vals : ((radioSettings a).map effectiveRadio).flatMap
    (fun c => [boolVal c.configured, .half c.timeout]) =
      (radioSettings a).flatMap (fun x => [.byte x.configured, .half (max 100 (min x.timeout 2000))]) := by
  rw [List.flatMap_map]
  refine List.flatMap_congr fun x hx => ?_
  rw [show (effectiveRadio x).configured = decide (x.configured = 1) from rfl, boolVal_bit (hbits x hx)]
  rfl

end

/-- SET_RADIO reports clamping exactly when a value was outside its range (R118). -/
theorem radio_clamped (a : RadioArgs) :
    decide (clampTo 1 120 a.aging ≠ a.aging ∨
      ((radioSettings a).map effectiveRadio).map RadioConfig.timeout ≠
        (radioSettings a).map RadioSetting.timeout) =
    decide (¬ (1 ≤ a.aging ∧ a.aging ≤ 120 ∧ ∀ x ∈ radioSettings a, 100 ≤ x.timeout ∧ x.timeout ≤ 2000)) := by
  have htimeout : ∀ x : RadioSetting, (effectiveRadio x).timeout = x.timeout ↔ 100 ≤ x.timeout ∧ x.timeout ≤ 2000 :=
    fun x => clampTo_eq_self_iff (by decide)
  refine decide_eq_decide.2 ?_
  simp only [List.map_map, ne_eq, List.map_inj_left, Function.comp_apply, htimeout,
    clampTo_eq_self_iff (show 1 ≤ 120 by decide), not_and_or, or_assoc]

/-! ## The request -/

/-- The part with the effective values of SET_RADIO written. -/
def State.radioSet (u : State) (aging : Nat) (new : Nat → RadioConfig) : State :=
  { u with cfg := { u.cfg with aging := aging, radios := ⟨(List.range 4).map (fun r => (r, new r))⟩ } }

theorem ownSetRadio_badValue {u : State} {a : RadioArgs} {pre post : List RadioSetting} {x : RadioSetting}
    (hset : radioSettings a = pre ++ x :: post) (hpre : ∀ y ∈ pre, y.configured ≤ 1) (hx : 2 ≤ x.configured) :
    ownSetRadio a u = (u, refuseField 0x37 (1 + 2 * pre.length)) := by
  have hfirst : firstWhere (fun x => (readRadio x).isNone) (radioSettings a) 0 = some (pre.length, x) :=
    firstWhere_eq_some.2 ⟨pre, post, hset, fun y hy => by rw [readRadio_bit (hpre y hy)]; rfl,
      by rw [readRadio_isNone]; exact decide_eq_true hx, (Nat.zero_add _).symm⟩
  unfold ownSetRadio
  rw [hfirst]

section
variable {u : State} {a : RadioArgs} {new : Nat → RadioConfig} (hbits : ∀ x ∈ radioSettings a, x.configured ≤ 1)
  (hnew : (radioSettings a).map effectiveRadio = (List.range 4).map new)
include hbits hnew

theorem ownSetRadio_badMode (hm : u.mode ≠ .config)
    (hsame : ¬ ∀ r, r < 4 → (new r).configured = (u.radioCfg r).configured) :
    ownSetRadio a u = (u, refuse 0x37 .badMode []) := by
  unfold ownSetRadio
  rw [firstWhere_readRadio hbits, readRadio_settings hbits, hnew]
  exact if_pos (by rw [decide_eq_true ((configured_ne_iff new u.radioCfg).2 hsame), decide_eq_true hm]; rfl)

/-- SET_RADIO with every check passed: the links follow one after another, and a link state report ends a change of the
configured links (log entry 33). -/
theorem ownSetRadio_ok (hm : u.mode = .config ∨ ∀ r, r < 4 → (new r).configured = (u.radioCfg r).configured) :
    ∃ t, ownSetRadio a u = (t, accept 0x37
      (decide (¬ (1 ≤ a.aging ∧ a.aging ≤ 120 ∧ ∀ x ∈ radioSettings a, 100 ≤ x.timeout ∧ x.timeout ≤ 2000)))
      (.byte (clampTo 1 120 a.aging) ::
        (radioSettings a).flatMap (fun x => [.byte x.configured, .half (max 100 (min x.timeout 2000))]))) ∧
      ((∀ r, r < 4 → (new r).configured = (u.radioCfg r).configured) →
        t = (u.radioSet (clampTo 1 120 a.aging) new).followTo u.radioCfg new 4) ∧
      ((¬ ∀ r, r < 4 → (new r).configured = (u.radioCfg r).configured) →
        t = ((u.radioSet (clampTo 1 120 a.aging) new).followTo u.radioCfg new 4).linkReport) := by
  rw [← radio_clamped, ← effective_vals hbits]
  unfold ownSetRadio
  rw [firstWhere_readRadio hbits, readRadio_settings hbits, hnew]
  by_cases hsame : ∀ r, r < 4 → (new r).configured = (u.radioCfg r).configured
  · have hdiffers := decide_eq_false (mt (configured_ne_iff new u.radioCfg).1 (not_not.2 hsame))
    simp only [hdiffers]
    exact ⟨_, rfl, fun _ => rfl, fun h => absurd hsame h⟩
  · have hdiffers := decide_eq_true ((configured_ne_iff new u.radioCfg).2 hsame)
    have hmode := decide_eq_false (not_not.2 (hm.resolve_right hsame))
    simp only [hdiffers, hmode]
    exact ⟨_, rfl, fun h => absurd h hsame, fun _ => rfl⟩

end

end Sys2Proof.Machine
end

section
/-! SET_RADIO (R118, R40): the part once its links have followed and the report has ended the change, link by link. -/

namespace Sys2Proof.Machine

/-! ## The steps -/

/-- One link's step as R118 and R121 say. -/
theorem followRadio_step (s : State) (r : Nat) (old new : RadioConfig) :
    (new.configured = old.configured → s.followRadio r old new = s) ∧
    (new.configured = true → old.configured = false →
      s.followRadio r old new = s.onRadio r (fun l => { l with state := .down, timer := none })) ∧
    (new.configured = false → old.configured = true → ∃ x : State,
      ((s.radio r).state ≠ .up → x = s) ∧
      ((s.radio r).state = .up → ∃ y, s.RadioLost y r ∧ y.Reported x) ∧
      s.followRadio r old new = x.onRadio r RadioLink.takenOut) := by
  refine ⟨fun h => followRadio_same h.symm, fun hn ho => followRadio_added hn ho, fun hn ho =>
    ⟨_, fun h => if_neg h, fun h => ?_, followRadio_removed hn ho⟩⟩
  obtain ⟨y, hlost, hdown⟩ := radioLinkDown_lost s r
  rw [if_pos h, hdown]
  exact ⟨y, hlost, y.reported_linkReport⟩

/-! ## All links, and the report -/

section
variable {s t : State} {old new : Nat → RadioConfig}
  (ht : t = s.followTo old new 4 ∨ t = (s.followTo old new 4).linkReport)
include ht

theorem applied_reports_after {k : Nat} (hk : k ≤ 4) : Reports (s.followTo old new k) t := by
  have h := followTo_reports_after s old new hk
  rcases ht with rfl | rfl
  · exact h
  · exact h.trans (linkReport_reports _)

theorem applied_reports : Reports s t := applied_reports_after ht (Nat.zero_le 4)

/-- A link is fed at most before its turn and after it. -/
theorem applied_radio {r : Nat} (hr : r < 4) : ∃ l, RadioLink.Fed (s.radio r) l ∧
    RadioLink.Fed (l.follow (old r) (new r)) (t.radio r) := by
  have hafter := followTo_fed_after s old new hr
  rw [followTo_succ, followRadio_self] at hafter
  refine ⟨_, followTo_fed_before s old new (Nat.le_refl r), ?_⟩
  rcases ht with rfl | rfl
  · exact hafter
  · exact hafter.trans ((linkReport_within (s.followTo old new 4)).radios r)

theorem applied_same {r : Nat} (hr : r < 4) (h : (new r).configured = (old r).configured) :
    RadioLink.Fed (s.radio r) (t.radio r) := by
  obtain ⟨l, hl, hfed⟩ := applied_radio ht hr
  rw [RadioLink.follow_same h.symm] at hfed
  exact hl.trans hfed

theorem applied_added {r : Nat} (hr : r < 4) (hn : (new r).configured = true) (ho : (old r).configured = false) :
    ∃ l, RadioLink.Fed (s.radio r) l ∧ t.radio r = { l with state := .down, timer := none } := by
  obtain ⟨l, hl, hfed⟩ := applied_radio ht hr
  rw [RadioLink.follow_added hn ho] at hfed
  exact ⟨l, hl, hfed.down (fun h => nomatch h)⟩

theorem applied_removed {r : Nat} (hr : r < 4) (hn : (new r).configured = false) (ho : (old r).configured = true) :
    t.radio r = if (s.radio r).state = .up then (s.radio r).cut.takenOut else (s.radio r).takenOut := by
  obtain ⟨l, hl, hfed⟩ := applied_radio ht hr
  rw [RadioLink.follow_removed hn ho, hl.state] at hfed
  split
  · next hup =>
    rw [if_pos hup] at hfed
    rw [hfed.down (fun h => nomatch h), hl.rest]
    rfl
  · next hup =>
    rw [if_neg hup] at hfed
    rw [hfed.down (fun h => nomatch h), hl.down hup]

theorem applied_state {r : Nat} (hr : r < 4) : (t.radio r).state =
    if (new r).configured = false ∧ (old r).configured = true then .unconfigured
    else if (new r).configured = true ∧ (old r).configured = false then .down
    else (s.radio r).state := by
  rcases RadioConfig.change_cases (old r) (new r) with h | ⟨hn, ho⟩ | ⟨hn, ho⟩
  · rw [if_neg (by simp [h]), if_neg (by simp [h]), (applied_same ht hr h.symm).state]
  · obtain ⟨l, -, he⟩ := applied_added ht hr hn ho
    rw [if_neg (by simp [hn]), if_pos ⟨hn, ho⟩, he]
  · rw [if_pos ⟨hn, ho⟩, applied_removed ht hr hn ho]
    split <;> rfl

theorem applied_learning : t.learning = (s.followTo old new 4).learning := by
  rcases ht with rfl | rfl
  · rfl
  · obtain ⟨-, -, hlearning, -⟩ := linkReport_frame (s.followTo old new 4)
    exact hlearning

/-- RADIO_DOWN for a link that was UP and is taken out (R121). -/
theorem applied_notified {r : Nat} (hr : r < 4) (hn : (new r).configured = false) (ho : (old r).configured = true)
    (hup : (s.radio r).state = .up) (m : DLink) : ∃ (n : Nat) (d : DispatchLink),
    DispatchLink.Notified (s.dlink m) d ∧
      DispatchLink.Notified (d.offer s.now (s.radioDownEntry r n)) (t.dlink m) := by
  have hbefore := followTo_reports s old new r
  have hafter := (applied_reports_after ht (Nat.succ_le_of_lt hr)).dlinks m
  rw [followTo_succ, followRadio_removed hn ho,
    if_pos ((followTo_fed_before s old new (Nat.le_refl r)).state.trans hup)] at hafter
  obtain ⟨d, hd, hoffer⟩ := radioLinkDown_notified (s.followTo old new r) r m
  refine ⟨((s.followTo old new r).movedFrom r).length, d, (hbefore.dlinks m).trans hd, ?_⟩
  rw [State.radioDownEntry, hbefore.now, learntOn_followTo] at hoffer
  exact hoffer.trans hafter

end

/-! ## The statement -/

/-- Settles O48. -/
theorem setRadio : Obligations.SetRadio := by
  unfold Obligations.SetRadio
  intro s u l a set new same hu hroom hset hnew hsame
  obtain rfl : same = ∀ r, r < 4 → (new r).configured = (u.radioCfg r).configured := propext hsame
  obtain rfl : set = radioSettings a := hset
  have hvalues : (radioSettings a).map effectiveRadio = (List.range 4).map new := by
    have hrange : (List.range 4).map new = [new 0, new 1, new 2, new 3] := rfl
    rw [hrange, hnew, hnew, hnew, hnew]
    rfl
  constructor
  · intro why detail hfails
    refine next_takeRequest hu hroom ?_
    obtain ⟨rfl, pre, x, post, hsplit, hpre, hx, rfl⟩ | ⟨hvalid, ⟨rfl, hm, hdiffers, rfl⟩ | ⟨-, hnone⟩⟩ := hfails
    · exact ownSetRadio_badValue hsplit hpre hx
    · obtain hbits | ⟨pre, x, post, hsplit, hpre, hx⟩ := radioSettings_cases (radioSettings a)
      · exact ownSetRadio_badMode hbits hvalues hm hdiffers
      · exact absurd ⟨pre, x, post, hsplit, hpre, hx, rfl⟩ (hvalid [.field (1 + 2 * pre.length)])
    · exact (firstFails_nil _ _).1 hnone |>.elim
  · intro hbits hm
    obtain ⟨t, hown, hs, hc⟩ := ownSetRadio_ok hbits hvalues hm
    have ht : t = (u.radioSet (clampTo 1 120 a.aging) new).followTo u.radioCfg new 4 ∨
        t = ((u.radioSet (clampTo 1 120 a.aging) new).followTo u.radioCfg new 4).linkReport :=
      (em _).imp hs hc
    have hreports := applied_reports ht
    have hlearning := (applied_learning ht).trans (followTo_learning _ _ _ 4)
    refine ⟨t, next_takeRequest hu hroom hown, hreports.cfg, fun h => ?same,
      ⟨(u.radioSet (clampTo 1 120 a.aging) new).followTo u.radioCfg new, ?start, fun r _ => ?step, hs, fun h => ?report⟩,
      fun r hr => applied_state ht hr, fun h => ?closed, fun h i hi => hreports.rlc_of_changed h hi,
      fun r hr h => applied_same ht hr h, fun r hr hn ho hup => ?added, fun r hr hn ho => ⟨fun hup => ?out, fun hup =>
      ⟨?lost, fun m => applied_notified ht hr hn ho hup m⟩⟩, fun hsorted c => ?learning⟩
    case same =>
      rw [hs h, followTo_same _ _ _ (fun r hr => (h r hr).symm)]
      rfl
    case start =>
      rw [hreports.cfg]
      rfl
    case step =>
      rw [followTo_succ]
      exact followRadio_step _ _ _ _
    case report =>
      rw [hc h]
      exact State.reported_linkReport _
    case closed =>
      rw [hc h, linkReport_closed, State.radioLoss_iff]
    case added =>
      obtain ⟨l, hl, he⟩ := applied_added ht hr hn ho
      rw [he, hl.down hup]
      rfl
    case out =>
      rw [applied_removed ht hr hn ho]
      exact if_neg hup
    case lost =>
      rw [applied_removed ht hr hn ho]
      exact if_pos hup
    case learning =>
      rw [hlearning]
      exact Table.get?_filter hsorted _ c

end Sys2Proof.Machine
end

section
/-! What every request keeps of the queues, the locks, the claims and the pending route list (R17, R34, R41, R96, R108,
R121, R125, R128): the relation `Keeps`, and the single updates that stand in it. -/

namespace Sys2Proof.Machine

/-! ## Queues with at most one frame of a kind (R108, R128) -/

theorem mem_joinQueue {α : Type} {p : α → Bool} {x z : α} {l : List α} (h : z ∈ joinQueue p x l) : z = x ∨ z ∈ l := by
  induction l with
  | nil => exact .inl (by simpa [joinQueue] using h)
  | cons y rest ih =>
    unfold joinQueue at h
    split at h
    · rcases List.mem_cons.1 h with h | h
      · exact .inl h
      · exact .inr (List.mem_cons_of_mem _ h)
    · rcases List.mem_cons.1 h with h | h
      · exact .inr (h ▸ List.mem_cons_self)
      · exact (ih h).imp_right (List.mem_cons_of_mem _)

/-- An entry that takes the place of the one of its kind, or joins at the end, leaves at most one of each kind. -/
theorem pairwise_joinQueue {α : Type} {R : α → α → Prop} {p : α → Bool} {x : α} {l : List α} (h : l.Pairwise R)
    (hsame : ∀ y z, p y = true → R y z → R x z) (hother : ∀ y, p y = false → R y x) :
    (joinQueue p x l).Pairwise R := by
  induction l with
  | nil => exact List.pairwise_singleton R x
  | cons y rest ih =>
    obtain ⟨hy, hrest⟩ := List.pairwise_cons.1 h
    unfold joinQueue
    split
    · next hp => exact List.pairwise_cons.2 ⟨fun z hz => hsame y z hp (hy z hz), hrest⟩
    · next hp =>
      refine List.pairwise_cons.2 ⟨fun z hz => ?_, ih hrest⟩
      rcases mem_joinQueue hz with rfl | hz
      · exact hother y (by simpa using hp)
      · exact hy z hz

theorem RadioLink.Coalesced.transmit {l : RadioLink} (h : l.Coalesced) : l.transmit.Coalesced := by
  unfold RadioLink.transmit
  split
  · split
    · next a rest hu =>
      exact ⟨fun b hb => h.urgent b (hu ▸ List.mem_cons_of_mem _ hb), h.normal,
        (List.pairwise_cons.1 (hu ▸ h.urgentOnce)).2, h.normalOnce⟩
    · next f rest hu hn =>
      exact ⟨fun b hb => h.urgent b hb, fun a ha => h.normal a (hn ▸ List.mem_cons_of_mem _ ha),
        h.urgentOnce, (List.pairwise_cons.1 (hn ▸ h.normalOnce)).2⟩
    · exact h
  · exact h

theorem RadioLink.Coalesced.join {l : RadioLink} (h : l.Coalesced) (a : Authority) : (l.join a).Coalesced := by
  unfold RadioLink.join
  cases hc : a.command.urgent with
  | true =>
    refine ⟨fun b hb => ?_, fun b hb => h.normal b (List.mem_filter.1 hb).1, pairwise_joinQueue h.urgentOnce ?_ ?_,
      h.normalOnce.filter _⟩
    · rcases mem_joinQueue hb with rfl | hb
      · exact (Command.urgent_iff _).1 hc
      · exact h.urgent b hb
    · intro y z hy hz
      rwa [← of_decide_eq_true hy]
    · exact fun y hy => of_decide_eq_false hy
  | false =>
    refine ⟨h.urgent, fun b hb => ?_, h.urgentOnce, pairwise_joinQueue h.normalOnce ?_ ?_⟩
    · rcases mem_joinQueue hb with hb | hb
      · cases hb
        exact (Command.not_urgent_iff _).1 (by simp [hc])
      · exact h.normal b hb
    · intro y z hy hz
      cases y with
      | row r => cases hy
      | authority b =>
        have hb : b.carrier = a.carrier := of_decide_eq_true hy
        cases z with
        | row r => trivial
        | authority d => exact fun he => hz (hb.trans he)
    · intro y hy
      cases y with
      | row r => trivial
      | authority b => exact of_decide_eq_false hy

/-- A picture row in the place of the row of its lane, or at the end (R128). -/
theorem RadioLink.Coalesced.joinRow {l : RadioLink} (h : l.Coalesced) (row : PictureRow) :
    RadioLink.Coalesced { l with normal := joinQueue (RadioFrame.isRow row.lane) (.row row) l.normal } := by
  refine ⟨h.urgent, fun a ha => ?_, h.urgentOnce, pairwise_joinQueue h.normalOnce ?_ ?_⟩
  · rcases mem_joinQueue ha with ha | ha
    · cases ha
    · exact h.normal a ha
  · intro y z hy hz
    cases y with
    | authority a => cases hy
    | row r =>
      have hr : r.lane = row.lane := of_decide_eq_true hy
      cases z with
      | authority a => trivial
      | row q => exact fun he => hz (hr.trans he)
  · intro y hy
    cases y with
    | authority a => trivial
    | row r => exact of_decide_eq_false hy

/-- At most one of each command waits on a crane link (R108). -/
def CraneLink.Distinct (l : CraneLink) : Prop := l.queue.Pairwise (fun f g => f.sameCommand g = false)

theorem CraneLink.distinct_iff (l : CraneLink) : l.Distinct ↔ l.queue.Pairwise (fun f g => match f, g with
    | .hoistStop _, .hoistStop _ => False
    | .gantryStop _, .gantryStop _ => False
    | .lowerRevoked _ t, .lowerRevoked _ u => t ≠ u
    | _, _ => True) := by
  unfold CraneLink.Distinct
  refine ⟨fun h => h.imp fun {f g} e => ?_, fun h => h.imp fun {f g} e => ?_⟩ <;>
    cases f <;> cases g <;> simp_all [CraneFrame.sameCommand]

theorem CraneFrame.sameCommand_comm (f g : CraneFrame) : f.sameCommand g = g.sameCommand f := by
  cases f <;> cases g <;> simp [CraneFrame.sameCommand, eq_comm]

/-- The same command as a frame is the same command as any other that is. -/
theorem CraneFrame.sameCommand_congr {f g : CraneFrame} (h : f.sameCommand g = true) (z : CraneFrame) :
    g.sameCommand z = f.sameCommand z := by
  cases f <;> cases g <;> cases z <;> simp_all [CraneFrame.sameCommand]

theorem CraneLink.Distinct.join {l : CraneLink} (h : l.Distinct) (f : CraneFrame) : (l.join f).Distinct :=
  pairwise_joinQueue h (fun _ z hy hz => (CraneFrame.sameCommand_congr hy z) ▸ hz)
    (fun y hy => (CraneFrame.sameCommand_comm y f).trans hy)

theorem CraneLink.Distinct.transmit {l : CraneLink} (h : l.Distinct) : l.transmit.Distinct := by
  unfold CraneLink.transmit
  split
  · next f rest _ hq => exact (List.pairwise_cons.1 (show (f :: rest).Pairwise _ from hq ▸ h)).2
  · exact h

/-! ## Hoist locks with a reason in each entry (R17, R41) -/

/-- A hoist lock holds at most one entry per crane, each with a reason (R17). -/
def SegDyn.Reasoned (r : SegDyn) : Prop := r.lock.Sorted ∧ ∀ x ∈ r.lock.rows, x.2 ≠ Reasons.none_

theorem mem_putRow {α : Type} {k : Nat} {v : α} {l : List (Nat × α)} {x : Nat × α} (h : x ∈ putRow k v l) :
    x = (k, v) ∨ x ∈ l := by
  induction l with
  | nil => exact .inl (by simpa [putRow] using h)
  | cons p rest ih =>
    unfold putRow at h
    split at h
    · exact List.mem_cons.1 h
    · split at h
      · exact (List.mem_cons.1 h).imp_right (List.mem_cons_of_mem _)
      · rcases List.mem_cons.1 h with h | h
        · exact .inr (h ▸ List.mem_cons_self)
        · exact (ih h).imp_right (List.mem_cons_of_mem _)

theorem Reasons.join_ne_none (a : Reasons) {b : Reasons} (h : b ≠ Reasons.none_) : a.join b ≠ Reasons.none_ := by
  obtain ⟨c, v, f, l⟩ := b
  simp only [Reasons.join, Reasons.none_, ne_eq, Reasons.mk.injEq, Bool.or_eq_false_iff] at h ⊢
  tauto

theorem SegDyn.Reasoned.put {r : SegDyn} (h : r.Reasoned) (k : Nat) {v : Reasons} (hv : v ≠ Reasons.none_) :
    SegDyn.Reasoned { r with lock := r.lock.put k v } := by
  refine ⟨Table.sorted_put _ _ h.1, fun x hx => ?_⟩
  rcases mem_putRow hx with rfl | hx
  · exact hv
  · exact h.2 x hx

theorem SegDyn.Reasoned.addLock {r : SegDyn} (h : r.Reasoned) (k : Nat) {rs : Reasons} (hrs : rs ≠ Reasons.none_) :
    (r.addLock k rs).Reasoned := h.put k (Reasons.join_ne_none _ hrs)

/-- Reasons that leave take an entry with them that has no other. -/
theorem SegDyn.Reasoned.removeLock {r : SegDyn} (h : r.Reasoned) (k : Nat) (rs : Reasons) :
    (r.removeLock k rs).Reasoned := by
  unfold SegDyn.removeLock
  simp only
  split
  · exact ⟨Table.sorted_del _ h.1, fun x hx => h.2 x (List.mem_filter.1 hx).1⟩
  · next hne => exact h.put k hne

/-! ## The relation -/

/-- What every request keeps of the part: the states of the radio links and the order of their queues (R128) and of
those of the crane links (R108); each learning entry, or else one of a link that is UP (R125); at most one pending entry
per carrier, each of a carrier that waited before and is IDLE if it was, save those that `but` names (R34); the hoist
locks (R41); and no claim of a TRAVELLING crane (R109). -/
structure KeepsBut (but : Nat → Prop) (s t : State) : Prop where
  state : ∀ r, (t.radio r).state = (s.radio r).state
  queues : ∀ r, (s.radio r).Coalesced → (t.radio r).Coalesced
  commands : ∀ k, (s.craneLink k).Distinct → (t.craneLink k).Distinct
  learned : ∀ x ∈ t.learning.rows, x ∈ s.learning.rows ∨ (s.radio x.2.link).state = .up
  once : s.waiting.Pairwise (fun e f => e.carrier ≠ f.carrier) → t.waiting.Pairwise (fun e f => e.carrier ≠ f.carrier)
  idle : ∀ e ∈ t.waiting, (∃ d ∈ s.waiting, d.carrier = e.carrier) ∧
    (s.carrierIs e.carrier .idle = true → t.carrierIs e.carrier .idle = true ∨ but e.carrier)
  locks : ∀ i, (s.seg i).Reasoned → (t.seg i).Reasoned
  claims : ∀ k, ((s.crane k).state = .travelling → (s.crane k).claim = none) →
    ((t.crane k).state = .travelling → (t.crane k).claim = none)

/-- The same, of every carrier that waits. -/
abbrev Keeps (s t : State) : Prop := KeepsBut (fun _ => False) s t

namespace KeepsBut

variable {but : Nat → Prop}

theorem refl (s : State) : KeepsBut but s s :=
  ⟨fun _ => rfl, fun _ => id, fun _ => id, fun _ => .inl, id, fun e he => ⟨⟨e, he, rfl⟩, .inl⟩, fun _ => id,
    fun _ => id⟩

theorem trans {s t u : State} (h : KeepsBut but s t) (g : KeepsBut but t u) : KeepsBut but s u where
  state r := (g.state r).trans (h.state r)
  queues r := g.queues r ∘ h.queues r
  commands k := g.commands k ∘ h.commands k
  learned x hx := by
    rcases g.learned x hx with hx | hx
    · exact h.learned x hx
    · exact .inr (h.state _ ▸ hx)
  once := g.once ∘ h.once
  idle e he := by
    obtain ⟨⟨d, hd, hde⟩, hidle⟩ := g.idle e he
    obtain ⟨hfrom, hback⟩ := h.idle d hd
    rw [hde] at hfrom hback
    exact ⟨hfrom, fun hs => (hback hs).elim hidle .inr⟩
  locks i := g.locks i ∘ h.locks i
  claims k := g.claims k ∘ h.claims k

/-- Entries that are gone need not be excepted. -/
theorem keeps {s t : State} (h : KeepsBut but s t) (hno : ∀ e ∈ t.waiting, ¬ but e.carrier) : Keeps s t :=
  { h with idle := fun e he => ⟨(h.idle e he).1, fun hs => ((h.idle e he).2 hs).imp_right (hno e he)⟩ }

theorem of_keeps {s t : State} (h : Keeps s t) : KeepsBut but s t :=
  { h with idle := fun e he => ⟨(h.idle e he).1, fun hs => ((h.idle e he).2 hs).imp_right False.elim⟩ }

/-- Changes of anything else keep all this. -/
theorem of_eq {s t : State} (hradios : t.radios = s.radios) (hlinks : t.craneLinks = s.craneLinks)
    (hlearning : t.learning = s.learning) (hwaiting : t.waiting = s.waiting) (hcarriers : t.carriers = s.carriers)
    (hsegs : t.segs = s.segs) (hcranes : t.cranes = s.cranes) : KeepsBut but s t := by
  have hradio : ∀ r, t.radio r = s.radio r := fun r => by unfold State.radio; rw [hradios]
  have hlink : ∀ k, t.craneLink k = s.craneLink k := fun k => by unfold State.craneLink; rw [hlinks]
  have hseg : ∀ i, t.seg i = s.seg i := fun i => by unfold State.seg; rw [hsegs]
  have hcrane : ∀ k, t.crane k = s.crane k := fun k => by unfold State.crane; rw [hcranes]
  have hidle : ∀ c, t.carrierIs c .idle = s.carrierIs c .idle := fun c => by
    unfold State.carrierIs State.carrier?
    rw [hcarriers]
  refine ⟨fun r => by rw [hradio], fun r => by rw [hradio]; exact id, fun k => by rw [hlink]; exact id,
    fun x hx => .inl (hlearning ▸ hx), by rw [hwaiting]; exact id,
    fun e he => ⟨⟨e, hwaiting ▸ he, rfl⟩, fun h => .inl (by rw [hidle, h])⟩, fun i => by rw [hseg]; exact id,
    fun k => by rw [hcrane]; exact id⟩

end KeepsBut

theorem Keeps.refl (s : State) : Keeps s s := KeepsBut.refl s

theorem Keeps.foldl {α : Type} (f : State → α → State) (h : ∀ s a, Keeps s (f s a)) (l : List α) (s : State) :
    Keeps s (l.foldl f s) := by
  induction l generalizing s with
  | nil => exact .refl s
  | cons a rest ih => exact (h s a).trans (ih (f s a))

/-! ## Single updates -/

theorem post_keeps (s : State) (kind : NotifKind) (subject : Subject) (detail : List Val) :
    Keeps s (s.post kind subject detail) := .of_eq rfl rfl rfl rfl rfl rfl rfl

theorem onDlink_keeps (s : State) (l : DLink) (f : DispatchLink → DispatchLink) : Keeps s (s.onDlink l f) :=
  .of_eq rfl rfl rfl rfl rfl rfl rfl

theorem cycle_keeps (s : State) (c : Cycle) : Keeps s { s with cycle := c } := .of_eq rfl rfl rfl rfl rfl rfl rfl

theorem onRadio_keeps (s : State) (r : Nat) (f : RadioLink → RadioLink) (hs : (f (s.radio r)).state = (s.radio r).state)
    (hq : (s.radio r).Coalesced → (f (s.radio r)).Coalesced) : Keeps s (s.onRadio r f) :=
  { Keeps.refl s with
    state := fun q => by
      rw [State.radio_onRadio]
      split
      · next h => rw [h, hs]
      · rfl
    queues := fun q => by
      rw [State.radio_onRadio]
      split
      · next h => rw [h]; exact hq
      · exact id }

theorem onCraneLink_keeps (s : State) (k : Nat) (f : CraneLink → CraneLink)
    (hf : (s.craneLink k).Distinct → (f (s.craneLink k)).Distinct) : Keeps s (s.onCraneLink k f) :=
  { Keeps.refl s with
    commands := fun m => by
      rw [State.craneLink_onCraneLink]
      split
      · next h => rw [h]; exact hf
      · exact id }

theorem craneSend_keeps (s : State) (k : Nat) (f : CraneFrame) : Keeps s (s.craneSend k f) :=
  onCraneLink_keeps s k _ (fun h => (h.join f).transmit)

theorem onCrane_keeps (s : State) (k : Nat) (f : Crane → Crane)
    (hf : ((s.crane k).state = .travelling → (s.crane k).claim = none) → (f (s.crane k)).state = .travelling →
      (f (s.crane k)).claim = none) : Keeps s (s.onCrane k f) :=
  { Keeps.refl s with
    claims := fun m => by
      rw [State.crane_onCrane]
      split
      · next h => rw [h]; exact hf
      · exact id }

theorem putSeg_keeps (s : State) (i : Nat) (r : SegDyn) (h : (s.seg i).Reasoned → r.Reasoned) :
    Keeps s (s.putSeg i r) :=
  { Keeps.refl s with
    locks := fun j => by
      rw [State.seg_putSeg]
      split
      · next hj => rw [hj]; exact h
      · exact id }

theorem learn_keeps (s : State) (c r : Nat) (h : (s.radio r).state = .up) : Keeps s (s.learn c r) :=
  { Keeps.refl s with
    learned := fun x hx => by
      rcases mem_putRow hx with rfl | hx
      · exact .inr h
      · exact .inl hx }

theorem State.carrierIs_iff (s : State) (c : Nat) (st : CarrierState) :
    s.carrierIs c st = true ↔ ∃ r, s.carrier? c = some r ∧ r.state = st := by
  unfold State.carrierIs
  cases s.carrier? c <;> simp

theorem onCarrier_keepsBut (s : State) (c : Nat) (f : Carrier → Carrier) :
    KeepsBut (fun d => d = c) s (s.onCarrier c f) := by
  have h : s.onCarrier c f = { s with carriers := (s.onCarrier c f).carriers } := by
    unfold State.onCarrier
    split <;> rfl
  have hidle : ∀ d, s.carrierIs d .idle = true → (s.onCarrier c f).carrierIs d .idle = true ∨ d = c := by
    intro d hd
    by_cases hc : d = c
    · exact .inr hc
    · refine .inl ?_
      rw [State.carrierIs_iff] at hd ⊢
      rwa [State.carrier?_onCarrier, if_neg hc]
  rw [h] at hidle ⊢
  exact { KeepsBut.refl (but := fun d => d = c) s with idle := fun e he => ⟨⟨e, he, rfl⟩, hidle e.carrier⟩ }

/-- A change of a carrier record that does not take the carrier out of IDLE. -/
theorem onCarrier_keeps (s : State) (c : Nat) (f : Carrier → Carrier)
    (hf : ∀ r, s.carrier? c = some r → r.state = .idle → (f r).state = .idle) : Keeps s (s.onCarrier c f) := by
  have h := onCarrier_keepsBut s c f
  refine { h with idle := fun e he => ⟨(h.idle e he).1, fun hs => .inl ?_⟩ }
  rw [State.carrierIs_iff] at hs ⊢
  obtain ⟨r, hr, hidle⟩ := hs
  rw [State.carrier?_onCarrier]
  split
  · next hc => exact ⟨f r, by rw [hr]; rfl, hf r (hc ▸ hr) hidle⟩
  · exact ⟨r, hr, hidle⟩

theorem dropEntry_keeps (s : State) (c : Nat) : Keeps s (s.dropEntry c) :=
  { Keeps.refl s with
    once := fun h => h.filter _
    idle := fun e he => ⟨⟨e, (List.mem_filter.1 he).1, rfl⟩, .inl⟩ }

theorem not_mem_dropEntry {s : State} {c : Nat} {e : PendingEntry} (h : e ∈ (s.dropEntry c).waiting) :
    e.carrier ≠ c := of_decide_eq_true (List.mem_filter.1 h).2

theorem blockEntry_keeps (s : State) (c i : Nat) : Keeps s (s.blockEntry c i) := by
  have hsame : ∀ e : PendingEntry, (if e.carrier = c then { e with lastBlock := i } else e).carrier = e.carrier :=
    fun e => by split <;> rfl
  refine { Keeps.refl s with once := fun h => ?_, idle := fun e he => ?_ }
  · refine List.pairwise_map.2 (h.imp fun {e f} hne => ?_)
    rw [hsame, hsame]
    exact hne
  · obtain ⟨d, hd, rfl⟩ := List.mem_map.1 he
    exact ⟨⟨d, hd, (hsame d).symm⟩, .inl⟩

/-! ## Radio links and the picture (R127 to R142) -/

theorem offerAuthority_keeps (s : State) (r : Nat) (a : Authority) : Keeps s (s.offerAuthority r a) := by
  refine onRadio_keeps s r _ ?_ (fun h => (h.join a).transmit)
  rw [(RadioLink.transmit_fed _).state]
  unfold RadioLink.join
  split <;> rfl

theorem routeAuthority_keeps (s : State) (a : Authority) (st : CarrierState) : Keeps s (s.routeAuthority a st) :=
  Keeps.foldl _ (fun s r => offerAuthority_keeps s r a) _ s

theorem offerRow_keeps (s : State) (r : Nat) (row : PictureRow) : Keeps s (s.offerRow r row) := by
  have key : ∀ t : State, Keeps t (t.onRadio r (fun l =>
      RadioLink.transmit { l with normal := joinQueue (RadioFrame.isRow row.lane) (.row row) l.normal })) :=
    fun t => onRadio_keeps t r _ (RadioLink.transmit_fed _).state (fun h => (h.joinRow row).transmit)
  unfold State.offerRow
  simp only
  split
  · exact (cycle_keeps s _).trans (key _)
  · exact key s

theorem handRow_keeps (s : State) (row : PictureRow) : Keeps s (s.handRow row) := by
  have h := Keeps.foldl _ (fun s r => offerRow_keeps s r row) s.upLinks s
  unfold State.handRow
  simp only
  split <;> exact h.trans (cycle_keeps _ _)

theorem beginCycle_keeps (s : State) : Keeps s s.beginCycle :=
  (cycle_keeps s _).trans (Keeps.foldl _ handRow_keeps _ _)

theorem closeCycle_keeps (s : State) : Keeps s s.closeCycle := by
  unfold State.closeCycle
  simp only
  split
  · exact (post_keeps s _ _ _).trans (cycle_keeps _ _)
  · exact cycle_keeps s _

theorem closeIfDone_keeps (s : State) : Keeps s s.closeIfDone := by
  unfold State.closeIfDone
  split
  · exact closeCycle_keeps s
  · exact .refl s

theorem rerunCycle_keeps (s : State) : Keeps s s.rerunCycle := by
  unfold State.rerunCycle
  simp only
  split
  · split
    · exact ((cycle_keeps s _).trans (beginCycle_keeps _)).trans (closeIfDone_keeps _)
    · exact cycle_keeps s _
  · exact .refl s

theorem settleCycle_keeps (s : State) : Keeps s s.settleCycle := by
  unfold State.settleCycle
  split
  · exact (closeCycle_keeps s).trans (rerunCycle_keeps _)
  · exact .refl s

theorem startCycle_keeps (s : State) : Keeps s s.startCycle := (beginCycle_keeps s).trans (settleCycle_keeps _)

theorem rowFate_keeps (s : State) (row : PictureRow) (sent : Bool) : Keeps s (s.rowFate row sent) :=
  (cycle_keeps s _).trans (settleCycle_keeps _)

theorem startOrSkip_keeps (s : State) : Keeps s s.startOrSkip := by
  unfold State.startOrSkip
  split
  · exact cycle_keeps s _
  · exact startCycle_keeps s

theorem startOrRerun_keeps (s : State) : Keeps s s.startOrRerun := by
  unfold State.startOrRerun
  split
  · exact cycle_keeps s _
  · exact startCycle_keeps s

theorem pictureChange_keeps (s : State) (l : List Nat) : Keeps s (s.pictureChange l) := by
  unfold State.pictureChange
  split
  · exact startOrRerun_keeps s
  · exact .refl s

theorem followMode_keeps (s : State) (m : BroadcastMode) : Keeps s (s.followMode m) := by
  unfold State.followMode
  split
  · exact .refl s
  · cases s.effectiveMode with
    | off => exact cycle_keeps s _
    | continuous => exact (cycle_keeps s _).trans (startOrSkip_keeps _)
    | onChange => exact (cycle_keeps s _).trans (startOrRerun_keeps _)
    | oneShot => exact cycle_keeps s _

end Sys2Proof.Machine
end

section
/-! What every request keeps of the queues, the locks, the claims and the pending route list: requests in progress, and
the end of a request (R21, R34, R36, R41, R69, R75). -/

namespace Sys2Proof.Machine

/-! ## Changes of a segment record that leave its lock -/

theorem SegDyn.Reasoned.of_lock {a b : SegDyn} (h : a.Reasoned) (hl : b.lock = a.lock) : b.Reasoned := by
  unfold SegDyn.Reasoned
  rw [hl]
  exact h

@[simp] theorem SegDyn.freeze_lock (r : SegDyn) : r.freeze.lock = r.lock := by
  unfold SegDyn.freeze
  split <;> rfl

@[simp] theorem SegDyn.mark_lock (p : Party) (r : SegDyn) : (r.mark p).lock = r.lock := by
  unfold SegDyn.mark
  split <;> rfl

@[simp] theorem SegDyn.haltTake_lock (k : Nat) (r : SegDyn) : (r.haltTake k).lock = r.lock := by
  unfold SegDyn.haltTake
  split
  · rfl
  · split
    · rfl
    · exact r.mark_lock _

@[simp] theorem SegDyn.returnLeg_lock (k : Nat) (r : SegDyn) : (r.returnLeg k).lock = r.lock := by
  unfold SegDyn.returnLeg
  split <;> rfl

/-- What an operation on a request in progress keeps. -/
def Work.KeepsBut (but : Nat → Prop) (w v : Work) : Prop := Machine.KeepsBut but w.s v.s

/-- The same, of every carrier that waits. -/
abbrev Work.Keeps (w v : Work) : Prop := Work.KeepsBut (fun _ => False) w v

namespace Work

theorem KeepsBut.trans {but : Nat → Prop} {w v u : Work} (h : KeepsBut but w v) (g : KeepsBut but v u) :
    KeepsBut but w u := Machine.KeepsBut.trans h g

theorem Keeps.refl (w : Work) : Keeps w w := Machine.Keeps.refl w.s

theorem KeepsBut.of_keeps {but : Nat → Prop} {w v : Work} (h : Keeps w v) : KeepsBut but w v :=
  Machine.KeepsBut.of_keeps h

theorem foldl_keeps {α : Type} (f : Work → α → Work) (h : ∀ w a, Keeps w (f w a)) (l : List α) (w : Work) :
    Keeps w (l.foldl f w) := by
  induction l generalizing w with
  | nil => exact Keeps.refl w
  | cons a rest ih => exact (h w a).trans (ih _)

/-! ## Single updates -/

theorem on_keeps (w : Work) (f : State → State) (h : Machine.Keeps w.s (f w.s)) : Keeps w (w.on f) := h

theorem post_keeps (w : Work) (kind : NotifKind) (subject : Subject) (detail : List Val) :
    Keeps w (w.post kind subject detail) := Machine.post_keeps _ _ _ _

theorem concern_keeps (w : Work) (c : Nat) : Keeps w (w.concern c) := .refl w

theorem onCarrier_keeps (w : Work) (c : Nat) (f : Carrier → Carrier)
    (hf : ∀ r, w.s.carrier? c = some r → r.state = .idle → (f r).state = .idle) : Keeps w (w.onCarrier c f) :=
  Machine.onCarrier_keeps _ _ _ hf

/-- A change of a carrier record other than of its state. -/
theorem onCarrier_keeps_same (w : Work) (c : Nat) (f : Carrier → Carrier)
    (hf : ∀ r, (f r).state = r.state := by intro _; rfl) : Keeps w (w.onCarrier c f) :=
  w.onCarrier_keeps c f (fun r _ h => (hf r).trans h)

theorem onCarrier_keepsBut (w : Work) (c : Nat) (f : Carrier → Carrier) :
    KeepsBut (fun d => d = c) w (w.onCarrier c f) := Machine.onCarrier_keepsBut _ _ _

theorem onCrane_keeps (w : Work) (k : Nat) (f : Crane → Crane)
    (hf : ((w.s.crane k).state = .travelling → (w.s.crane k).claim = none) → (f (w.s.crane k)).state = .travelling →
      (f (w.s.crane k)).claim = none) : Keeps w (w.onCrane k f) := Machine.onCrane_keeps _ _ _ hf

theorem onSeg_keeps (w : Work) (i : Nat) (f : SegDyn → SegDyn) (hf : ∀ r : SegDyn, r.Reasoned → (f r).Reasoned) :
    Keeps w (w.onSeg i f) := by
  unfold onSeg setSeg
  simp only
  split
  · exact Keeps.refl w
  · exact putSeg_keeps _ _ _ (hf _)

theorem onSegs_keeps (w : Work) (ids : List Nat) (f : SegDyn → SegDyn)
    (hf : ∀ r : SegDyn, r.Reasoned → (f r).Reasoned) : Keeps w (w.onSegs ids f) :=
  foldl_keeps _ (fun w i => w.onSeg_keeps i f hf) ids w

/-- Segment records changed but for their locks. -/
theorem onSegs_lock_keeps (w : Work) (ids : List Nat) (f : SegDyn → SegDyn)
    (hf : ∀ r, (f r).lock = r.lock := by intro _; rfl) : Keeps w (w.onSegs ids f) :=
  w.onSegs_keeps ids f (fun r h => h.of_lock (hf r))

theorem hold_keeps (w : Work) (ids : List Nat) (p : Party) (k : HoldKind) :
    Keeps w (w.onSegs ids (SegDyn.hold_ p k)) := w.onSegs_lock_keeps ids _

theorem release_keeps (w : Work) (ids : List Nat) : Keeps w (w.release ids) :=
  w.onSegs_lock_keeps ids _

theorem mark_keeps (w : Work) (p : Party) (i : Nat) : Keeps w (w.mark p i) :=
  w.onSeg_keeps i _ (fun _ h => h.of_lock (by simp))

theorem clearMarks_keeps (w : Work) (p : Party) : Keeps w (w.clearMarks p) :=
  w.onSegs_lock_keeps _ _

theorem removeLock_keeps (w : Work) (k i : Nat) (rs : Reasons) : Keeps w (w.removeLock k i rs) :=
  w.onSeg_keeps i _ (fun _ h => h.removeLock k rs)

theorem removeLocks_keeps (w : Work) (k : Nat) (rs : Reasons) : Keeps w (w.removeLocks k rs) :=
  w.onSegs_keeps _ _ (fun _ h => h.removeLock k rs)

theorem alignClosures_keeps (w : Work) (ids : List Nat) : Keeps w (w.alignClosures ids) :=
  foldl_keeps _ (fun w i => w.onSeg_keeps i (SegDyn.alignClosures _ _ _) (fun _ h => h.of_lock rfl)) ids w

theorem craneSend_keeps (w : Work) (k : Nat) (f : State → CraneFrame) :
    Keeps w (w.on (fun s => s.craneSend k (f s))) := Machine.craneSend_keeps w.s k (f w.s)

/-! ## The Carrier Supervisor's changes of state (R36, R53, R69) -/

theorem dropStale_keeps (w : Work) (c : Nat) (cause : StaleCause) : Keeps w (w.dropStale c cause) := by
  unfold dropStale
  split
  · exact (dropEntry_keeps w.s c).trans (Machine.post_keeps _ _ _ _)
  · exact Keeps.refl w

/-- A carrier whose entry has been dropped as stale waits no more. -/
theorem not_mem_dropStale {w : Work} {c : Nat} {cause : StaleCause} {e : PendingEntry}
    (h : e ∈ (w.dropStale c cause).s.waiting) : e.carrier ≠ c := by
  unfold dropStale at h
  split at h
  · exact not_mem_dropEntry (s := w.s) h
  · next hno =>
    intro hc
    exact absurd hc (by simpa using List.find?_eq_none.1 hno e h)

theorem changeState_keepsBut (w : Work) (c : Nat) (new : CarrierState) (extra : List Val) :
    KeepsBut (fun d => d = c) w (w.changeState c new extra) := by
  unfold changeState
  split
  · exact .of_keeps (Keeps.refl w)
  · simp only
    split
    · exact (w.onCarrier_keepsBut c _).trans (.of_keeps ((post_keeps _ _ _ _).trans
        ((concern_keeps _ _).trans (dropStale_keeps _ _ _))))
    · exact (w.onCarrier_keepsBut c _).trans (.of_keeps ((post_keeps _ _ _ _).trans (concern_keeps _ _)))

/-- A change of state other than to AUTHORIZED leaves no entry of a carrier that was IDLE and is no longer (R36). -/
theorem changeState_keeps (w : Work) (c : Nat) (new : CarrierState) (extra : List Val) (hnew : new ≠ .authorized) :
    Keeps w (w.changeState c new extra) := by
  have h := w.changeState_keepsBut c new extra
  cases hr : w.s.carrier? c with
  | none =>
    unfold changeState
    rw [hr]
    exact Keeps.refl w
  | some r =>
    unfold changeState at h ⊢
    simp only [hr] at h ⊢
    by_cases hleft : (decide (r.state = .idle) && !(decide (new = .idle) || decide (new = .authorized))) = true
    · rw [if_pos hleft] at h ⊢
      exact Machine.KeepsBut.keeps h (fun e he => not_mem_dropStale he)
    · rw [if_neg hleft]
      refine KeepsBut.trans (w.onCarrier_keeps c _ fun x hx hidle => ?_) (post_keeps _ _ _ _)
      obtain rfl : r = x := Option.some.inj (hr.symm.trans hx)
      by_contra hne
      exact hleft (by simp [hidle, hne, hnew])

theorem enterEmergency_keeps (w : Work) (c : Nat) (cause : EmergencyCause) (lock : Option Reasons) :
    Keeps w (w.enterEmergency c cause lock) := by
  unfold enterEmergency
  split
  · exact Keeps.refl w
  · split
    · exact (w.onCarrier_keeps_same c _).trans (changeState_keeps _ c _ _ (fun h => nomatch h))
    · exact (w.onCarrier_keeps_same c _).trans (changeState_keeps _ c _ _ (fun h => nomatch h))
    · exact post_keeps _ _ _ _
    · exact (w.onCarrier_keeps_same c _).trans (post_keeps _ _ _ _)
    all_goals exact Keeps.refl w

theorem applyClass_keeps (w : Work) (c : Nat) : Keeps w (w.applyClass c) := w.onCarrier_keeps_same c _

/-! ## The Reservation Unit (R22, R25, R33, R34, R41 to R45) -/

theorem addLock_keeps (w : Work) (k i : Nat) {rs : Reasons} (hrs : rs ≠ Reasons.none_) :
    Keeps w (w.addLock k i rs) := by
  unfold addLock
  refine KeepsBut.trans ?_ (onSeg_keeps _ i _ (fun _ h => h.addLock k hrs))
  split
  · split
    · exact enterEmergency_keeps _ _ _ _
    · exact Keeps.refl w
  · exact Keeps.refl w

theorem settleStanding_keeps (w : Work) (c : Nat) (ids : List Nat) : Keeps w (w.settleStanding c ids) :=
  (w.hold_keeps ids _ _).trans (release_keeps _ _)

theorem routes_keeps (w : Work) (f : State → Table Route) : Keeps w (w.on (fun s => { s with routes := f s })) :=
  Machine.KeepsBut.of_eq rfl rfl rfl rfl rfl rfl rfl

theorem bumpVersion_keeps (w : Work) (c : Nat) : Keeps w (w.bumpVersion c) :=
  Machine.KeepsBut.of_eq rfl rfl rfl rfl rfl rfl rfl

theorem deleteRoute_keeps (w : Work) (c : Nat) : Keeps w (w.deleteRoute c) := by
  unfold deleteRoute
  split
  · exact Keeps.refl w
  · exact (w.routes_keeps (fun s => s.routes.del c)).trans (onCarrier_keeps_same _ c _)

theorem grant_keepsBut (w : Work) (c : Nat) (list : List Nat) (stop tag : Nat) (origin : DLink) :
    KeepsBut (fun d => d = c) w (w.grant c list stop tag origin) := by
  unfold grant
  split
  · exact .of_keeps (Keeps.refl w)
  · exact KeepsBut.trans (.of_keeps ((w.hold_keeps _ _ _).trans
      ((routes_keeps _ (fun s => s.routes.put c _)).trans (bumpVersion_keeps _ c)))) (changeState_keepsBut _ c _ _)

/-- A grant whose carrier waits no more (R25, R34). -/
theorem grant_keeps (w : Work) (c : Nat) (list : List Nat) (stop tag : Nat) (origin : DLink) :
    Machine.Keeps w.s ((w.grant c list stop tag origin).s.dropEntry c) :=
  (Machine.KeepsBut.trans (w.grant_keepsBut c list stop tag origin)
    (.of_keeps (dropEntry_keeps _ c))).keeps (fun _ he => not_mem_dropEntry he)

theorem tryEntry_keeps (w : Work) (e : PendingEntry) : Keeps w (w.tryEntry e) := by
  unfold tryEntry
  split
  · exact blockEntry_keeps _ _ _
  · split
    · exact blockEntry_keeps _ _ _
    · exact (w.grant_keeps _ _ _ _ _).trans (Machine.post_keeps _ _ _ _)

theorem reexamine_keeps (w : Work) : Keeps w w.reexamine := foldl_keeps _ tryEntry_keeps _ _

theorem haltTake_keeps (w : Work) (k : Nat) (cells : List Nat) : Keeps w (w.haltTake k cells) :=
  (w.onSegs_lock_keeps cells _ (fun r => r.haltTake_lock k)).trans
    ((foldl_keeps _ (fun w c => w.enterEmergency_keeps c _ _) _ _).trans
      (foldl_keeps _ (fun w _ => w.post_keeps _ _ _) _ _))

/-! ## The Authority Calculator (R76 to R90) and the end of a request -/

theorem testSpeed_keeps (w : Work) (c : Nat) : Keeps w (w.testSpeed c) := by
  have h := w.onCarrier_keeps_same c (fun r => { r with auth := r.auth.promote w.s.now })
  unfold testSpeed
  simp only
  split
  · exact h
  · split
    · exact h.trans ((onCarrier_keeps_same _ c _).trans
        ((post_keeps _ _ _ _).trans (enterEmergency_keeps _ _ _ _)))
    · exact h

theorem cutBack_keeps (w : Work) (c : Nat) (r : Carrier) (e : EndPoint) : Keeps w (w.cutBack c r e) := by
  unfold cutBack
  split
  · split
    · exact bumpVersion_keeps _ _
    · exact Keeps.refl w
  · exact Keeps.refl w

theorem authorityRun_keeps (w : Work) (c : Nat) (leaving : Bool) : Keeps w (w.authorityRun c leaving) := by
  have h : Keeps w (if w.report = some c then w.testSpeed c else w) := by
    split
    · exact testSpeed_keeps _ _
    · exact Keeps.refl w
  unfold authorityRun
  simp only
  split
  · exact h
  · exact h.trans ((cutBack_keeps _ _ _ _).trans
      (KeepsBut.trans (on_keeps _ _ (routeAuthority_keeps _ _ _)) (onCarrier_keeps_same _ c _)))

theorem finish_keeps (w : Work) : Machine.Keeps w.s w.finish := by
  have h : Keeps w (if w.reexam then w.reexamine else w) := by
    split
    · exact reexamine_keeps w
    · exact Keeps.refl w
  unfold finish
  exact h.trans ((on_keeps _ _ (pictureChange_keeps _ _)).trans
    (foldl_keeps _ (fun w c => w.authorityRun_keeps c false) _ _))

end Work

theorem request_keeps (s : State) (body : Work → Work)
    (h : Work.Keeps (Work.start s none) (body (Work.start s none))) : Keeps s (s.request body) :=
  KeepsBut.trans h (Work.finish_keeps _)

theorem reportRequest_keeps (s : State) (c : Nat) (body : Work → Work)
    (h : Work.Keeps (Work.start s (some c)) (body (Work.start s (some c)))) : Keeps s (s.reportRequest c body) :=
  KeepsBut.trans h (Work.finish_keeps _)

end Sys2Proof.Machine
end

section
/-! What the bodies of the commands keep of the queues, the locks, the claims and the pending route list: routes,
carriers, reports, claims and cranes (R24 to R36, R44, R45, R58 to R72, R98 to R114). -/

namespace Sys2Proof.Machine.Work

/-! ## Routes and carriers -/

theorem grantDirect_keeps (w : Work) (c : Nat) (list : List Nat) (stop tag : Nat) (o : DLink) :
    Keeps w (w.grantDirect c list stop tag o) := by
  unfold grantDirect
  simp only
  split
  · exact (w.grant_keeps c list stop tag o).trans (Machine.post_keeps _ _ _ _)
  · next hno =>
    refine Machine.KeepsBut.keeps (w.grant_keepsBut c list stop tag o) (fun e he hc => ?_)
    exact absurd hc (by simpa using List.find?_eq_none.1 hno e he)

theorem putRoute_keeps (w : Work) (c : Nat) (r : Route) : Keeps w (w.putRoute c r) :=
  (w.routes_keeps (fun s => s.routes.put c r)).trans (concern_keeps _ _)

theorem clearTo_keeps (w : Work) (c : Nat) (new : CarrierState) (hnew : new ≠ .authorized) :
    Keeps w (w.clearTo c new) :=
  (w.deleteRoute_keeps c).trans ((clearMarks_keeps _ _).trans
    ((onCarrier_keeps_same _ c _).trans (changeState_keeps _ _ _ _ hnew)))

theorem goMissing_keeps (w : Work) (c : Nat) (r : Carrier) (hr : w.s.carrier? c = some r) :
    Keeps w (w.goMissing c r) := by
  unfold goMissing
  simp only
  split
  · have h : KeepsBut (fun d => d = c) w (((w.onCarrier c (fun r => { r with
        state := .missing, prior := some r.state, timer := some r.applied.grace })).post .carrierMissing (.carrier c)
          [.byte r.state.code, timeVal? r.lastTime]).concern c) :=
      (w.onCarrier_keepsBut c _).trans (.of_keeps ((post_keeps _ _ _ _).trans (concern_keeps _ _)))
    exact Machine.KeepsBut.keeps (h.trans (.of_keeps (dropStale_keeps _ c .leftIdle)))
      (fun e he => not_mem_dropStale he)
  · next hbusy =>
    refine KeepsBut.trans (w.onCarrier_keeps c _ fun x hx hidle => ?_) ((post_keeps _ _ _ _).trans (concern_keeps _ _))
    obtain rfl : r = x := Option.some.inj (hr.symm.trans hx)
    exact absurd hidle hbusy

theorem goLost_keeps (w : Work) (c : Nat) (r : Carrier) : Keeps w (w.goLost c r) := by
  have h : KeepsBut (fun d => d = c) w (((w.onCarrier c (fun r => { r with
      state := .lost, prior := none, cause := none, timer := none, lostSince := some w.s.now, sighting := none })).onSegs
        (w.s.heldBy (.carrier c)) SegDyn.freeze).dropStale c .leftIdle) :=
    (w.onCarrier_keepsBut c _).trans (.of_keeps ((onSegs_lock_keeps _ _ _ (fun r => r.freeze_lock)).trans
      (dropStale_keeps _ _ _)))
  exact (show Keeps w _ from Machine.KeepsBut.keeps h (fun e he => not_mem_dropStale he)).trans
    ((post_keeps _ _ _ _).trans (concern_keeps _ _))

/-- A carrier that goes from IDLE loses its entry; one that was not IDLE had none to keep (R48). -/
theorem renewed_keeps (w : Work) (c : Nat) (v : ClassVals)
    (h : ∀ r, w.s.carrier? c = some r → r.state ≠ .idle) : Keeps w (w.onCarrier c (Carrier.renewed v)) :=
  w.onCarrier_keeps c _ (fun r hr hidle => absurd hidle (h r hr))

/-- The state of a carrier after a change of state. -/
theorem carrier?_changeState (w : Work) (c : Nat) (new : CarrierState) (extra : List Val) (d : Nat) :
    (w.changeState c new extra).s.carrier? d = if d = c then (w.s.carrier? d).map (fun r => { r with
      state := new, timer := if new.timerStops then none else r.timer }) else w.s.carrier? d := by
  unfold changeState
  cases hr : w.s.carrier? c with
  | none =>
    by_cases hd : d = c
    · subst hd; simp [hr]
    · simp [hd]
  | some r =>
    have hstale : ∀ (v : Work) (cause : StaleCause), (v.dropStale c cause).s.carrier? d = v.s.carrier? d := by
      intro v cause
      unfold dropStale
      split <;> rfl
    simp only
    split
    · rw [hstale]
      exact State.carrier?_onCarrier c d _
    · exact State.carrier?_onCarrier c d _

theorem state_changeState {w : Work} {c : Nat} {new : CarrierState} {extra : List Val} {r : Carrier}
    (h : (w.changeState c new extra).s.carrier? c = some r) : r.state = new := by
  rw [carrier?_changeState, if_pos rfl] at h
  obtain ⟨x, -, rfl⟩ := Option.map_eq_some_iff.1 h
  rfl

theorem renewCarrier_keeps (w : Work) (c : Nat) : Keeps w (w.renewCarrier c) := by
  unfold renewCarrier
  split
  · exact Keeps.refl w
  · next r hr =>
    simp only
    split
    · next hoff =>
      refine renewed_keeps w c _ (fun x hx => ?_)
      obtain rfl : r = x := Option.some.inj (hr.symm.trans hx)
      rw [hoff]
      exact fun h => nomatch h
    · refine (w.changeState_keeps c .offline [] (fun h => nomatch h)).trans (renewed_keeps _ c _ (fun x hx => ?_))
      rw [state_changeState hx]
      exact fun h => nomatch h

theorem renewCarriers_keeps (w : Work) : Keeps w w.renewCarriers := foldl_keeps _ renewCarrier_keeps _ _

/-! ## Reports -/

theorem acceptReport_keeps (w : Work) (c radio : Nat) (p : Report) (t : Bool) (h : (w.s.radio radio).state = .up) :
    Keeps w (w.acceptReport c radio p t) := by
  refine KeepsBut.trans (w.applyClass_keeps c) ((onCarrier_keeps_same _ c _).trans
    (KeepsBut.trans (on_keeps _ _ (learn_keeps _ _ _ ?_)) (concern_keeps _ _)))
  exact (congrArg RadioLink.state (State.radio_onCarrier _ _ _ _)).trans
    ((congrArg RadioLink.state (State.radio_onCarrier _ _ _ _)).trans h)

/-- An accepted report leaves the states of the carriers. -/
theorem state_acceptReport {w : Work} {c radio : Nat} {p : Report} {t : Bool} {x : Carrier}
    (hx : (w.acceptReport c radio p t).s.carrier? c = some x) :
    ∃ r, w.s.carrier? c = some r ∧ x.state = r.state := by
  have h : (w.acceptReport c radio p t).s.carrier? c = ((w.applyClass c).onCarrier c _).s.carrier? c := rfl
  rw [h] at hx
  erw [State.carrier?_onCarrier, if_pos rfl, State.carrier?_onCarrier, if_pos rfl] at hx
  rw [Option.map_map] at hx
  obtain ⟨r, hr, rfl⟩ := Option.map_eq_some_iff.1 hx
  exact ⟨r, hr, rfl⟩

theorem intrude_keeps (w : Work) (c i : Nat) : Keeps w (w.intrude c i) := by
  unfold intrude
  simp only
  split
  · exact (mark_keeps _ _ _).trans (post_keeps _ _ _ _)
  · exact mark_keeps _ _ _

theorem markDeviation_keeps (w : Work) (c : Nat) (p : Report) : Keeps w (w.markDeviation c p) :=
  foldl_keeps _ (fun w i => w.intrude_keeps c i) _ _

theorem checkFront_keeps (w : Work) (c : Nat) (p : Report) : Keeps w (w.checkFront c p) := by
  unfold checkFront
  split
  · split
    · exact Keeps.refl w
    · exact dropStale_keeps _ _ _
  · exact Keeps.refl w

theorem idleReport_keeps (w : Work) (c : Nat) (p : Report) : Keeps w (w.idleReport c p) := by
  unfold idleReport
  simp only
  have h : Keeps w (match w.s.idleCause c p with
      | some cause => w.enterEmergency c cause none
      | none => w.checkFront c p) := by
    split
    · exact enterEmergency_keeps _ _ _ _
    · exact checkFront_keeps _ _ _
  refine KeepsBut.trans ?_ (foldl_keeps _ (fun w k => w.craneSend_keeps k _) _ _)
  split
  · exact h.trans (markDeviation_keeps _ _ _)
  · exact h

theorem gateExit_keeps (w : Work) (c : Nat) : Keeps w (w.gateExit c) :=
  (release_keeps _ _).trans ((deleteRoute_keeps _ _).trans (changeState_keeps _ _ _ _ (fun h => nomatch h)))

theorem releaseBehind_keeps (w : Work) (c : Nat) (route : Route) (i j : Nat) :
    Keeps w (w.releaseBehind c route i j) :=
  (w.routes_keeps (fun s => s.routes.put c { route with front := i, rear := j })).trans (release_keeps _ _)

theorem advance_keeps (w : Work) (c : Nat) (route : Route) (i j : Nat) (p : Report) :
    Keeps w (w.advance c route i j p) := by
  unfold advance
  simp only
  split
  · exact (releaseBehind_keeps _ _ _ _ _).trans ((settleStanding_keeps _ _ _).trans
      ((deleteRoute_keeps _ _).trans (changeState_keeps _ _ _ _ (fun h => nomatch h))))
  · exact releaseBehind_keeps _ _ _ _ _

theorem authorizedReport_keeps (w : Work) (c : Nat) (prev : Option Nat) (p : Report) :
    Keeps w (w.authorizedReport c prev p) := by
  unfold authorizedReport
  split
  · exact Keeps.refl w
  · simp only
    split
    · split
      · exact (enterEmergency_keeps _ _ _ _).trans (markDeviation_keeps _ _ _)
      · exact enterEmergency_keeps _ _ _ _
    · split
      · exact gateExit_keeps _ _
      · split
        · exact (enterEmergency_keeps _ _ _ _).trans (markDeviation_keeps _ _ _)
        · exact advance_keeps _ _ _ _ _ _

theorem emergencyReport_keeps (w : Work) (c : Nat) (p : Report) : Keeps w (w.emergencyReport c p) := by
  unfold emergencyReport
  split
  · exact markDeviation_keeps _ _ _
  · exact Keeps.refl w

theorem handleReport_keeps (w : Work) (c : Nat) (prev : Option Nat) (p : Report) :
    Keeps w (w.handleReport c prev p) := by
  unfold handleReport
  split
  · exact Keeps.refl w
  · split
    · exact idleReport_keeps _ _ _
    · exact authorizedReport_keeps _ _ _ _
    · exact emergencyReport_keeps _ _ _
    all_goals exact Keeps.refl w

theorem blockEntry_keeps (w : Work) (c : Nat) (b : EntryBlock) : Keeps w (w.blockEntry c b) := by
  unfold Work.blockEntry
  simp only
  split
  · exact Keeps.refl w
  · exact (w.onCarrier_keeps_same c _).trans (post_keeps _ _ _ _)

theorem makeEntry_keeps (w : Work) (c : Nat) (p : Report) : Keeps w (w.makeEntry c p) :=
  KeepsBut.trans (w.hold_keeps p.ground (.carrier c) .standing) ((changeState_keeps _ c .idle [] (fun h => nomatch h)).trans
    ((applyClass_keeps _ c).trans (onCarrier_keeps_same _ c _)))

theorem entryReport_keeps (w : Work) (c : Nat) (state : CarrierState) (p : Report) :
    Keeps w (w.entryReport c state p) := by
  unfold entryReport
  split
  · split
    · exact changeState_keeps _ _ _ _ (fun h => nomatch h)
    · exact Keeps.refl w
  · split
    · exact blockEntry_keeps _ _ _
    · exact makeEntry_keeps _ _ _

/-- The return of a MISSING carrier (R67), which has no entry. -/
theorem restore_keeps (w : Work) (c : Nat) (r : Carrier) (h : ∀ x, w.s.carrier? c = some x → x.state ≠ .idle) :
    Keeps w (w.restore c r) :=
  KeepsBut.trans (w.onCarrier_keeps c _ (fun x hx hidle => absurd hidle (h x hx))) (post_keeps _ _ _ _)

theorem heard_keeps (w : Work) (c radio : Nat) (f : Carrier → Carrier) (h : (w.s.radio radio).state = .up)
    (hf : ∀ r, (f r).state = r.state := by intro _; rfl) :
    Keeps w (((w.onCarrier c f).on (fun s => s.learn c radio)).concern c) := by
  refine KeepsBut.trans (w.onCarrier_keeps_same c f hf) (KeepsBut.trans (on_keeps _ _ (learn_keeps _ _ _ ?_))
    (concern_keeps _ _))
  exact (congrArg RadioLink.state (State.radio_onCarrier _ _ _ _)).trans h

theorem addressing_keeps (w : Work) (c radio : Nat) (p : Report) (h : (w.s.radio radio).state = .up) :
    Keeps w (w.addressing c radio p) := w.heard_keeps c radio _ h

theorem sight_keeps (w : Work) (c radio : Nat) (p : Report) (h : (w.s.radio radio).state = .up) :
    Keeps w (w.sight c radio p) := w.heard_keeps c radio _ h

/-! ## Claims and hoists -/

/-- A change of a crane record other than of its state and its claim. -/
theorem onCrane_keeps_same (w : Work) (k : Nat) (f : Crane → Crane)
    (hf : ∀ c, (f c).state = c.state ∧ (f c).claim = c.claim := by exact fun _ => ⟨rfl, rfl⟩) :
    Keeps w (w.onCrane k f) :=
  w.onCrane_keeps k f (by rw [(hf _).1, (hf _).2]; exact id)

/-- A change of a crane record to a state other than TRAVELLING, or to one without a claim. -/
theorem onCrane_keeps_safe (w : Work) (k : Nat) (f : Crane → Crane)
    (hf : ∀ c, (f c).state = .travelling → (f c).claim = none := by exact fun _ h => nomatch h) :
    Keeps w (w.onCrane k f) :=
  w.onCrane_keeps k f (fun _ => hf _)

theorem endClaim_keeps (w : Work) (k i : Nat) : Keeps w (w.endClaim k i) :=
  (w.removeLock_keeps k i Reasons.ofClaim : Keeps w (w.removeLock k i Reasons.ofClaim))

theorem lapse_keeps (w : Work) (k : Nat) (claim : Claim) (cause : LapseCause) : Keeps w (w.lapse k claim cause) := by
  have h : ∀ v : Work, Keeps v (((v.onCrane k Crane.dropClaim).on (fun s => s.lowerRevoked k claim.slot)).post
      .claimLapsed (.crane k) [.byte claim.slot, .half (w.s.claimCell k claim), .byte cause.code]) := fun v =>
    (v.onCrane_keeps_safe k _ (fun _ _ => rfl)).trans ((craneSend_keeps _ k _).trans (post_keeps _ _ _ _))
  unfold lapse
  simp only
  split
  · exact (endClaim_keeps _ _ _).trans (h _)
  · exact (removeLock_keeps _ _ _ _).trans (h _)

theorem hoistViolation_keeps (w : Work) (k t : Nat) : Keeps w (w.hoistViolation k t) := by
  have h : ∀ (v : Work) (e : Option Nat) (d : List Val), Keeps v (((match e with
      | some b => v.enterEmergency b .hoistViolation none
      | none => v).on (fun s => s.hoistStop k)).post .hoistViolation (.crane k) d) := by
    intro v e d
    refine KeepsBut.trans ?_ ((craneSend_keeps _ k _).trans (post_keeps _ _ _ _))
    split
    · exact enterEmergency_keeps _ _ _ _
    · exact Keeps.refl v
  have hall := fun e d => (w.addLock_keeps k (w.s.slotCell k t (w.s.crane k).at) (rs := Reasons.ofViolation)
    (by decide)).trans (h _ e d)
  unfold hoistViolation
  simp only
  split
  · split
    · exact (hall _ _).trans ((removeLock_keeps _ _ _ _).trans (onCrane_keeps_safe _ k _ (fun _ _ => rfl)))
    · exact hall _ _
  · exact hall _ _

/-! ## Cranes -/

theorem clearOf_keeps (w : Work) (k : Nat) (rs : Reasons) : Keeps w (w.clearOf k rs) :=
  ((w.removeLocks_keeps k rs).trans (clearMarks_keeps _ (.crane k)) :
    Keeps w ((w.removeLocks k rs).clearMarks (.crane k)))

theorem clearHalted_keeps (w : Work) (k : Nat) : Keeps w (w.clearHalted k) := by
  have h := ((w.hold_keeps (w.s.legCells k (w.s.crane k).at) (.crane k) .leg).trans ((release_keeps _
    (w.s.holdsBeyond k (w.s.legCells k (w.s.crane k).at))).trans ((clearOf_keeps _ k Reasons.ofViolation).trans
      (onCrane_keeps_safe _ k (fun c => { c with target := none, state := .standing })))))
  unfold clearHalted
  simp only
  split
  · exact h.trans (post_keeps _ _ _ _)
  · exact h

theorem clearLost_keeps (w : Work) (k : Nat) : Keeps w (w.clearLost k) := by
  unfold clearLost
  simp only
  refine KeepsBut.trans ?_ ((clearOf_keeps _ k Reasons.all).trans (onCrane_keeps_safe _ k _))
  split
  · exact (release_keeps w _).trans (lapse_keeps _ _ _ _)
  · exact release_keeps w _

theorem placeCrane_keeps (w : Work) (k b : Nat) : Keeps w (w.placeCrane k b) := by
  have h : ∀ (v : Work) (free : Bool) (legs : List Nat),
      Keeps v (if free then v.takeLegs k legs else v.haltTake k legs) := by
    intro v free legs
    cases free
    · exact haltTake_keeps _ _ _
    · exact hold_keeps _ _ _ _
  refine KeepsBut.trans (onCrane_keeps_same w k _) ((h _ _ _).trans
    ((onCrane_keeps_safe _ k _ (fun c hc => ?_)).trans (post_keeps _ _ _ _)))
  exact absurd hc (by simp only; split <;> exact fun h => nomatch h)

theorem returnCells_keeps (w : Work) (k : Nat) (legs : List Nat) : Keeps w (w.returnCells k legs) :=
  (release_keeps _ _).trans (onSegs_lock_keeps _ _ _ (fun r => r.returnLeg_lock k))

theorem restoreTravel_keeps (w : Work) (k b : Nat) : Keeps w (w.restoreTravel k b) := by
  have h := (w.returnCells_keeps k (w.s.legCells k b)).trans
    (onCrane_keeps_same _ k (fun c => { c with bay := some b, target := none }))
  unfold restoreTravel
  simp only
  split
  · exact h.trans (onCrane_keeps_safe _ k _)
  · exact h.trans ((onCrane_keeps_safe _ k _).trans ((haltTake_keeps _ _ _).trans
      (craneSend_keeps _ k _)))

theorem restoreStanding_keeps (w : Work) (k : Nat) : Keeps w (w.restoreStanding k) := by
  unfold restoreStanding
  simp only
  split
  · exact (onCrane_keeps_safe _ k _).trans (lapse_keeps _ _ _ _)
  · exact onCrane_keeps_safe _ k _

theorem restoreCrane_keeps (w : Work) (k b : Nat) : Keeps w (w.restoreCrane k b) := by
  unfold restoreCrane
  simp only
  refine KeepsBut.trans ?_ ((onCrane_keeps_same _ k _).trans (post_keeps _ _ _ _))
  split
  · exact restoreTravel_keeps _ _ _
  · exact onCrane_keeps_safe _ k _
  · exact restoreStanding_keeps _ _

theorem travel_keeps (w : Work) (k b g' : Nat) (stopped : Bool) : Keeps w (w.travel k b g' stopped) := by
  have h : Keeps w (if b = (w.s.crane k).at then w
      else ((w.settleAt k (w.s.legCells k b)).releaseLegs k
        (w.s.legsOver k ((baysFrom (w.s.crane k).at b).filter (fun x => decide (x ≠ b))))).onCrane k
        (fun c => { c with bay := some b })) := by
    split
    · exact Keeps.refl w
    · exact (w.onSegs_lock_keeps _ _ (fun r => by split <;> rfl)).trans
        ((onSegs_lock_keeps _ _ _ (fun r => by split <;> rfl)).trans (onCrane_keeps_same _ k _))
  unfold travel
  simp only
  split
  · exact h.trans ((onCrane_keeps_safe _ k _).trans (post_keeps _ _ _ _))
  · exact h

theorem gantryViolation_keeps (w : Work) (k b : Nat) : Keeps w (w.gantryViolation k b) := by
  have h : ∀ (v : Work) (e : Option Claim), Keeps v (match e with
      | some claim => (v.addLock k (v.s.claimCell k claim) Reasons.ofViolation).lapse k claim .gantry
      | none => v) := by
    intro v e
    cases e
    · exact Keeps.refl v
    · exact (addLock_keeps _ _ _ (by decide)).trans (lapse_keeps _ _ _ _)
  exact (w.craneSend_keeps k (fun s => .gantryStop (s.crane k).lastSeq)).trans ((haltTake_keeps _ _ _).trans
    ((h _ _).trans ((onCrane_keeps_safe _ k _).trans (post_keeps _ _ _ _))))

theorem judgeBay_keeps (w : Work) (k b : Nat) (stopped : Bool) : Keeps w (w.judgeBay k b stopped) := by
  unfold judgeBay
  simp only
  split
  · split
    · exact travel_keeps _ _ _ _ _
    · exact gantryViolation_keeps _ _ _
  · split
    · exact Keeps.refl w
    · exact gantryViolation_keeps _ _ _
  · split
    · exact Keeps.refl w
    · exact gantryViolation_keeps _ _ _
  · exact Keeps.refl w

theorem implausible_keeps (w : Work) (k : Nat) (cause : FaultCause) : Keeps w (w.implausible k cause) := by
  have h := fun (l : List Nat) (at_ : Nat) => (w.onCrane_keeps_same k (fun c => { c with
      implausible := bump16 c.implausible, candidate := none, count := 0, faultRun := 0, episode := true })).trans
    (foldl_keeps (fun (w : Work) t => w.addLock k (w.s.slotCell k t at_) Reasons.ofFault)
      (fun w t => w.addLock_keeps k _ (by decide)) l _)
  unfold implausible
  simp only
  split
  · exact h _ _
  · exact (h _ _).trans (post_keeps _ _ _ _)

theorem faultRun_keeps (w : Work) (k n : Nat) (cls : HoistClass) : Keeps w (w.faultRun k n cls) := by
  unfold faultRun
  simp only
  split
  · exact Keeps.refl w
  · split
    · exact onCrane_keeps_same _ k _
    · split
      · exact (removeLocks_keeps _ _ _).trans ((onCrane_keeps_same _ k _).trans (post_keeps _ _ _ _))
      · exact onCrane_keeps_same _ k _

theorem notifyCrossing_keeps (w : Work) (k : Nat) (x : Crossing) : Keeps w (w.notifyCrossing k x) := by
  unfold notifyCrossing
  split
  · exact post_keeps _ _ _ _
  · exact Keeps.refl w

/-- A claim that passes to another phase was there before. -/
theorem mapClaim_keeps (w : Work) (k : Nat) (f : Claim → Claim) :
    Keeps w (w.onCrane k (fun c => { c with claim := c.claim.map f })) :=
  w.onCrane_keeps k _ (fun h hs => by simp [h hs])

theorem cross_keeps (w : Work) (k : Nat) (x : Crossing) : Keeps w (w.cross k x) := by
  unfold cross
  split
  · unfold crossDown
    split
    · exact mapClaim_keeps _ _ _
    · exact hoistViolation_keeps _ _ _
  · unfold crossUp
    split
    · split
      · exact mapClaim_keeps _ _ _
      · exact Keeps.refl w
    · exact Keeps.refl w

theorem filteredChange_keeps (w : Work) (k : Nat) (old new : HoistClass) : Keeps w (w.filteredChange k old new) := by
  have h := (foldl_keeps _ (fun w x => w.notifyCrossing_keeps k x) (crossingsOf old new) w).trans
    (foldl_keeps _ (fun w x => w.cross_keeps k x) (crossingsOf old new) _)
  unfold filteredChange
  simp only
  split
  · exact Keeps.refl w
  · split
    · exact h.trans (removeLocks_keeps _ _ _)
    · exact h

theorem judgeHoist_keeps (w : Work) (k : Nat) (position : Bool) : Keeps w (w.judgeHoist k position) := by
  unfold judgeHoist
  simp only
  split
  · exact implausible_keeps _ _ _
  · exact (onCrane_keeps_same _ k _).trans ((faultRun_keeps _ _ _ _).trans (filteredChange_keeps _ _ _ _))

theorem craneReport_keeps (w : Work) (k b : Nat) (stopped : Bool) : Keeps w (w.craneReport k b stopped) := by
  unfold craneReport
  simp only
  split
  · split
    · exact (placeCrane_keeps _ _ _).trans (judgeHoist_keeps _ _ _)
    · exact (restoreCrane_keeps _ _ _).trans ((judgeBay_keeps _ _ _ _).trans (judgeHoist_keeps _ _ _))
    · exact (judgeBay_keeps _ _ _ _).trans (judgeHoist_keeps _ _ _)
  · split
    · exact onCrane_keeps_same _ k _
    · exact (craneSend_keeps _ k _).trans (judgeHoist_keeps _ _ _)

theorem loseCrane_keeps (w : Work) (k : Nat) : Keeps w (w.loseCrane k) := by
  have h : ∀ (v : Work) (p : Prop) [Decidable p] (ids : List Nat),
      Keeps v (if p then v.onSegs ids SegDyn.freeze else v) := by
    intro v p _ ids
    split
    · exact onSegs_lock_keeps _ _ _ (fun r => r.freeze_lock)
    · exact Keeps.refl v
  exact (w.onCrane_keeps_safe k _).trans
    ((foldl_keeps _ (fun w i => w.addLock_keeps k i (by decide)) _ _).trans ((h _ _ _).trans (post_keeps _ _ _ _)))

end Sys2Proof.Machine.Work
end

section
/-! The invariant (O60): what keeps it, requests on dispatch links and their owners (R147). -/

namespace Sys2Proof.Machine

/-! ## The parts of the invariant -/

/-- The queues, the locks, the claims and the pending route list as the invariant has them. -/
structure State.Tidy (s : State) : Prop where
  queues : ∀ r, (s.radio r).Coalesced
  commands : ∀ k, (s.craneLink k).Distinct
  learned : ∀ x ∈ s.learning.rows, (s.radio x.2.link).state = .up
  once : s.waiting.Pairwise (fun e f => e.carrier ≠ f.carrier)
  idle : ∀ e ∈ s.waiting, s.carrierIs e.carrier .idle = true
  locks : ∀ i, (s.seg i).Reasoned
  claims : ∀ k, (s.crane k).state = .travelling → (s.crane k).claim = none

theorem State.inv_iff (s : State) : s.Inv ↔ s.Bounded ∧ s.Tidy := by
  constructor
  · intro h
    exact ⟨h.toBounded, h.queues, fun k => (CraneLink.distinct_iff _).2 (h.commands k), h.learned, h.once,
      fun e he => (s.carrierIs_iff _ _).2 (h.idle e he), h.locks, h.claims⟩
  · rintro ⟨hb, h⟩
    exact { hb with
      queues := h.queues, commands := fun k => (CraneLink.distinct_iff _).1 (h.commands k), learned := h.learned
      once := h.once, idle := fun e he => (s.carrierIs_iff _ _).1 (h.idle e he), locks := h.locks, claims := h.claims }

theorem State.Inv.tidy {s : State} (h : s.Inv) : s.Tidy := (s.inv_iff.1 h).2

theorem State.Bounded.inv {s : State} (h : s.Bounded) (ht : s.Tidy) : s.Inv := s.inv_iff.2 ⟨h, ht⟩

/-- The carrier of an entry is IDLE, so a carrier in another state has none. -/
theorem State.Tidy.ne_of_not_idle {s : State} (h : s.Tidy) {c : Nat} {r : Carrier} (hr : s.carrier? c = some r)
    (hs : r.state ≠ .idle) : ∀ e ∈ s.waiting, e.carrier ≠ c := by
  rintro e he rfl
  obtain ⟨x, hx, hidle⟩ := (s.carrierIs_iff _ _).1 (h.idle e he)
  exact hs (Option.some.inj (hr.symm.trans hx) ▸ hidle)

theorem KeepsBut.tidy {s t : State} (h : Keeps s t) (hs : s.Tidy) : t.Tidy where
  queues r := h.queues r (hs.queues r)
  commands k := h.commands k (hs.commands k)
  learned x hx := by
    rw [h.state]
    exact (h.learned x hx).elim (hs.learned x) id
  once := h.once hs.once
  idle e he := by
    obtain ⟨⟨d, hd, hde⟩, hidle⟩ := h.idle e he
    exact (hidle (hde ▸ hs.idle d hd)).elim id False.elim
  locks i := h.locks i (hs.locks i)
  claims k := h.claims k (hs.claims k)

/-! ## Changes that keep the invariant -/

/-- A change that keeps the invariant, and that neither answers nor takes an answer on a dispatch link. -/
structure Steady (s t : State) : Prop where
  calm : Calm s t
  keeps : Keeps s t
  replies : ∀ m, (t.dlink m).replies = (s.dlink m).replies

namespace Steady

theorem refl (s : State) : Steady s s := ⟨.refl s, .refl s, fun _ => rfl⟩

theorem trans {s t u : State} (h : Steady s t) (g : Steady t u) : Steady s u :=
  ⟨h.calm.trans g.calm, h.keeps.trans g.keeps, fun m => (g.replies m).trans (h.replies m)⟩

theorem of_within {s t : State} (h : Within s t) (k : Keeps s t) : Steady s t := ⟨h.calm, k, h.replies⟩

theorem inv {s t : State} (h : Steady s t) (hs : s.Inv) : t.Inv :=
  (h.calm.bounded hs.toBounded).inv (h.keeps.tidy hs.tidy)

end Steady

theorem request_steady (s : State) (body : Work → Work) (hw : ∀ w, Work.Within w (body w))
    (hk : Work.Keeps (Work.start s none) (body (Work.start s none))) : Steady s (s.request body) :=
  .of_within (request_within s body hw) (request_keeps s body hk)

theorem post_steady (s : State) (kind : NotifKind) (subject : Subject) (detail : List Val) :
    Steady s (s.post kind subject detail) := .of_within (post_within _ _ _ _) (post_keeps _ _ _ _)

/-- A change of the configuration that leaves the grid, the cranes and the radio links as they are. -/
theorem cfg_steady (s : State) (cfg : Settings) (hgrid : cfg.grid = s.cfg.grid) (hcranes : cfg.cranes = s.cfg.cranes)
    (hradios : cfg.radios = s.cfg.radios) : Steady s { s with cfg := cfg } := by
  refine ⟨{ Calm.refl s with berth := fun _ hv => ?_, configured := fun r _ => ?_ },
    .of_eq rfl rfl rfl rfl rfl rfl rfl, fun _ => rfl⟩
  · rw [Settings.validate_eq] at hv ⊢
    simp only [Settings.presentCranes, Settings.legs, hgrid, hcranes] at hv ⊢
    exact hv
  · simp only [State.radioCfg, hradios]

/-! ## Requests on a dispatch link (R147) -/

/-- The request of an owner keeps the invariant, and leaves the replies and the states of the dispatch links. -/
def OwnerSound (o : Owner) : Prop :=
  ∀ t : State, t.Inv → (o t).1.Inv ∧ (∀ m, ((o t).1.dlink m).replies = (t.dlink m).replies) ∧
    ∀ m, ((o t).1.dlink m).up = (t.dlink m).up

theorem OwnerSound.of_steady {o : Owner} (h : ∀ t : State, t.Inv → Steady t (o t).1) : OwnerSound o :=
  fun t ht => ⟨(h t ht).inv ht, (h t ht).replies, (h t ht).calm.up⟩

theorem OwnerSound.of_same {o : Owner} (h : ∀ t : State, (o t).1 = t) : OwnerSound o :=
  .of_steady (fun t _ => by rw [h]; exact .refl t)

theorem setDlc_keeps (s : State) (b : Bool) : Keeps s (s.setDlc b) :=
  KeepsBut.trans (t := { s with dlcClosed := b }) (.of_eq rfl rfl rfl rfl rfl rfl rfl)
    (request_keeps _ _ (Work.alignClosures_keeps _ _))

theorem linkReport_keeps (s : State) : Keeps s s.linkReport := by
  unfold State.linkReport
  split
  · exact .refl s
  · exact KeepsBut.trans (t := { s with rlcClosed := s.radioLoss }) (.of_eq rfl rfl rfl rfl rfl rfl rfl)
      (request_keeps _ _ (Work.alignClosures_keeps _ _))

theorem dispatchArrival_keeps (s : State) (l : DLink) : Keeps s (s.dispatchArrival l) := by
  have h : Keeps s (s.arrived l) := onDlink_keeps s l _
  by_cases hup : (s.dlink l).up = true ∨ (s.dlink l.other).up = true
  · rw [dispatchArrival_of_up s l hup]
    exact h
  · simp only [not_or, Bool.not_eq_true] at hup
    rw [dispatchArrival_of_down s l hup.1 hup.2]
    refine h.trans ?_
    unfold State.regainDispatch
    split
    · exact .refl _
    · exact KeepsBut.trans (t := { s.arrived l with lossSince := none }) (.of_eq rfl rfl rfl rfl rfl rfl rfl)
        ((setDlc_keeps _ _).trans (post_keeps _ _ _ _))

theorem State.Inv.arrival {s : State} (hs : s.Inv) (l : DLink) : (s.dispatchArrival l).Inv :=
  (hs.toBounded.arrival l).inv ((dispatchArrival_keeps s l).tidy hs.tidy)

theorem pump_keeps (s : State) : Keeps s s.pump := (onDlink_keeps s .a _).trans (onDlink_keeps _ .b _)

theorem State.Inv.pump {s : State} (hs : s.Inv) : s.pump.Inv :=
  ((pump_calm s).bounded hs.toBounded).inv ((pump_keeps s).tidy hs.tidy)

/-- A change of a dispatch link's receiver or counters. -/
theorem State.Inv.countDlink {s : State} (hs : s.Inv) (l : DLink) (f : DispatchLink → DispatchLink)
    (hup : ∀ d, (f d).up = d.up) (hf : (s.dlink l).Sound → (f (s.dlink l)).Sound) : (s.onDlink l f).Inv :=
  ((onDlink_calm s l f hup hf).bounded hs.toBounded).inv ((onDlink_keeps s l f).tidy hs.tidy)

theorem State.Inv.answered {t : State} (ht : t.Inv) (l : DLink) (r : Reply)
    (hroom : (t.dlink l).replies.length < 16) (hup : (t.dlink l).up = true) : (t.answered l r).Inv := by
  refine State.Inv.pump (ht.countDlink l _ (fun _ => rfl) fun h => ⟨?_, h.notifs, h.sending, h.drops, fun hd => ?_⟩)
  · show List.length (_ ++ [r]) ≤ 16
    rw [List.length_append]
    exact hroom
  · exact absurd (hup.symm.trans hd) Bool.noConfusion

theorem State.Inv.taken {s : State} (hs : s.Inv) (l : DLink) : (s.taken l).Inv :=
  (hs.arrival l).countDlink l _ (fun _ => rfl) (fun h => ⟨h.replies, h.notifs, h.sending, h.drops, h.down⟩)

theorem State.Inv.takeRequest {s : State} (hs : s.Inv) (l : DLink) {o : Owner} (ho : OwnerSound o) :
    (s.takeRequest l o).Inv := by
  by_cases hroom : s.hasRoom l
  · rw [takeRequest_room s l o hroom]
    obtain ⟨hinv, hreplies, hup⟩ := ho _ (hs.taken l)
    refine hinv.answered l _ ?_ ((hup l).trans (taken_up s l))
    rw [hreplies, taken_replies]
    exact hroom
  · rw [takeRequest_full s l o hroom]
    exact ((hs.arrival l).countDlink l (fun d => { d with overruns := bump16 d.overruns }) (fun _ => rfl)
      (fun h => ⟨h.replies, h.notifs, h.sending, h.drops, h.down⟩)).pump

/-! ## Owners that change records within the frame of a request -/

theorem ownBlock_sound (kind : Nat) (rect : Rect) (block : Bool) : OwnerSound (ownBlock kind rect block) := by
  refine .of_steady fun t _ => ?_
  unfold ownBlock
  split
  · exact .refl t
  · simp only
    exact request_steady t _ (fun w => w.onSegs_within _ _) (Work.onSegs_lock_keeps _ _ _)

theorem ownRouteExtend_sound (c stop : Nat) (ids : List Nat) : OwnerSound (ownRouteExtend c stop ids) := by
  refine .of_steady fun t _ => ?_
  unfold ownRouteExtend
  split
  · exact .refl t
  · split
    · exact .refl t
    · split
      · exact .refl t
      · split
        · exact .refl t
        · simp only
          split
          · exact .refl t
          · split
            · exact .refl t
            · exact request_steady _ _
                (fun w => (w.onSegs_within _ _).trans ((Work.putRoute_within _ _ _).trans (Work.bumpSelf_frame _ _)))
                ((Work.hold_keeps _ _ _ _).trans ((Work.putRoute_keeps _ _ _).trans (Work.bumpVersion_keeps _ _)))

theorem ownRouteCancel_sound (c : Nat) : OwnerSound (ownRouteCancel c) := by
  refine .of_steady fun t _ => ?_
  unfold ownRouteCancel
  split
  · exact .refl t
  · exact request_steady _ _
      (fun w => (w.release_within _).trans ((Work.putRoute_within _ _ _).trans (Work.bumpSelf_frame _ _)))
      ((Work.release_keeps _ _).trans ((Work.putRoute_keeps _ _ _).trans (Work.bumpVersion_keeps _ _)))

theorem ownPendingCancel_sound (c : Nat) : OwnerSound (ownPendingCancel c) := by
  refine .of_steady fun t _ => ?_
  unfold ownPendingCancel
  split
  · exact .refl t
  · split
    · exact .refl t
    · split
      · exact .refl t
      · exact .of_within ((dropEntry_within t c).trans (post_within _ _ _ _))
          ((dropEntry_keeps t c).trans (post_keeps _ _ _ _))

theorem Work.Within.mark_settled {w v : Work} {l : List Nat} (h : Work.Within w v) :
    Work.Within w { v with settled := l } := h

theorem Work.KeepsBut.mark_settled {w v : Work} {l : List Nat} (h : Work.Keeps w v) :
    Work.Keeps w { v with settled := l } := h

theorem ownRecover_sound (c : Nat) : OwnerSound (ownRecover c) := by
  refine .of_steady fun t _ => ?_
  unfold ownRecover
  split
  · exact .refl t
  · split
    · exact .refl t
    · split
      · exact .refl t
      · split
        · exact .refl t
        · split
          · exact .refl t
          · simp only
            split
            · exact .refl t
            · next g _ _ _ _ _ _ =>
              dsimp only
              refine request_steady t _ (fun w => .mark_settled ?_) (.mark_settled ?_)
              · exact (w.settleStanding_within c (groundOf g.front g.rear)).trans ((Work.deleteRoute_within _ _).trans
                  ((Work.clearMarks_within _ _).trans ((Work.applyClass_within _ _).trans
                    ((Work.changeState_within _ _ _ _).trans (Work.onCarrier_within _ _ _)))))
              · exact (Work.settleStanding_keeps _ c (groundOf g.front g.rear)).trans ((Work.deleteRoute_keeps _ _).trans
                  ((Work.clearMarks_keeps _ _).trans ((Work.applyClass_keeps _ _).trans
                    ((Work.changeState_keeps _ c .idle [] (fun h => nomatch h)).trans
                      (Work.onCarrier_keeps_same _ c _)))))

theorem ownReleaseFrozen_sound (c : Nat) : OwnerSound (ownReleaseFrozen c) := by
  refine .of_steady fun t _ => ?_
  unfold ownReleaseFrozen
  split
  · exact .refl t
  · split
    · exact .refl t
    · simp only
      exact request_steady t _
        (fun w => (w.release_within _).trans ((Work.deleteRoute_within _ _).trans ((Work.clearMarks_within _ _).trans
          ((Work.changeState_within _ _ _ _).trans (Work.onCarrier_within _ _ _)))))
        ((Work.release_keeps _ _).trans ((Work.deleteRoute_keeps _ c).trans ((Work.clearMarks_keeps _ (.carrier c)).trans
          ((Work.changeState_keeps _ c .offline [] (fun h => nomatch h)).trans
            (Work.renewed_keeps _ c _ (fun x hx => by rw [Work.state_changeState hx]; exact fun h => nomatch h))))))

theorem ownClearEmergency_sound (c : Nat) : OwnerSound (ownClearEmergency c) := by
  refine .of_steady fun t _ => ?_
  unfold ownClearEmergency
  split
  · exact .refl t
  · split
    · exact .refl t
    · split
      · exact .refl t
      · split
        · exact .refl t
        · simp only
          split
          · exact .refl t
          · simp only
            exact request_steady t _ (fun w => (w.settleStanding_within _ _).trans (Work.clearTo_within _ _ _))
              ((Work.settleStanding_keeps _ _ _).trans (Work.clearTo_keeps _ _ _ (by
                split <;> exact fun h => nomatch h)))

theorem ownClearCrane_sound (k : Nat) : OwnerSound (ownClearCrane k) := by
  refine .of_steady fun t _ => ?_
  have hclear : Steady t (t.request (fun w => w.clearOf k Reasons.ofViolation)) :=
    request_steady _ _ (fun w => w.clearOf_within k _) (Work.clearOf_keeps _ k _)
  have hlost : Steady t (t.request (fun w => w.clearLost k)) :=
    request_steady _ _ (fun w => w.clearLost_within k) (Work.clearLost_keeps _ k)
  have hhalted : Steady t (t.request (fun w => w.clearHalted k)) :=
    request_steady _ _ (fun w => w.clearHalted_within k) (Work.clearHalted_keeps _ k)
  unfold ownClearCrane
  split
  · exact .refl t
  · split
    · exact .refl t
    · simp only
      cases (t.crane k).state with
      | offline => exact .refl t
      | standing =>
        simp only
        split
        · exact .refl t
        · dsimp only
          exact hclear
      | linkLost =>
        dsimp only
        exact hlost
      | travelling | halted =>
        simp only
        split
        · exact .refl t
        · split
          · exact .refl t
          · split
            · exact .refl t
            · split
              · exact .refl t
              · dsimp only
                exact hhalted

theorem ownBroadcastTrigger_sound : OwnerSound ownBroadcastTrigger := by
  refine .of_steady fun t _ => ?_
  unfold ownBroadcastTrigger
  split
  · exact .refl t
  · split
    · exact .refl t
    · split
      · exact .refl t
      · exact .of_within (startCycle_within t) (startCycle_keeps t)

/-! ## Owners that write the configuration -/

theorem ownSetDispatch_sound (a b : Nat) : OwnerSound (ownSetDispatch a b) :=
  .of_steady fun t _ => cfg_steady t _ rfl rfl rfl

theorem ownSetClass_sound (a : ClassArgs) : OwnerSound (ownSetClass a) := by
  refine .of_steady fun t _ => ?_
  unfold ownSetClass
  split
  · exact .refl t
  · split
    · exact .refl t
    · exact cfg_steady t _ rfl rfl rfl

theorem ownSetCopyRule_sound (a : CopyArgs) : OwnerSound (ownSetCopyRule a) := by
  refine .of_steady fun t _ => ?_
  unfold ownSetCopyRule
  split
  · exact .refl t
  · exact cfg_steady t _ rfl rfl rfl

theorem ownBroadcastConfig_sound (a : BroadcastArgs) : OwnerSound (ownBroadcastConfig a) := by
  refine .of_steady fun t _ => ?_
  unfold ownBroadcastConfig
  split
  · exact .refl t
  · exact .refl t
  · next mode notice _ _ =>
    dsimp only
    refine (cfg_steady t { t.cfg with broadcast := storedBroadcast a mode notice } rfl rfl rfl).trans ?_
    exact .of_within (followMode_within _ _) (followMode_keeps _ _)

theorem ownFlushRouting_sound : OwnerSound ownFlushRouting := by
  refine .of_steady fun t _ => ?_
  unfold ownFlushRouting
  split
  · exact .refl t
  · exact ⟨{ Calm.refl t with }, .of_eq rfl rfl rfl rfl rfl rfl rfl, fun _ => rfl⟩

theorem ownBadKind_sound (l : DLink) (kind : Nat) : OwnerSound (ownBadKind l kind) := by
  refine .of_steady fun t _ => ⟨onDlink_calm t l (fun d => { d with badKinds := bump16 d.badKinds }) (fun _ => rfl)
    (fun h => ⟨h.replies, h.notifs, h.sending, h.drops, h.down⟩), onDlink_keeps t l
    (fun d => { d with badKinds := bump16 d.badKinds }), fun m => ?_⟩
  show ((t.onDlink l _).dlink m).replies = _
  rw [State.dlink_onDlink]
  split
  · next h => rw [h]
  · rfl

/-! ## The roster (R47, R48) -/

theorem ownRegister_sound (c k : Nat) : OwnerSound (ownRegister c k) := by
  refine .of_steady fun t _ => ?_
  unfold ownRegister
  split
  · exact .refl t
  · split
    · exact .refl t
    · split
      · exact .refl t
      · next hnew =>
        have hcfg := cfg_steady t { t.cfg with roster := t.cfg.roster.put c k } rfl rfl rfl
        have hput : Steady { t with cfg := { t.cfg with roster := t.cfg.roster.put c k } } (State.putCarrier { t with
            cfg := { t.cfg with roster := t.cfg.roster.put c k }
            eventSeqs := t.eventSeqs.del c } c (Carrier.fresh (t.classVals k))) := by
          refine ⟨{ Calm.refl _ with }, { Keeps.refl _ with idle := fun e he => ⟨⟨e, he, rfl⟩, fun hs => .inl ?_⟩ },
            fun _ => rfl⟩
          obtain ⟨r, hr, hidle⟩ := (State.carrierIs_iff _ _ _).1 hs
          refine (State.carrierIs_iff _ _ _).2 ⟨r, ?_, hidle⟩
          rw [State.carrier?_putCarrier, if_neg]
          · exact hr
          · rintro rfl
            exact Option.some_ne_none r (hr.symm.trans hnew)
        exact (hcfg.trans hput).trans (request_steady _ _
          (fun w => (w.notifyState_within _ _ _ _).trans (Work.concern_within _ _))
          ((Work.post_keeps _ _ _ _).trans (Work.concern_keeps _ _)))

/-- A carrier that does not wait leaves the roster (R48, R126). -/
theorem discard_steady (w : Work) (c : Nat) (state : CarrierState) (h : ∀ e ∈ w.s.waiting, e.carrier ≠ c) :
    Steady w.s (w.discard c state).s := by
  have hcfg := cfg_steady w.s { w.s.cfg with roster := w.s.cfg.roster.del c } rfl rfl rfl
  have hdel : Steady { w.s with cfg := { w.s.cfg with roster := w.s.cfg.roster.del c } } { w.s with
      cfg := { w.s.cfg with roster := w.s.cfg.roster.del c }
      carriers := w.s.carriers.del c, learning := w.s.learning.del c } := by
    refine ⟨{ Calm.refl _ with }, { Keeps.refl _ with learned := fun x hx => ?_, idle := fun e he => ?_ }, fun _ => rfl⟩
    · exact .inl (List.mem_filter.1 hx).1
    · refine ⟨⟨e, he, rfl⟩, fun hs => .inl ?_⟩
      obtain ⟨r, hr, hidle⟩ := (State.carrierIs_iff _ _ _).1 hs
      exact (State.carrierIs_iff _ _ _).2 ⟨r, (Table.get?_del_ne _ (h e he)).trans hr, hidle⟩
  exact (hcfg.trans hdel).trans (post_steady _ _ _ _)

theorem ownDeregister_sound (c : Nat) : OwnerSound (ownDeregister c) := by
  have hfinish : ∀ {s : State} {w : Work}, Steady s w.s → Steady s w.finish :=
    fun h => h.trans (.of_within (Work.finish_within _) (Work.finish_keeps _))
  refine .of_steady fun t ht => ?_
  unfold ownDeregister
  split
  · exact .refl t
  · next r hr =>
    have hquiet : r.state ≠ .idle → Steady t (t.request (fun w => w.discard c r.state)) := fun hs =>
      hfinish (discard_steady (Work.start t none) c _ (ht.tidy.ne_of_not_idle hr hs))
    split
    case h_7 hidle =>
      have hbefore : Steady t ((((Work.start t none).authorityRun c true).release (t.standing c)).dropStale c
          .deregistered).s :=
        .of_within (((Work.start t none).authorityRun_within c true).trans ((Work.release_within _ _).trans
            (Work.dropStale_within _ _ _)))
          (((Work.start t none).authorityRun_keeps c true).trans ((Work.release_keeps _ _).trans
            (Work.dropStale_keeps _ _ _)))
      exact hfinish (hbefore.trans (discard_steady _ c _ (fun e he => Work.not_mem_dropStale he)))
    case h_5 hs => exact hquiet (by rw [hs]; exact fun h => nomatch h)
    case h_6 hs => exact hquiet (by rw [hs]; exact fun h => nomatch h)
    all_goals exact .refl t

end Sys2Proof.Machine
end

section
/-! The invariant (O60): the owners that write the grid, the cranes, the part mode and the pending route list, and the
catalogue of owners. -/

namespace Sys2Proof.Machine

/-! ## Records reset as a whole -/

theorem lock_freshSegs (s : State) (i : Nat) : (s.freshSegs.get i SegDyn.fresh).lock = Table.empty := by
  unfold State.freshSegs Table.get Grid.ids
  rw [Table.get?_map_range]
  split <;> rfl

theorem resetSegs_steady (s : State) : Steady s s.resetSegs where
  calm := { Calm.refl s with
    waiting := fun _ => Nat.zero_le _
    quiet := fun _ _ => rfl
    sorted := fun _ => Table.sorted_map_range _ _ }
  keeps := { Keeps.refl s with
    once := fun _ => List.Pairwise.nil
    idle := fun e he => absurd he List.not_mem_nil
    locks := fun i _ => by
      refine SegDyn.Reasoned.of_lock (a := SegDyn.fresh) ⟨Table.sorted_empty, fun x hx => nomatch hx⟩ ?_
      exact lock_freshSegs s i }
  replies _ := rfl

theorem dropWaiting_steady (s : State) (cause : Nat) : Steady s (s.dropWaiting cause) := by
  have hposts : ∀ (l : List PendingEntry) (s : State), Steady s (l.foldl
      (fun s e => s.post .pendingDropped (.carrier e.carrier) [.byte cause, .half e.tag]) s) := by
    intro l
    induction l with
    | nil => exact .refl
    | cons e rest ih => exact fun s => (post_steady s _ _ _).trans (ih _)
  refine (hposts s.waiting s).trans ⟨{ Calm.refl _ with waiting := fun _ => Nat.zero_le _, quiet := fun _ _ => rfl },
    { Keeps.refl _ with once := fun _ => List.Pairwise.nil, idle := fun e he => absurd he List.not_mem_nil }, fun _ => rfl⟩

/-- A change of the configuration in CONFIG, where the berth need not have passed its validation. -/
theorem cfg_config_steady (s : State) (cfg : Settings) (hmode : s.mode = .config) (hradios : cfg.radios = s.cfg.radios) :
    Steady s { s with cfg := cfg } :=
  ⟨{ Calm.refl s with berth := fun h => absurd hmode h, configured := fun r _ => by simp only [State.radioCfg, hradios] },
    .of_eq rfl rfl rfl rfl rfl rfl rfl, fun _ => rfl⟩

theorem ownSetGrid_sound (lanes bays : Nat) : OwnerSound (ownSetGrid lanes bays) := by
  refine .of_steady fun t _ => ?_
  unfold ownSetGrid
  split
  · exact .refl t
  · next hm =>
    exact (cfg_config_steady t { t.cfg with grid := Grid.blank (gridSize lanes bays).1 (gridSize lanes bays).2 }
      (not_not.1 hm) rfl).trans (resetSegs_steady _)

theorem ownSetSegment_sound (a : SegmentArgs) : OwnerSound (ownSetSegment a) := by
  refine .of_steady fun t _ => ?_
  unfold ownSetSegment
  split
  · exact .refl t
  · next hm =>
    split
    · exact .refl t
    · split
      · exact .refl t
      · dsimp only
        refine Steady.trans (cfg_config_steady t _ (not_not.1 hm) ?_) (request_steady _ _
          (fun w => w.alignClosures_within _) (Work.alignClosures_keeps _ _))
        rfl

/-! ## The cranes (R94, R95) -/

theorem CraneConfig.failure_congr {b c : CraneConfig} (hslots : b.slotLanes = c.slotLanes)
    (hwater : b.waterside = c.waterside) (hland : b.landside = c.landside) (k lanes : Nat) (ref : Nat × Nat) :
    b.failure k lanes ref = c.failure k lanes ref := by
  unfold CraneConfig.failure
  rw [hslots, hwater, hland]

/-- The operating values of a crane take no part in the validation (R14). -/
theorem Settings.validate_putCrane (c : Settings) (k : Nat) (new : CraneConfig)
    (hpresent : new.present = (c.cranes.get k CraneConfig.default).present)
    (hslots : new.slotLanes = (c.cranes.get k CraneConfig.default).slotLanes)
    (hwater : new.waterside = (c.cranes.get k CraneConfig.default).waterside)
    (hland : new.landside = (c.cranes.get k CraneConfig.default).landside) :
    Settings.validate { c with cranes := c.cranes.put k new } = c.validate := by
  have hget : ∀ j, (c.cranes.put k new).get j CraneConfig.default =
      if j = k then new else c.cranes.get j CraneConfig.default := fun j => Table.get_put _ _ _ _ _
  have hcranes : Settings.presentCranes { c with cranes := c.cranes.put k new } = c.presentCranes := by
    refine List.filter_congr fun j _ => ?_
    rw [hget]
    split
    · next h => rw [h, hpresent]
    · rfl
  have hlegs : Settings.legs { c with cranes := c.cranes.put k new } = c.legs := by
    unfold Settings.legs
    rw [hcranes]
    split
    · next j _ _ =>
      simp only [hget]
      split
      · next h => rw [h, hwater, hland]
      · rfl
    · rfl
  rw [Settings.validate_eq, Settings.validate_eq, hcranes, hlegs]
  congr 2
  funext j
  rw [hget]
  split
  · next h => rw [h, CraneConfig.failure_congr hslots hwater hland]
  · rfl

theorem configureCrane_steady (s : State) (k : Nat) (new : CraneConfig)
    (h : s.mode = .config ∨ new.present = (s.craneCfg k).present ∧ new.slotLanes = (s.craneCfg k).slotLanes ∧
      new.waterside = (s.craneCfg k).waterside ∧ new.landside = (s.craneCfg k).landside) :
    Steady s (s.configureCrane k new) := by
  have hcfg : Steady s { s with cfg := { s.cfg with cranes := s.cfg.cranes.put k new } } := by
    rcases h with hm | ⟨hpresent, hslots, hwater, hland⟩
    · exact cfg_config_steady s _ hm rfl
    · refine ⟨{ Calm.refl s with berth := fun _ hv => ?_ }, .of_eq rfl rfl rfl rfl rfl rfl rfl, fun _ => rfl⟩
      rw [Settings.validate_putCrane s.cfg k new hpresent hslots hwater hland]
      exact hv
  unfold State.configureCrane
  simp only
  split
  · exact hcfg
  · exact hcfg.trans ⟨{ Calm.refl _ with }, onCrane_keeps _ _ _ (fun h hs => h hs), fun _ => rfl⟩

theorem operateCrane_steady (s : State) (k : Nat) (base : CraneConfig) (o : OperatingArgs) (all : Bool)
    (h : s.mode = .config ∨ base.present = (s.craneCfg k).present ∧ base.slotLanes = (s.craneCfg k).slotLanes ∧
      base.waterside = (s.craneCfg k).waterside ∧ base.landside = (s.craneCfg k).landside) :
    Steady s (s.operateCrane k base o all).1 := by
  unfold State.operateCrane
  split
  · exact .refl s
  · exact .refl s
  · exact configureCrane_steady s k _ h

theorem ownSetCraneOperating_steady (k : Nat) (o : OperatingArgs) (t : State) :
    Steady t (ownSetCraneOperating k o t).1 := by
  unfold ownSetCraneOperating
  split
  · exact .refl t
  · exact operateCrane_steady t k _ o false (.inr ⟨rfl, rfl, rfl, rfl⟩)

theorem ownSetCraneAll_steady (k : Nat) (g : GeometryArgs) (o : OperatingArgs) (t : State) :
    Steady t (ownSetCraneAll k g o t).1 := by
  unfold ownSetCraneAll
  split
  · exact .refl t
  · split
    · exact .refl t
    · next hm =>
      split
      · exact .refl t
      · exact .refl t
      · exact operateCrane_steady t k _ o true (.inl (not_not.1 hm))

theorem ownSetCrane_sound (k selector : Nat) (g : GeometryArgs) (o : OperatingArgs) :
    OwnerSound (ownSetCrane k selector g o) := by
  refine .of_steady fun t _ => ?_
  unfold ownSetCrane
  split
  · exact ownSetCraneAll_steady k g o t
  · split
    · exact ownSetCraneOperating_steady k o t
    · split <;> exact .refl t

/-! ## ROUTE_REQUEST (R26, R34) -/

/-- An entry in the place of the earlier one of its carrier leaves the carriers that wait (R26). -/
theorem map_carrier_set {l : List PendingEntry} {e : PendingEntry} {i : Nat}
    (h : placeOf (l.map (fun x => x.carrier)) e.carrier = some i) :
    (l.set i e).map (fun x => x.carrier) = l.map (fun x => x.carrier) := by
  rw [placeOf_eq_findIdx?, List.findIdx?_eq_some_iff_getElem] at h
  obtain ⟨hi, hc, -⟩ := h
  rw [List.map_set, ← of_decide_eq_true hc, List.set_getElem_self]

/-- A carrier whose place is not found does not wait. -/
theorem ne_of_placeOf_none {s : State} {c : Nat}
    (h : placeOf (s.waiting.map (fun x => x.carrier)) c = none ∨ s.entry? c = none) :
    ∀ e ∈ s.waiting, e.carrier ≠ c := by
  intro e he
  rcases h with h | h
  · rw [placeOf_eq_findIdx?, List.findIdx?_eq_none_iff] at h
    exact of_decide_eq_false (h e.carrier (List.mem_map_of_mem he))
  · simpa using List.find?_eq_none.1 h e he

/-- A request that is queued takes the place of its carrier's entry, or joins the list at the end (R26, R33). -/
theorem queueEntry_cases {s u : State} {e : PendingEntry} {n : Nat} (h : s.queueEntry e = some (u, n)) :
    (∃ (i : Nat) (old : PendingEntry), placeOf (s.waiting.map (fun x => x.carrier)) e.carrier = some i ∧
      s.entry? e.carrier = some old ∧ n = i + 1 ∧
      u = State.post { s with waiting := s.waiting.set i e } .replaced (.carrier e.carrier) [.half old.tag]) ∨
    ((∀ x ∈ s.waiting, x.carrier ≠ e.carrier) ∧ s.waiting.length < 32 ∧ n = s.waiting.length + 1 ∧
      u = { s with waiting := s.waiting ++ [e] }) := by
  unfold State.queueEntry at h
  split at h
  · next i old hi hold =>
    cases h
    exact .inl ⟨i, old, hi, hold, rfl, rfl⟩
  · next hno =>
    split at h
    · cases h
    · next hfull =>
      cases h
      refine .inr ⟨ne_of_placeOf_none ?_, Nat.lt_of_not_le hfull, rfl, rfl⟩
      cases hp : placeOf (s.waiting.map (fun x => x.carrier)) e.carrier with
      | none => exact .inl rfl
      | some i =>
        cases he : s.entry? e.carrier with
        | none => exact .inr rfl
        | some old => exact (hno i old hp he).elim

/-- The list of entries in the place of another, of the same carriers. -/
theorem waiting_steady (s : State) (l : List PendingEntry)
    (h : l.map (fun x => x.carrier) = s.waiting.map (fun x => x.carrier)) : Steady s { s with waiting := l } := by
  have hlength : l.length = s.waiting.length := by simpa using congrArg List.length h
  refine ⟨{ Calm.refl s with
      waiting := fun hw => hlength ▸ hw
      quiet := fun _ hw => List.length_eq_zero_iff.1 (hlength.trans (by rw [hw]; rfl)) },
    { Keeps.refl s with once := fun ho => ?_, idle := fun e he => ⟨?_, .inl⟩ }, fun _ => rfl⟩
  · have hs : (s.waiting.map (fun x => x.carrier)).Pairwise (fun a b => a ≠ b) := List.pairwise_map.2 ho
    rw [← h] at hs
    exact List.pairwise_map.1 hs
  · have hm : e.carrier ∈ s.waiting.map (fun x => x.carrier) := h ▸ List.mem_map_of_mem he
    exact List.mem_map.1 hm

theorem State.Inv.queueEntry {s u : State} {e : PendingEntry} {n : Nat} (hs : s.Inv)
    (h : s.queueEntry e = some (u, n)) (hm : s.mode = .active) (hidle : s.carrierIs e.carrier .idle = true) : u.Inv := by
  obtain ⟨i, old, hi, -, -, rfl⟩ | ⟨hne, hlt, -, rfl⟩ := queueEntry_cases h
  · exact (((waiting_steady s _ (map_carrier_set hi))).trans (post_steady _ _ _ _)).inv hs
  · have hcalm : Calm s { s with waiting := s.waiting ++ [e] } :=
      { Calm.refl s with
        waiting := fun _ => by rw [List.length_append]; exact hlt
        quiet := fun hq => absurd hm hq }
    refine (hcalm.bounded hs.toBounded).inv { hs.tidy with once := ?_, idle := fun d hd => ?_ }
    · exact List.pairwise_append.2 ⟨hs.once, List.pairwise_singleton _ _, fun x hx y hy =>
        (List.mem_singleton.1 hy) ▸ hne x hx⟩
    · rcases List.mem_append.1 hd with hd | hd
      · exact hs.tidy.idle d hd
      · exact (List.mem_singleton.1 hd) ▸ hidle

theorem queueEntry_dlink {s u : State} {e : PendingEntry} {n : Nat} (h : s.queueEntry e = some (u, n)) (m : DLink) :
    DispatchLink.Notified (s.dlink m) (u.dlink m) := by
  obtain ⟨i, old, -, -, -, rfl⟩ | ⟨-, -, -, rfl⟩ := queueEntry_cases h
  · exact (post_within { s with waiting := s.waiting.set i e } _ _ _).dlinks m
  · exact .refl _

/-- The checks that a ROUTE_REQUEST has passed (R24). -/
theorem routeChecks_ok {s : State} {a : RouteArgs} {r : Carrier} {q : Bool} (h : s.routeChecks a = .ok (r, q)) :
    s.mode = .active ∧ s.carrier? a.carrier = some r ∧ r.state = .idle := by
  unfold State.routeChecks at h
  split at h
  · cases h
  · next hm =>
    split at h
    · cases h
    · split at h
      · cases h
      · next hr =>
        split at h
        · cases h
        · split at h
          · cases h
          · next hidle =>
            have hidle := not_not.1 hidle
            repeat' split at h
            all_goals first
              | cases h; done
              | (cases h; exact ⟨not_not.1 hm, hr, hidle⟩)

theorem ownRouteRequest_sound (l : DLink) (a : RouteArgs) : OwnerSound (ownRouteRequest l a) := by
  intro t ht
  have hsame : t.Inv ∧ (∀ m, (t.dlink m).replies = (t.dlink m).replies) ∧ ∀ m, (t.dlink m).up = (t.dlink m).up :=
    ⟨ht, fun _ => rfl, fun _ => rfl⟩
  unfold ownRouteRequest
  split
  · exact hsame
  · next r queue hchecks =>
    obtain ⟨hm, hr, hidle⟩ := routeChecks_ok hchecks
    dsimp only
    split
    · exact hsame
    · split
      · dsimp only
        have h : Steady t (t.request (fun w => w.grantDirect a.carrier a.ids
            (clampTo 0 (t.grid.lengthOf (a.ids.getLastD 0)) a.stop) a.tag l)) :=
          request_steady t _ (fun w => w.grantDirect_within _ _ _ _ _) (Work.grantDirect_keeps _ _ _ _ _ _)
        exact ⟨h.inv ht, h.replies, h.calm.up⟩
      · split
        · split
          · next hq =>
            have hinv := ht.queueEntry hq hm ((State.carrierIs_iff _ _ _).2 ⟨r, hr, hidle⟩)
            have hdlink := queueEntry_dlink hq
            exact ⟨hinv, fun m => (hdlink m).replies, fun m => (hdlink m).up⟩
          · exact hsame
        · exact hsame

end Sys2Proof.Machine
end

section
/-! The invariant (O60): the owners that change the part mode, and the changes of the radio links. -/

namespace Sys2Proof.Machine

/-! ## The part mode (R165 to R167, R169) -/

theorem followMode_steady (s : State) (old : BroadcastMode) : Steady s (s.followMode old) :=
  .of_within (followMode_within _ _) (followMode_keeps _ _)

theorem State.Inv.enterRecovery {s : State} (hs : s.Inv) (hm : s.mode = .config) (hv : s.cfg.validate = none)
    (time : Nat) : (s.enterRecovery time).Inv := by
  refine (post_steady _ _ _ _).inv ?_
  have hquiet : s.waiting = [] := hs.quiet (by rw [hm]; exact fun h => nomatch h)
  exact { hs with recovery := rfl, quiet := fun _ => hquiet, berth := fun _ => hv }

theorem State.Inv.enterActive {s : State} (hs : s.Inv) (hm : s.mode = .recovery) : s.enterActive.Inv := by
  refine ((post_steady _ _ _ _).trans (followMode_steady _ _)).inv ?_
  have hvalid := hs.berth (by rw [hm]; exact fun h => nomatch h)
  exact { hs with recovery := rfl, quiet := fun h => absurd rfl h, berth := fun _ => hvalid }

theorem enterRecovery_dlink (s : State) (time : Nat) (m : DLink) :
    DispatchLink.Notified (s.dlink m) ((s.enterRecovery time).dlink m) := (post_within _ _ _ _).dlinks m

theorem enterActive_dlink (s : State) (m : DLink) : DispatchLink.Notified (s.dlink m) (s.enterActive.dlink m) :=
  ((post_within { s with mode := .active, recoveryStart := none } _ _ _).trans (followMode_within _ _)).dlinks m

theorem ownActivate_sound (time : Nat) : OwnerSound (ownActivate time) := by
  intro t ht
  unfold ownActivate
  split
  · next hm =>
    split
    · exact ⟨ht, fun _ => rfl, fun _ => rfl⟩
    · next hv =>
      have h := enterRecovery_dlink t (clampTo 1 30 time)
      exact ⟨ht.enterRecovery hm hv _, fun m => (h m).replies, fun m => (h m).up⟩
  · next hm =>
    dsimp only
    split
    · exact ⟨ht, fun _ => rfl, fun _ => rfl⟩
    · exact ⟨ht.enterActive hm, fun m => (enterActive_dlink t m).replies, fun m => (enterActive_dlink t m).up⟩
  · exact ⟨ht, fun _ => rfl, fun _ => rfl⟩

theorem ownSaveSettings_sound : OwnerSound ownSaveSettings := by
  intro t ht
  unfold ownSaveSettings
  split
  · exact ⟨ht, fun _ => rfl, fun _ => rfl⟩
  · exact ⟨{ ht with save := fun _ => rfl }, fun _ => rfl, fun _ => rfl⟩

theorem renewCranes_steady (s : State) : Steady s s.renewCranes := by
  refine ⟨{ Calm.refl s with }, { Keeps.refl s with claims := fun k _ hk => ?_ }, fun _ => rfl⟩
  have hcrane : s.renewCranes.crane k =
      Crane.fresh (s.crane k).frames (s.crane k).repeats (s.crane k).implausible := Table.get_mapVals _ _ _ _ rfl
  rw [hcrane]
  rfl

/-- The part with CONFIG as its mode, its other blocks as they were. -/
def State.inConfig (s : State) : State := { s with mode := .config, recoveryStart := none }

theorem becomeConfig_steady (s : State) : Steady s.inConfig s.becomeConfig :=
  (followMode_steady _ _).trans ((dropWaiting_steady _ 0).trans ((resetSegs_steady _).trans
    ((request_steady _ _ (fun w => w.renewCarriers_within) (Work.renewCarriers_keeps _)).trans
      ((renewCranes_steady _).trans (post_steady _ _ _ _)))))

theorem request_waiting_nil {s : State} {body : Work → Work} (hb : ∀ w, Work.Within w (body w))
    (h : s.waiting = []) : (s.request body).waiting = [] :=
  List.length_eq_zero_iff.1 (Nat.le_zero.1 (by simpa [h] using (request_within s body hb).waiting))

theorem waiting_renewCranes_postMode (s : State) (old new : PartMode) (request : Nat) :
    (s.renewCranes.postMode old new request).waiting = s.waiting := rfl

theorem becomeConfig_waiting (s : State) : s.becomeConfig.waiting = [] := by
  refine (waiting_renewCranes_postMode _ _ _ _).trans ?_
  have h : ((((State.followMode s.inConfig s.effectiveMode).dropWaiting 0).resetSegs).request
      Work.renewCarriers).waiting = [] := request_waiting_nil (fun w => w.renewCarriers_within) rfl
  exact h

theorem State.Inv.becomeConfig {s : State} (hs : s.Inv) : s.becomeConfig.Inv := by
  have hsteady := becomeConfig_steady s
  have hnone : State.Bounded { s.inConfig with waiting := [] } :=
    { hs.toBounded with
      waiting := Nat.zero_le _, recovery := rfl, quiet := fun _ => rfl, berth := fun h => absurd rfl h }
  have hcalm : Calm { s.inConfig with waiting := [] } s.becomeConfig :=
    { hsteady.calm with
      waiting := fun _ => by rw [becomeConfig_waiting]; exact Nat.zero_le _
      quiet := fun _ _ => becomeConfig_waiting s }
  have htidy : s.inConfig.Tidy := { hs.tidy with }
  exact (hcalm.bounded hnone).inv (hsteady.keeps.tidy htidy)

theorem ownEnterConfig_sound : OwnerSound ownEnterConfig := by
  intro t ht
  unfold ownEnterConfig
  split
  · exact ⟨ht, fun _ => rfl, fun _ => rfl⟩
  · split
    · exact ⟨ht, fun _ => rfl, fun _ => rfl⟩
    · exact ⟨ht.becomeConfig, (becomeConfig_steady t).replies, (becomeConfig_steady t).calm.up⟩

/-! ## Radio links that come and go (R118 to R121) -/

/-- A change of the radio links and of the radio-loss closure with them, and what a request may change. -/
def Relinked (s t : State) : Prop := Within { s with radios := t.radios, rlcClosed := t.rlcClosed } t

namespace Relinked

theorem of_within {s t : State} (h : Within { s with rlcClosed := t.rlcClosed } t) : Relinked s t :=
  ⟨h.rest, h.dlinks, fun _ => .refl _, h.craneLinks, h.waiting, h.sorted⟩

theorem of_frame {s t : State} (h : Within s t) : Relinked s t := by
  have hs : ({ s with rlcClosed := t.rlcClosed } : State) = s := by rw [h.rlcClosed]
  exact .of_within (hs.symm ▸ h)

theorem trans {s t u : State} (h : Relinked s t) (g : Relinked t u) : Relinked s u := by
  refine ⟨?_, fun l => (h.dlinks l).trans (g.dlinks l), fun _ => .refl _,
    fun k => (h.craneLinks k).trans (g.craneLinks k), Nat.le_trans g.waiting h.waiting, g.sorted ∘ h.sorted⟩
  rw [g.rest, h.rest]

theorem onRadio (s : State) (r : Nat) (f : RadioLink → RadioLink) : Relinked s (s.onRadio r f) := Within.refl _

theorem cutRadio (s : State) (r : Nat) : Relinked s (s.cutRadio r) :=
  ⟨rfl, fun _ => .refl _, fun _ => .refl _, fun _ => .refl _, Nat.le_refl _, id⟩

theorem linkReport (s : State) : Relinked s s.linkReport := .of_within (linkReport_within s)

theorem radioLinkDown (s : State) (r : Nat) : Relinked s (s.radioLinkDown r) :=
  (Relinked.cutRadio s r).trans (.of_within (radioLinkDown_within s r))

theorem followRadio (s : State) (r : Nat) (old new : RadioConfig) : Relinked s (s.followRadio r old new) := by
  rcases RadioConfig.change_cases old new with h | ⟨hn, ho⟩ | ⟨hn, ho⟩
  · rw [followRadio_same h]
    exact Within.refl _
  · rw [followRadio_added hn ho]
    exact .onRadio _ _ _
  · rw [followRadio_removed hn ho]
    refine Relinked.trans ?_ (.onRadio _ _ _)
    split
    · exact .radioLinkDown s r
    · exact Within.refl _

theorem followTo (s : State) (old new : Nat → RadioConfig) (n : Nat) : Relinked s (s.followTo old new n) := by
  induction n with
  | zero => exact Within.refl _
  | succ n ih =>
    rw [followTo_succ]
    exact ih.trans (.followRadio _ _ _ _)

end Relinked

/-! ### The queues and the learning table -/

theorem requeue_keeps (order : List Authority) (s : State) (n : Nat) : Keeps s (order.foldl requeue (s, n)).1 := by
  induction order generalizing s n with
  | nil => exact .refl s
  | cons a rest ih =>
    rw [List.foldl_cons]
    unfold requeue
    simp only
    split
    · exact ih s n
    · exact (Keeps.foldl _ (fun s r => offerAuthority_keeps s r a) _ s).trans (ih _ _)

theorem radioLinkDown_keeps (s : State) (r : Nat) : Keeps (s.cutRadio r) (s.radioLinkDown r) :=
  (Keeps.foldl _ (fun s row => rowFate_keeps s row false) _ _).trans ((requeue_keeps _ _ 0).trans
    ((post_keeps _ _ _ _).trans (linkReport_keeps _)))

/-- The learning entries of a link that is cut off are gone. -/
theorem State.Tidy.cutRadio {s : State} (hs : s.Tidy) (r : Nat) : (s.cutRadio r).Tidy where
  queues q := by
    rw [State.radio_cutRadio]
    split
    · exact ⟨fun _ h => (nomatch h), fun _ h => (nomatch h), .nil, .nil⟩
    · exact hs.queues q
  commands := hs.commands
  learned x hx := by
    obtain ⟨hx, hne⟩ := List.mem_filter.1 hx
    rw [State.radio_cutRadio, if_neg (of_decide_eq_true hne)]
    exact hs.learned x hx
  once := hs.once
  idle := hs.idle
  locks := hs.locks
  claims := hs.claims

/-- A link that is not UP, nor comes UP, has no learning entry. -/
theorem State.Tidy.onRadio {s : State} (hs : s.Tidy) {r : Nat} {f : RadioLink → RadioLink}
    (hlearned : (s.radio r).state = .up → (f (s.radio r)).state = .up)
    (hqueues : (s.radio r).Coalesced → (f (s.radio r)).Coalesced) : (s.onRadio r f).Tidy where
  queues q := by
    rw [State.radio_onRadio]
    split
    · next h => exact h ▸ hqueues (hs.queues r)
    · exact hs.queues q
  commands := hs.commands
  learned x hx := by
    have h := hs.learned x hx
    rw [State.radio_onRadio]
    split
    · next hr => exact hr ▸ hlearned (hr ▸ h)
    · exact h
  once := hs.once
  idle := hs.idle
  locks := hs.locks
  claims := hs.claims

/-! ### The links and their configured values -/

/-- The radio links as the invariant has them, under given configured values. -/
structure State.Linked (cf : Nat → Bool) (s : State) : Prop where
  sound : ∀ r, (s.radio r).Sound
  links : ∀ r, r < 4 → ((s.radio r).state = .unconfigured ↔ cf r = false)
  tidy : s.Tidy

theorem State.Inv.linked {s : State} (hs : s.Inv) : s.Linked (fun r => (s.radioCfg r).configured) :=
  ⟨hs.radios, hs.links, hs.tidy⟩

theorem State.Linked.radioLinkDown {cf : Nat → Bool} {s : State} (h : s.Linked cf) {r : Nat}
    (hup : (s.radio r).state = .up) : (s.radioLinkDown r).Linked cf := by
  refine ⟨fun k => ?_, fun k hk => ?_, (radioLinkDown_keeps s r).tidy (h.tidy.cutRadio r)⟩
  · by_cases hkr : k = r
    · rw [hkr, radioLinkDown_radio_self]
      exact ⟨fun _ => ⟨rfl, rfl, rfl, rfl⟩⟩
    · exact (radioLinkDown_radio_ne s hkr).sound (h.sound k)
  · by_cases hkr : k = r
    · subst hkr
      rw [radioLinkDown_radio_self, ← h.links k hk, hup]
      exact ⟨fun h => (nomatch h), fun h => (nomatch h)⟩
    · rw [(radioLinkDown_radio_ne s hkr).state]
      exact h.links k hk

/-- A link that is not UP changes its configured value. -/
theorem State.Linked.onRadio {cf : Nat → Bool} {s : State} (h : s.Linked cf) {r : Nat} {f : RadioLink → RadioLink}
    {b : Bool} (hdown : (s.radio r).state ≠ .up) (hstate : (f (s.radio r)).state = .unconfigured ↔ b = false)
    (hsound : (s.radio r).Sound → (f (s.radio r)).Sound) (hqueues : (s.radio r).Coalesced → (f (s.radio r)).Coalesced) :
    (s.onRadio r f).Linked (Function.update cf r b) := by
  refine ⟨fun k => ?_, fun k hk => ?_, h.tidy.onRadio (fun hup => absurd hup hdown) hqueues⟩
  · rw [State.radio_onRadio]
    split
    · next hkr => exact hsound (h.sound r)
    · exact h.sound k
  · rw [State.radio_onRadio, Function.update_apply]
    split
    · next hkr => exact hstate
    · exact h.links k hk

theorem State.Linked.followRadio {cf : Nat → Bool} {s : State} (h : s.Linked cf) {r : Nat} (hr : r < 4)
    {old new : RadioConfig} (hold : cf r = old.configured) :
    (s.followRadio r old new).Linked (Function.update cf r new.configured) := by
  have hempty : (s.radio r).state ≠ .up → ∀ st : RadioState, ∀ rx,
      (s.radio r).Sound → RadioLink.Sound { s.radio r with state := st, timer := none, rx := rx } := fun hd st rx hs =>
    ⟨fun _ => ⟨(hs.down hd).1, (hs.down hd).2.1, (hs.down hd).2.2.1, rfl⟩⟩
  rcases RadioConfig.change_cases old new with hsame | ⟨hn, ho⟩ | ⟨hn, ho⟩
  · rw [followRadio_same hsame, ← hsame, ← hold, Function.update_eq_self]
    exact h
  · have hstate := (h.links r hr).2 (hold.trans ho)
    have hdown : (s.radio r).state ≠ .up := by rw [hstate]; exact fun h => nomatch h
    rw [followRadio_added hn ho]
    exact h.onRadio hdown (by rw [hn]; exact ⟨fun h => (nomatch h), fun h => (nomatch h)⟩) (hempty hdown _ _)
      (fun hq => ⟨hq.urgent, hq.normal, hq.urgentOnce, hq.normalOnce⟩)
  · have hcut : ∀ u : State, u.Linked cf → (u.radio r).state ≠ .up →
        (u.onRadio r RadioLink.takenOut).Linked (Function.update cf r new.configured) := fun u hu hd =>
      hu.onRadio hd (by rw [hn]; exact ⟨fun _ => rfl, fun _ => rfl⟩)
        (fun hs => ⟨fun _ => ⟨(hs.down hd).1, (hs.down hd).2.1, (hs.down hd).2.2.1, rfl⟩⟩)
        (fun hq => ⟨hq.urgent, hq.normal, hq.urgentOnce, hq.normalOnce⟩)
    rw [followRadio_removed hn ho]
    split
    · next hup =>
      exact hcut _ (h.radioLinkDown hup) (by rw [radioLinkDown_radio_self]; exact fun h => nomatch h)
    · next hup => exact hcut s h hup

theorem State.Linked.followTo {s : State} {old new : Nat → RadioConfig} (h : s.Linked (fun r => (old r).configured))
    {n : Nat} (hn : n ≤ 4) :
    (s.followTo old new n).Linked (fun r => if r < n then (new r).configured else (old r).configured) := by
  induction n with
  | zero => exact h
  | succ n ih =>
    have hstep := (ih (by omega)).followRadio (r := n) (by omega) (old := old n) (new := new n) (if_neg (by omega))
    rw [followTo_succ]
    convert hstep using 1
    funext r
    rw [Function.update_apply]
    by_cases hr : r = n
    · rw [hr, if_pos rfl, if_pos (Nat.lt_succ_self n)]
    · rw [if_neg hr]
      congr 1
      exact propext ⟨fun h => by omega, fun h => by omega⟩

end Sys2Proof.Machine
end

section
/-! The invariant (O60): SET_RADIO, and the catalogue of owners. -/

namespace Sys2Proof.Machine

theorem Relinked.bounded {s t : State} (h : Relinked s t) (hs : s.Bounded) (hlinked : t.Linked
    (fun r => (s.radioCfg r).configured)) (hclosed : t.rlcClosed = t.radioLoss) : t.Bounded := by
  have hrlc : t.rlcClosed = State.radioLoss { s with radios := t.radios, rlcClosed := t.rlcClosed } := hclosed
  have hbase : State.Bounded { s with radios := t.radios, rlcClosed := t.rlcClosed } :=
    { hs with radios := hlinked.sound, links := hlinked.links, rlc := hrlc }
  exact h.calm.bounded hbase

theorem State.Linked.linkReport {cf : Nat → Bool} {s : State} (h : s.Linked cf) : s.linkReport.Linked cf :=
  ⟨fun r => ((linkReport_within s).radios r).sound (h.sound r),
    fun r hr => by rw [((linkReport_within s).radios r).state]; exact h.links r hr, (linkReport_keeps s).tidy h.tidy⟩

theorem State.radioCfg_radioSet (u : State) (aging : Nat) (new : Nat → RadioConfig) {r : Nat} (hr : r < 4) :
    (u.radioSet aging new).radioCfg r = new r := by
  show (Table.get ⟨(List.range 4).map (fun r => (r, new r))⟩ r RadioConfig.default) = new r
  unfold Table.get
  rw [Table.get?_map_range, if_pos hr]
  rfl

/-- The part after SET_RADIO, whose links have followed and whose report has ended a change (R118). -/
theorem State.Inv.radioSet {u t : State} {aging : Nat} {new : Nat → RadioConfig} (hu : u.Inv)
    (hsame : (∀ r, r < 4 → (new r).configured = (u.radioCfg r).configured) →
      t = (u.radioSet aging new).followTo u.radioCfg new 4)
    (hdiffers : (¬ ∀ r, r < 4 → (new r).configured = (u.radioCfg r).configured) →
      t = ((u.radioSet aging new).followTo u.radioCfg new 4).linkReport) : t.Inv := by
  have hvalid : (u.radioSet aging new).cfg.validate = u.cfg.validate := rfl
  have hstart : (u.radioSet aging new).Linked (fun r => (u.radioCfg r).configured) :=
    ⟨hu.radios, hu.links, { hu.tidy with }⟩
  by_cases h : ∀ r, r < 4 → (new r).configured = (u.radioCfg r).configured
  · rw [hsame h, followTo_same _ _ _ (fun r hr => (h r hr).symm)]
    refine State.Bounded.inv { hu with links := fun r hr => ?_, berth := fun hm => ?_ } hstart.tidy
    · rw [State.radioCfg_radioSet u aging new hr, h r hr]
      exact hu.links r hr
    · exact hvalid.trans (hu.berth hm)
  · rw [hdiffers h]
    have hlinked := (hstart.followTo (new := new) (Nat.le_refl 4)).linkReport
    have hrelinked := (Relinked.followTo (u.radioSet aging new) u.radioCfg new 4).trans (.linkReport _)
    generalize hv : ((u.radioSet aging new).followTo u.radioCfg new 4).linkReport = v at hlinked hrelinked
    have hclosed : v.rlcClosed = v.radioLoss := by rw [← hv, linkReport_closed]
    refine State.Bounded.inv (hrelinked.calm.bounded ?_) hlinked.tidy
    have hrlc : v.rlcClosed =
        State.radioLoss { u.radioSet aging new with radios := v.radios, rlcClosed := v.rlcClosed } := hclosed
    refine { hu with radios := hlinked.sound, links := fun r hr => ?_, rlc := hrlc, berth := fun hm => ?_ }
    · have hcfg := State.radioCfg_radioSet u aging new hr
      have h := hlinked.links r hr
      rw [if_pos hr, ← hcfg] at h
      exact h
    · exact hvalid.trans (hu.berth hm)

/-- The four links' effective configurations. -/
theorem radioSettings_new (a : RadioArgs) : ∃ new : Nat → RadioConfig,
    (radioSettings a).map effectiveRadio = (List.range 4).map new :=
  ⟨fun r => ((radioSettings a).map effectiveRadio).getD r RadioConfig.default, rfl⟩

theorem ownSetRadio_sound (a : RadioArgs) : OwnerSound (ownSetRadio a) := by
  intro u hu
  have hrefused : ∀ {r : Reply}, ownSetRadio a u = (u, r) → (ownSetRadio a u).1.Inv ∧
      (∀ m, ((ownSetRadio a u).1.dlink m).replies = (u.dlink m).replies) ∧
      ∀ m, ((ownSetRadio a u).1.dlink m).up = (u.dlink m).up := fun h => by
    rw [h]
    exact ⟨hu, fun _ => rfl, fun _ => rfl⟩
  obtain hbits | ⟨pre, x, post, hsplit, hpre, hx⟩ := radioSettings_cases (radioSettings a)
  · obtain ⟨new, hnew⟩ := radioSettings_new a
    by_cases hm : u.mode = .config ∨ ∀ r, r < 4 → (new r).configured = (u.radioCfg r).configured
    · obtain ⟨t, hown, hs, hc⟩ := ownSetRadio_ok hbits hnew hm
      have hreports := applied_reports ((em _).imp hs hc)
      rw [hown]
      exact ⟨hu.radioSet hs hc, fun m => (hreports.dlinks m).replies, fun m => (hreports.dlinks m).up⟩
    · rw [not_or] at hm
      exact hrefused (ownSetRadio_badMode hbits hnew hm.1 hm.2)
  · exact hrefused (ownSetRadio_badValue hsplit hpre hx)

/-! ## The catalogue (R147) -/

/-- The queries change nothing (R11, R46, R73, R116, R131, R143, R154). -/
theorem ownQueryLink_same (sel : Nat) (t : State) : (ownQueryLink sel t).1 = t := by
  unfold ownQueryLink
  repeat' split
  all_goals rfl

theorem ownQuerySegment_same (i : Nat) (t : State) : (ownQuerySegment i t).1 = t := by
  unfold ownQuerySegment
  split <;> rfl

theorem ownQueryCarrier_same (c : Nat) (t : State) : (ownQueryCarrier c t).1 = t := by
  unfold ownQueryCarrier
  split
  · rfl
  · split <;> rfl

theorem ownQueryCrane_same (k : Nat) (t : State) : (ownQueryCrane k t).1 = t := by
  unfold ownQueryCrane
  split
  · rfl
  · split <;> rfl

theorem ownerOf_sound {i : Instr} {o : Owner} (h : ownerOf i = some o) : OwnerSound o := by
  cases i <;> cases h
  case heartbeat l => exact .of_same (fun _ => rfl)
  case setDispatch l a b => exact ownSetDispatch_sound a b
  case queryLink l sel => exact .of_same (ownQueryLink_same sel)
  case setGrid l x y => exact ownSetGrid_sound x y
  case setSegment l a => exact ownSetSegment_sound a
  case queryGrid l => exact .of_same (fun _ => rfl)
  case routeRequest l a => exact ownRouteRequest_sound l a
  case routeExtend l c stop ids => exact ownRouteExtend_sound c stop ids
  case routeCancel l c => exact ownRouteCancel_sound c
  case pendingCancel l c => exact ownPendingCancel_sound c
  case segmentBlock l r => exact ownBlock_sound 0x2A r true
  case segmentUnblock l r => exact ownBlock_sound 0x2B r false
  case querySegment l i => exact .of_same (ownQuerySegment_same i)
  case registerCarrier l c k => exact ownRegister_sound c k
  case deregisterCarrier l c => exact ownDeregister_sound c
  case setClass l a => exact ownSetClass_sound a
  case recoverCarrier l c => exact ownRecover_sound c
  case releaseFrozen l c => exact ownReleaseFrozen_sound c
  case clearEmergency l c => exact ownClearEmergency_sound c
  case queryCarrier l c => exact .of_same (ownQueryCarrier_same c)
  case setCrane l k sel g o => exact ownSetCrane_sound k sel g o
  case setCraneOperating l k o => exact .of_steady fun t _ => ownSetCraneOperating_steady k o t
  case clearCrane l k => exact ownClearCrane_sound k
  case queryCrane l k => exact .of_same (ownQueryCrane_same k)
  case setRadio l a => exact ownSetRadio_sound a
  case flushRouting l => exact ownFlushRouting_sound
  case broadcastConfig l a => exact ownBroadcastConfig_sound a
  case broadcastTrigger l => exact ownBroadcastTrigger_sound
  case queryBroadcast l => exact .of_same (fun _ => rfl)
  case setCopyRule l a => exact ownSetCopyRule_sound a
  case activate l t => exact ownActivate_sound t
  case enterConfig l => exact ownEnterConfig_sound
  case saveSettings l => exact ownSaveSettings_sound

/-- Whatever a dispatch frame reads as (R147 steps 3 to 5). -/
theorem frameOwner_sound (l : DLink) (kind : Nat) (payload : List Byte) : OwnerSound (frameOwner l kind payload) := by
  unfold frameOwner
  split
  · exact ownBadKind_sound l kind
  · exact .of_same (fun _ => rfl)
  · next i _ =>
    cases h : ownerOf i with
    | none => exact ownBadKind_sound l kind
    | some o => exact ownerOf_sound h

end Sys2Proof.Machine
end

section
/-! The invariant (O60): the links' own events, frames of carriers and cranes, and the timers. -/

namespace Sys2Proof.Machine

/-! ## Dispatch links (R144, R149, R152) -/

theorem DispatchLink.Sound.lose {d : DispatchLink} (h : d.Sound) : d.lose.Sound :=
  ⟨Nat.zero_le _, h.notifs, fun ht => (nomatch ht), h.drops, fun _ => ⟨rfl, rfl, rfl⟩⟩

theorem DispatchLink.Sound.complete {d : DispatchLink} (h : d.Sound) (now : Time) (key : Nat) :
    (d.complete now key).Sound := by
  obtain ⟨hup, htimer, hreplies, htx⟩ := d.complete_rest now key
  refine ⟨by rw [hreplies]; exact h.replies, DispatchLink.complete_notifs_le now key d h.notifs,
    fun ht => absurd (htx.symm.trans ht) (fun h => nomatch h), ?_, fun hd => ?_⟩
  · unfold DispatchLink.complete
    split
    · exact h.drops
    · exact h.drops
    · rw [DispatchLink.reportDrops_eq]
      split
      · exact h.drops
      · exact ⟨fun _ => rfl, fun _ => rfl⟩
  · obtain ⟨hr, -, ht⟩ := h.down (hup ▸ hd)
    exact ⟨hreplies.trans hr, htx, htimer.trans ht⟩

theorem loseDispatch_keeps (s : State) (l : DLink) : Keeps s (s.loseDispatch l) := by
  unfold State.loseDispatch
  have hloss : ∀ u : State, ∀ t, Keeps u { u with lossSince := t } := fun u t => .of_eq rfl rfl rfl rfl rfl rfl rfl
  exact (dropWaiting_steady s 2).keeps.trans ((hloss _ _).trans ((setDlc_keeps _ true).trans (post_keeps _ _ _ _)))

/-- The loss of a dispatch link (R144), with dispatch loss where the other is DOWN too (R152). -/
theorem State.Inv.expireDispatch {s : State} (hs : s.Inv) (l : DLink) : (s.expireDispatch l).Inv := by
  have hsound : ∀ m, ((s.onDlink l DispatchLink.lose).dlink m).Sound := by
    intro m
    rw [State.dlink_onDlink]
    split
    · exact (hs.dispatch l).lose
    · exact hs.dispatch m
  have hself : ((s.onDlink l DispatchLink.lose).dlink l).up = false := by rw [State.dlink_onDlink_self]; rfl
  have hother := s.dlink_onDlink_other l DispatchLink.lose
  have htidy := (onDlink_keeps s l DispatchLink.lose).tidy hs.tidy
  unfold State.expireDispatch
  split
  · next hdue =>
    simp only
    split
    · next hup =>
      refine State.Bounded.inv { hs.toBounded with dispatch := hsound, loss := ?_ } htidy
      have hloss : s.lossSince.isSome = false := by
        rw [hs.loss]
        rw [hother] at hup
        cases l <;> simp_all [DLink.other]
      refine hloss.trans ?_
      cases l <;> simp_all [DLink.other]
    · next hdown =>
      have hbase : State.Bounded { s.onDlink l DispatchLink.lose with
          waiting := [], lossSince := some s.now, dlcClosed := true } := by
        refine { hs.toBounded with dispatch := hsound, waiting := Nat.zero_le _, loss := ?_, dlc := rfl
                                   quiet := fun _ => rfl }
        show true = (!((s.onDlink l DispatchLink.lose).dlink .a).up && !((s.onDlink l DispatchLink.lose).dlink .b).up)
        cases l <;> simp_all [DLink.other]
      exact ((loseDispatch_within (s.onDlink l DispatchLink.lose) l).calm.bounded hbase).inv
        ((loseDispatch_keeps _ l).tidy htidy)
  · exact hs

/-! ## Radio frames (R119, R122) -/

/-- Counters and the receiver of a radio link. -/
theorem State.Inv.countRadio {s : State} (hs : s.Inv) (r : Nat) (f : RadioLink → RadioLink)
    (h : ∀ l, ∃ rx good crc dup un, f l = { l with
      rx := rx, good := good, crcErrors := crc, duplicates := dup, unusable := un }) : (s.onRadio r f).Inv := by
  obtain ⟨rx, good, crc, dup, un, hf⟩ := h (s.radio r)
  have hsteady : Steady s (s.onRadio r f) := by
    refine ⟨onRadio_calm s r f ?_ ?_, onRadio_keeps s r f ?_ ?_, fun _ => rfl⟩
    all_goals rw [hf]
    · exact fun h => ⟨h.down⟩
    · exact fun h => ⟨h.urgent, h.normal, h.urgentOnce, h.normalOnce⟩
  exact hsteady.inv hs

/-- A link state report after a change of the radio links (R40). -/
theorem State.Inv.linkReport {s t : State} (hs : s.Inv) (h : Relinked s t)
    (hlinked : t.Linked (fun r => (s.radioCfg r).configured)) : t.linkReport.Inv :=
  ((h.trans (.linkReport t)).bounded hs.toBounded hlinked.linkReport (linkReport_closed t)).inv hlinked.linkReport.tidy

theorem linkReport_radio_state (s : State) (r : Nat) : (s.linkReport.radio r).state = (s.radio r).state :=
  ((linkReport_within s).radios r).state

/-- A frame that is counted and restarts the timer of a configured link. -/
theorem State.Inv.radioArrival {s : State} (hs : s.Inv) {r : Nat} (hr : r < 4) : (s.radioArrival r).Inv := by
  have hqueues : ∀ n, (s.radio r).Coalesced → ((s.radio r).countGood.comeUp n).Coalesced :=
    fun n h => ⟨h.urgent, h.normal, h.urgentOnce, h.normalOnce⟩
  cases hst : (s.radio r).state with
  | unconfigured =>
    unfold State.radioArrival
    rw [hst]
    exact hs.countRadio r _ (fun l => ⟨_, _, _, _, _, rfl⟩)
  | up =>
    rw [radioArrival_up s r hst]
    have hsteady : Steady s (s.onRadio r (fun l => l.countGood.comeUp (s.radioCfg r).timeout)) :=
      ⟨onRadio_calm s r _ hst.symm (fun _ => ⟨fun h => absurd rfl h⟩), onRadio_keeps s r _ hst.symm (hqueues _),
        fun _ => rfl⟩
    exact hsteady.inv hs
  | down =>
    rw [radioArrival_down s r hst]
    have hlinked : State.Linked (fun r => (s.radioCfg r).configured)
        (s.onRadio r (fun l => l.countGood.comeUp (s.radioCfg r).timeout)) := by
      refine ⟨fun k => ?_, fun k hk => ?_, hs.tidy.onRadio (fun _ => rfl) (hqueues _)⟩
      · rw [State.radio_onRadio]
        split
        · exact ⟨fun h => absurd rfl h⟩
        · exact hs.radios k
      · have h := hs.links k hk
        rw [State.radio_onRadio]
        split
        · next hkr =>
          subst hkr
          rw [← h, hst]
          exact ⟨fun h => (nomatch h), fun h => (nomatch h)⟩
        · exact h
    have hpost : State.Linked (fun r => (s.radioCfg r).configured) ((s.onRadio r (fun l =>
        l.countGood.comeUp (s.radioCfg r).timeout)).post .radioUp (.link (radioSelector r)) []) :=
      ⟨hlinked.sound, hlinked.links, (post_keeps _ _ _ _).tidy hlinked.tidy⟩
    exact hs.linkReport ((Relinked.onRadio s r _).trans (.of_frame (post_within _ _ _ _))) hpost

/-- After a frame on a configured link that link is UP (R119). -/
theorem radioArrival_state {s : State} {r : Nat} (h : (s.radio r).state ≠ .unconfigured) :
    ((s.radioArrival r).radio r).state = .up := by
  cases hst : (s.radio r).state with
  | unconfigured => exact absurd hst h
  | up => rw [radioArrival_up s r hst, State.radio_onRadio, if_pos rfl]; rfl
  | down =>
    rw [radioArrival_down s r hst, linkReport_radio_state, State.radio_post, State.radio_onRadio, if_pos rfl]
    rfl

theorem State.Inv.sortRadio {s : State} (hs : s.Inv) {r : Nat} (hr : r < 4) {f : State → State}
    (hf : ∀ t : State, t.Inv → (t.radio r).state = .up → (f t).Inv) : (s.sortRadio r f).Inv := by
  unfold State.sortRadio
  split
  · exact hs.radioArrival hr
  · next h => exact hf _ (hs.radioArrival hr) (radioArrival_state h)

theorem copyFrame_steady (s : State) (radio : Nat) (f : CopyFrame) : Steady s (s.copyFrame radio f) := by
  have hoffer : ∀ (s : State) (l : DLink) (e : Notif), Steady s (s.offer l e) := fun s l e =>
    .of_within (offer_pictured s l e).within (.of_eq rfl rfl rfl rfl rfl rfl rfl)
  have hcopy : ∀ (s : State) (l : DLink), Steady s (State.copyTo s radio f l) := by
    intro s l
    unfold State.copyTo
    simp only
    split
    · exact .refl s
    · exact hoffer _ _ _
  exact (hcopy s .a).trans (hcopy _ .b)

theorem State.Inv.takeEvent {s : State} (hs : s.Inv) (r : Nat) (a : EventArgs) : (s.takeEvent r a).Inv := by
  unfold State.takeEvent
  split
  · exact hs.countRadio r _ (fun l => ⟨_, _, _, _, _, rfl⟩)
  · split
    · exact hs.countRadio r _ (fun l => ⟨_, _, _, _, _, rfl⟩)
    · exact (copyFrame_steady _ r _).inv { hs with }

/-! ## Position reports (R55, R57, R123) -/

theorem reportRequest_steady (s : State) (c : Nat) (body : Work → Work) (hw : ∀ w, Work.Within w (body w))
    (hk : Work.Keeps (Work.start s (some c)) (body (Work.start s (some c)))) : Steady s (s.reportRequest c body) :=
  .of_within ((hw (Work.start s (some c))).trans (Work.finish_within _)) (reportRequest_keeps s c body hk)

theorem unknownReport_steady (s : State) (radio c : Nat) : Steady s (s.unknownReport radio c) := by
  have hcount : ∀ (u : State) n t, Steady u { u with unregistered := n, unknownTimes := t } := fun u n t =>
    ⟨{ Calm.refl u with }, .of_eq rfl rfl rfl rfl rfl rfl rfl, fun _ => rfl⟩
  unfold State.unknownReport
  simp only
  split
  · exact (hcount s _ _).trans (post_steady _ _ _ _)
  · exact hcount s _ _

theorem onCarrier_steady (s : State) (c : Nat) (f : Carrier → Carrier) (hf : ∀ r, (f r).state = r.state) :
    Steady s (s.onCarrier c f) :=
  .of_within (onCarrier_within s c f) (onCarrier_keeps s c f (fun r _ h => (hf r).trans h))

theorem earlyReport_steady (s : State) (c : Nat) (r : Carrier) (p : Report) : Steady s (s.earlyReport c r p) := by
  have hcount := onCarrier_steady s c (fun r => { r with earlyCount := bump16 r.earlyCount }) (fun _ => rfl)
  unfold State.earlyReport
  simp only
  split
  · exact hcount.trans (request_steady _ _ (fun w => w.enterEmergency_within _ _ _)
      (Work.enterEmergency_keeps _ _ _ _))
  · split
    · exact hcount
    · exact hcount.trans ((onCarrier_steady _ c (fun r => { r with earlyRun := true }) (fun _ => rfl)).trans
        (post_steady _ _ _ _))

section
variable {s : State} {c radio : Nat} {r : Carrier} {p : Report}

theorem judgeReport_config (hm : s.mode = .config) :
    s.judgeReport c radio r p = (s.reportRequest c (fun w => w.addressing c radio p), .addressing) := if_pos hm

theorem judgeReport_entry (hm : s.mode ≠ .config) (hst : r.state = .offline ∨ r.state = .away) :
    s.judgeReport c radio r p =
      (s.reportRequest c (fun w => (w.acceptReport c radio p false).entryReport c r.state p), .entry) := by
  unfold State.judgeReport
  rw [if_neg hm]
  rcases hst with hst | hst <;> rw [hst]

theorem judgeReport_lost (hm : s.mode ≠ .config) (hst : r.state = .lost) :
    s.judgeReport c radio r p = (s.reportRequest c (fun w => w.sight c radio p), .sighting) := by
  unfold State.judgeReport
  rw [if_neg hm, hst]

theorem judgeReport_missing (hm : s.mode ≠ .config) (hst : r.state = .missing) :
    s.judgeReport c radio r p = (s.reportRequest c (fun w =>
      ((w.acceptReport c radio p true).restore c r).handleReport c r.front p), .accepted) := by
  unfold State.judgeReport
  rw [if_neg hm, hst]

theorem judgeReport_window (hm : s.mode ≠ .config)
    (hst : r.state = .idle ∨ r.state = .authorized ∨ r.state = .emergency) (hw : r.inWindow = true) :
    s.judgeReport c radio r p = (s.reportRequest c (fun w =>
      (w.acceptReport c radio p true).handleReport c r.front p), .accepted) := by
  unfold State.judgeReport
  rw [if_neg hm]
  rcases hst with hst | hst | hst <;> rw [hst] <;> exact if_pos hw

theorem judgeReport_early (hm : s.mode ≠ .config)
    (hst : r.state = .idle ∨ r.state = .authorized ∨ r.state = .emergency) (hw : r.inWindow = false) :
    s.judgeReport c radio r p = (s.earlyReport c r p, .early) := by
  unfold State.judgeReport
  rw [if_neg hm]
  rcases hst with hst | hst | hst <;> rw [hst] <;> exact if_neg (by simp [hw])

end

theorem judgeReport_steady {s : State} {c radio : Nat} {r : Carrier} {p : Report} (hup : (s.radio radio).state = .up)
    (hr : s.carrier? c = some r) : Steady s (s.judgeReport c radio r p).1 := by
  have haccept := fun b => Work.acceptReport_keeps (Work.start s (some c)) c radio p b hup
  have hhandled : ∀ b, Steady s (s.reportRequest c (fun w =>
      (w.acceptReport c radio p b).handleReport c r.front p)) := fun b =>
    reportRequest_steady s c _ (fun w => (w.acceptReport_within c radio p b).trans (Work.handleReport_within _ _ _ _))
      ((haccept b).trans (Work.handleReport_keeps _ _ _ _))
  have hentry : Steady s (s.reportRequest c (fun w =>
      (w.acceptReport c radio p false).entryReport c r.state p)) :=
    reportRequest_steady s c _ (fun w => (w.acceptReport_within c radio p false).trans (Work.entryReport_within _ _ _ _))
      ((haccept false).trans (Work.entryReport_keeps _ _ _ _))
  have hback : r.state = .missing → Steady s (s.reportRequest c (fun w =>
      ((w.acceptReport c radio p true).restore c r).handleReport c r.front p)) := by
    intro hmissing
    refine reportRequest_steady s c _ (fun w => (w.acceptReport_within c radio p true).trans
        ((Work.restore_within _ _ _).trans (Work.handleReport_within _ _ _ _)))
      ((haccept true).trans ((Work.restore_keeps _ c r (fun x hx => ?_)).trans (Work.handleReport_keeps _ _ _ _)))
    obtain ⟨y, hy, hstate⟩ := Work.state_acceptReport hx
    have hyr : y = r := Option.some.inj (hy.symm.trans hr)
    rw [hstate, hyr, hmissing]
    exact fun h => nomatch h
  have haddressing : Steady s (s.reportRequest c (fun w => w.addressing c radio p)) :=
    reportRequest_steady s c _ (fun w => w.addressing_within c radio p) (Work.addressing_keeps _ c radio p hup)
  have hsight : Steady s (s.reportRequest c (fun w => w.sight c radio p)) :=
    reportRequest_steady s c _ (fun w => w.sight_within c radio p) (Work.sight_keeps _ c radio p hup)
  have hwindow : r.state = .idle ∨ r.state = .authorized ∨ r.state = .emergency → s.mode ≠ .config →
      Steady s (s.judgeReport c radio r p).1 := by
    intro hst hm
    cases hw : r.inWindow with
    | true =>
      rw [judgeReport_window hm hst hw]
      exact hhandled true
    | false =>
      rw [judgeReport_early hm hst hw]
      exact earlyReport_steady s c r p
  by_cases hm : s.mode = .config
  · rw [judgeReport_config hm]
    exact haddressing
  · cases hst : r.state with
    | offline =>
      rw [judgeReport_entry hm (.inl hst)]
      exact hentry
    | away =>
      rw [judgeReport_entry hm (.inr hst)]
      exact hentry
    | lost =>
      rw [judgeReport_lost hm hst]
      exact hsight
    | missing =>
      rw [judgeReport_missing hm hst]
      dsimp only
      exact hback hst
    | idle => exact hwindow (.inl hst) hm
    | authorized => exact hwindow (.inr (.inl hst)) hm
    | emergency => exact hwindow (.inr (.inr hst)) hm

theorem State.Inv.takeReport {s : State} (hs : s.Inv) {r : Nat} (hup : (s.radio r).state = .up) (a : ReportArgs) :
    (s.takeReport r a).Inv := by
  unfold State.takeReport
  split
  · exact (unknownReport_steady s r a.carrier).inv hs
  · next c hc =>
    split
    · exact hs.countRadio r RadioLink.countDuplicate (fun l => ⟨_, _, _, _, _, rfl⟩)
    · have h := judgeReport_steady (p := prepare a) hup hc
      exact (h.trans (copyFrame_steady _ r _)).inv hs

end Sys2Proof.Machine
end

section
/-! The invariant (O59, O60): RESET, crane frames, the timers, and every step. -/

namespace Sys2Proof.Machine

/-! ## RESET (R168) -/

theorem boot_radio_out (i : Image) (p : List Instr) {r : Nat} (hr : ¬ r < 4) :
    (State.boot i p).radio r = RadioLink.fresh .unconfigured := by
  have h := Table.get?_map_range (fun r => RadioLink.atReset (i.loaded.radios.get r RadioConfig.default)) 4 r
  rw [if_neg hr] at h
  show Table.get _ r _ = _
  unfold Table.get
  erw [h]
  rfl

/-- Every radio link after RESET is as new, UP for none. -/
theorem boot_radio_fresh (i : Image) (p : List Instr) (r : Nat) :
    (State.boot i p).radio r = RadioLink.fresh .down ∨ (State.boot i p).radio r = RadioLink.fresh .unconfigured := by
  by_cases hr : r < 4
  · rw [boot_radio i p hr]
    split
    · exact .inl rfl
    · exact .inr rfl
  · exact .inr (boot_radio_out i p hr)

theorem boot_links (i : Image) (p : List Instr) {r : Nat} (hr : r < 4) :
    ((State.boot i p).radio r).state = .unconfigured ↔ ((State.boot i p).radioCfg r).configured = false := by
  rw [boot_radio i p hr]
  cases ((State.boot i p).radioCfg r).configured
  · exact ⟨fun _ => rfl, fun _ => rfl⟩
  · exact ⟨fun h => (nomatch h), fun h => (nomatch h)⟩

/-- Radio-loss closure is in force after RESET with a configured link, each of which is DOWN (R40). -/
theorem boot_rlcClosed (i : Image) (p : List Instr) : (State.boot i p).rlcClosed = (State.boot i p).radioLoss := by
  show (List.range 4).any (fun r => ((State.boot i p).radioCfg r).configured) = _
  unfold State.radioLoss
  rw [Bool.eq_iff_iff, List.any_eq_true, List.any_eq_true]
  refine exists_congr fun r => and_congr_right fun hr => ?_
  rw [boot_radio i p (List.mem_range.1 hr)]
  cases ((State.boot i p).radioCfg r).configured <;> decide

theorem boot_dlink (i : Image) (p : List Instr) (l : DLink) : (State.boot i p).dlink l = DispatchLink.fresh :=
  reset_dlink l

theorem boot_crane (i : Image) (p : List Instr) (k : Nat) : (State.boot i p).crane k = Crane.fresh 0 0 0 := reset_crane k

theorem boot_craneLink (i : Image) (p : List Instr) (k : Nat) : (State.boot i p).craneLink k = CraneLink.fresh :=
  reset_craneLink k

theorem boot_bounded (i : Image) (p : List Instr) : (State.boot i p).Bounded where
  dispatch l := by
    rw [boot_dlink]
    exact ⟨Nat.zero_le _, Nat.zero_le _, fun h => (nomatch h), ⟨fun _ => rfl, fun _ => rfl⟩, fun _ => ⟨rfl, rfl, rfl⟩⟩
  radios r := by
    rcases boot_radio_fresh i p r with h | h <;> rw [h] <;> exact ⟨fun _ => ⟨rfl, rfl, rfl, rfl⟩⟩
  links r hr := boot_links i p hr
  cranes k := by
    rw [boot_craneLink]
    exact Nat.zero_le _
  waiting := Nat.zero_le _
  loss := by
    rw [boot_dlink, boot_dlink]
    rfl
  dlc := rfl
  rlc := boot_rlcClosed i p
  save h := nomatch h
  recovery := by
    show (if i.startMode = .recovery then some (0 : Time) else none).isSome = decide (i.startMode = .recovery)
    split
    · next h => rw [h]; rfl
    · next h => rw [decide_eq_false h]; rfl
  sorted := Table.sorted_map_range _ _
  quiet _ := rfl
  berth h := by
    rw [boot_mode] at h
    split at h
    · next hv =>
      show i.loaded.validate = none
      rw [Image.loaded, if_pos hv.1]
      exact hv.2
    · exact absurd rfl h

theorem boot_tidy (i : Image) (p : List Instr) : (State.boot i p).Tidy where
  queues r := by
    rcases boot_radio_fresh i p r with h | h <;> rw [h] <;>
      exact ⟨fun _ h => (nomatch h), fun _ h => (nomatch h), .nil, .nil⟩
  commands k := by
    rw [boot_craneLink]
    exact .nil
  learned x hx := nomatch hx
  once := .nil
  idle e he := nomatch he
  locks j := by
    refine SegDyn.Reasoned.of_lock (a := SegDyn.fresh) ⟨Table.sorted_empty, fun x hx => nomatch hx⟩ ?_
    exact lock_freshSegs (State.boot i p) j
  claims k := by
    rw [boot_crane]
    exact fun _ => rfl

theorem boot_inv (i : Image) (p : List Instr) : (State.boot i p).Inv := (boot_bounded i p).inv (boot_tidy i p)

/-- The state of reset is that of RESET without a valid image. -/
theorem reset_eq_boot : State.reset = State.boot Image.blank [] := rfl

/-- Settles O59. -/
theorem resetIsSound : Obligations.ResetIsSound := by
  unfold Obligations.ResetIsSound
  rw [reset_eq_boot]
  exact boot_inv _ _

end Sys2Proof.Machine
end

section
/-! The invariant (O60): crane frames, the timers, and every step. -/

namespace Sys2Proof.Machine

/-! ## Crane frames (R98, R108) -/

/-- Counters and the receiver of a crane link. -/
theorem State.Inv.countCraneLink {s : State} (hs : s.Inv) (k : Nat) (f : CraneLink → CraneLink)
    (h : ∀ l, (f l).queue = l.queue) : (s.onCraneLink k f).Inv := by
  have hreplies : (f (s.craneLink k)).replies = (s.craneLink k).replies := by unfold CraneLink.replies; rw [h]
  have hsteady : Steady s (s.onCraneLink k f) :=
    ⟨onCraneLink_calm s k f (fun hk => hreplies ▸ hk),
      onCraneLink_keeps s k f (fun hd => by unfold CraneLink.Distinct; rw [h]; exact hd), fun _ => rfl⟩
  exact hsteady.inv hs

/-- A change of a crane record that leaves the crane's state and claim. -/
theorem State.Inv.onCrane {s : State} (hs : s.Inv) (k : Nat) (f : Crane → Crane)
    (hf : ∀ c, (f c).state = c.state ∧ (f c).claim = c.claim) : (s.onCrane k f).Inv := by
  have hsteady : Steady s (s.onCrane k f) := by
    refine ⟨{ Calm.refl s with }, onCrane_keeps s k f (fun hc hst => ?_), fun _ => rfl⟩
    rw [(hf _).2]
    exact hc ((hf _).1 ▸ hst)
  exact hsteady.inv hs

theorem State.Inv.craneArrival {s : State} (hs : s.Inv) (k : Nat) : (s.craneArrival k).Inv :=
  (hs.countCraneLink k (fun l => { l with rx := Receiver.hunting }) (fun _ => rfl)).onCrane k (fun c => { c with
    frames := bump16 c.frames
    timer := if (s.craneCfg k).present && c.state.supervised then some (s.craneCfg k).timeout else c.timer })
    (fun _ => ⟨rfl, rfl⟩)

theorem State.Inv.craneUnusable {s : State} (hs : s.Inv) (k : Nat) : (s.craneUnusable k).Inv :=
  hs.countCraneLink k (fun l => { l with unusable := bump16 l.unusable }) (fun _ => rfl)

theorem State.Inv.takeCrane {s : State} (hs : s.Inv) (k : Nat) {f : State → State}
    (hf : ∀ t : State, t.Inv → (f t).Inv) : (s.takeCrane k f).Inv := by
  unfold State.takeCrane
  split
  · exact hf _ (hs.craneArrival k)
  · exact hs.craneArrival k

theorem length_filter_joinQueue_le {α : Type} (p q : α → Bool) (x : α) (l : List α) :
    ((joinQueue p x l).filter q).length ≤ (l.filter q).length + 1 := by
  induction l with
  | nil => exact (List.length_filter_le q [x])
  | cons y rest ih =>
    unfold joinQueue
    split
    · have h := List.length_filter_le q [x]
      have hx := List.filter_append (p := q) [x] rest
      have hy := ((List.sublist_cons_self y rest).filter q).length_le
      rw [List.singleton_append] at hx
      rw [hx, List.length_append]
      exact Nat.le_trans (Nat.add_le_add h hy) (Nat.le_of_eq (Nat.add_comm _ _))
    · rw [List.filter_cons, List.filter_cons]
      split
      · exact Nat.succ_le_succ ih
      · exact ih

/-- One reply joins a crane link that has room for it (R108). -/
theorem State.Inv.craneReply {s : State} (hs : s.Inv) (k : Nat) (r : Reply) (hroom : (s.craneLink k).replies < 16) :
    (s.craneSend k (.reply r)).Inv := by
  have hsteady : Steady s (s.craneSend k (.reply r)) := by
    refine ⟨onCraneLink_calm s k _ (fun _ => ?_), craneSend_keeps s k _, fun _ => rfl⟩
    exact Nat.le_trans (CraneLink.transmit_fed _).replies
      (Nat.le_trans (length_filter_joinQueue_le _ _ _ _) hroom)
  exact hsteady.inv hs

/-- The request of a crane whose owner keeps within the frame of a request (R98). -/
theorem State.Inv.craneRequest {s : State} (hs : s.Inv) (k : Nat) {o : Owner}
    (hwithin : ∀ t, Within t (o t).1) (hkeeps : ∀ t, Keeps t (o t).1) : (s.craneRequest k o).Inv := by
  refine hs.takeCrane k fun t ht => ?_
  dsimp only
  split
  · exact ht.craneUnusable k
  · next hroom =>
    exact ((Steady.of_within (hwithin t) (hkeeps t)).inv ht).craneReply k _
      (Nat.lt_of_le_of_lt ((hwithin t).craneLinks k).replies (Nat.lt_of_not_le hroom))

theorem Work.addLock_cranes (w : Work) (k i : Nat) (rs : Reasons) : (w.addLock k i rs).s.cranes = w.s.cranes := by
  have hseg : ∀ v : Work, (v.onSeg i (SegDyn.addLock k rs)).s.cranes = v.s.cranes := fun v => by
    unfold Work.onSeg
    rw [Work.setSeg_rest]
  unfold Work.addLock
  simp only [hseg]
  split
  · split
    · exact (w.enterEmergency_holdsOnly _ _ _).cranes
    · rfl
  · rfl

theorem lowerChecks_standing {s : State} {k t i : Nat} (h : s.lowerChecks k t = .ok i) :
    (s.crane k).state = .standing := by
  unfold State.lowerChecks at h
  by_contra hne
  simp only [hne, not_false_eq_true, ne_eq, if_true] at h
  split at h
  · cases h
  · split at h <;> cases h

theorem ownLower_within (k t : Nat) (s : State) : Within s (ownLower k t s).1 := by
  unfold ownLower
  split
  · exact .refl s
  · next i _ =>
    dsimp only
    exact request_within _ _ (fun w => (w.addLock_within k i Reasons.ofClaim).trans (Work.onCrane_within _ _ _))

theorem ownLower_keeps (k t : Nat) (s : State) : Keeps s (ownLower k t s).1 := by
  unfold ownLower
  split
  · exact .refl s
  · next i hchecks =>
    dsimp only
    refine request_keeps s _ ((Work.addLock_keeps _ k i (by decide)).trans (Work.onCrane_keeps _ k _ fun _ hst => ?_))
    have hcrane : ((Work.start s none).addLock k i Reasons.ofClaim).s.crane k = s.crane k := by
      unfold State.crane
      rw [Work.addLock_cranes]
      rfl
    rw [hcrane] at hst
    exact absurd (hst.symm.trans (lowerChecks_standing hchecks)) (fun h => nomatch h)

theorem ownRelease_within (k : Nat) (s : State) : Within s (ownRelease k s).1 := by
  unfold ownRelease
  dsimp only
  split
  · exact .refl s
  · split
    · exact .refl s
    · split
      · exact .refl s
      · split
        · exact .refl s
        · dsimp only
          exact request_within _ _ (fun w => (w.endClaim_within _ _).trans (Work.onCrane_within _ _ _))

theorem ownRelease_keeps (k : Nat) (s : State) : Keeps s (ownRelease k s).1 := by
  unfold ownRelease
  dsimp only
  split
  · exact .refl s
  · split
    · exact .refl s
    · split
      · exact .refl s
      · split
        · exact .refl s
        · dsimp only
          exact request_keeps _ _ ((Work.endClaim_keeps _ _ _).trans (Work.onCrane_keeps _ k _ (fun _ _ => rfl)))

theorem gantryChecks_ok {s : State} {k b : Nat} {cells : List Nat} (h : s.gantryChecks k b = .ok cells) :
    (s.crane k).claim = none := by
  unfold State.gantryChecks at h
  by_contra hne
  simp only [Option.isSome_iff_ne_none.2 hne, if_true] at h
  repeat' split at h
  all_goals cases h

theorem ownGantry_within (k b : Nat) (s : State) : Within s (ownGantry k b s).1 := by
  unfold ownGantry
  split
  · exact .refl s
  · next cells _ =>
    dsimp only
    exact request_within _ _ (fun w => (w.takeTravel_within k cells).trans (Work.onCrane_within _ _ _))

theorem ownGantry_keeps (k b : Nat) (s : State) : Keeps s (ownGantry k b s).1 := by
  unfold ownGantry
  split
  · exact .refl s
  · next cells hchecks =>
    dsimp only
    refine request_keeps s _ (Work.KeepsBut.trans (Work.onSegs_lock_keeps _ _ _)
      (Work.onCrane_keeps _ k _ fun _ _ => ?_))
    have hcrane : ((Work.start s none).takeTravel k cells).s.crane k = s.crane k := by
      unfold Work.takeTravel
      rw [Work.onSegs_rest]
      rfl
    show (((Work.start s none).takeTravel k cells).s.crane k).claim = none
    rw [hcrane]
    exact gantryChecks_ok hchecks

theorem State.Inv.takeCraneReport {s : State} (hs : s.Inv) (k : Nat) (a : CraneReportArgs) :
    (s.takeCraneReport k a).Inv := by
  unfold State.takeCraneReport
  split
  · exact hs.onCrane k _ (fun _ => ⟨rfl, rfl⟩)
  · have hstored := hs.onCrane k (fun c => { c with
      lastSeq := some a.seq, trolley := readTrolley a.trolley, height := a.height, flags := readCraneFlags a.flags })
      (fun _ => ⟨rfl, rfl⟩)
    dsimp only
    split
    · exact (Steady.of_within (hoistStop_within _ k) (craneSend_keeps _ _ _)).inv hstored
    · exact (request_steady _ _ (fun w => w.craneReport_within _ _ _) (Work.craneReport_keeps _ _ _ _)).inv hstored

end Sys2Proof.Machine
end

section
/-! The invariant (O60): the timers, bytes on a link, and every step. -/

namespace Sys2Proof.Machine

/-! ## The part's own events -/

theorem State.Inv.expireRadio {s : State} (hs : s.Inv) (r : Nat) : (s.expireRadio r).Inv := by
  unfold State.expireRadio
  split
  · next h =>
    have hup : (s.radio r).state = .up := of_decide_eq_true (Bool.and_eq_true _ _ ▸ h).1
    have hlinked := hs.linked.radioLinkDown hup
    exact ((Relinked.radioLinkDown s r).bounded hs.toBounded hlinked (radioLinkDown_closed s r)).inv hlinked.tidy
  · exact hs

theorem completeRadio_steady (s : State) (r : Nat) : Steady s (s.completeRadio r) := by
  have htransmit : ∀ t : State, Steady t (t.onRadio r (fun l => RadioLink.transmit { l with sending := none })) := by
    intro t
    have hsound : (t.radio r).Sound → RadioLink.Sound { t.radio r with sending := none } := fun h =>
      ⟨fun hd => ⟨(h.down hd).1, (h.down hd).2.1, rfl, (h.down hd).2.2.2⟩⟩
    have hstate := (RadioLink.transmit_fed { t.radio r with sending := none }).state
    exact ⟨onRadio_calm t r _ hstate (fun h => (hsound h).transmit),
      onRadio_keeps t r _ hstate (fun h =>
        RadioLink.Coalesced.transmit ⟨h.urgent, h.normal, h.urgentOnce, h.normalOnce⟩), fun _ => rfl⟩
  unfold State.completeRadio
  split
  · exact .refl s
  · dsimp only
    split
    · exact (Steady.of_within (rowFate_within s _ true) (rowFate_keeps s _ true)).trans (htransmit _)
    · exact htransmit s

/-- Learning entries that are gone (R126, R130). -/
theorem learning_steady (s : State) (t : Table LearnEntry) (h : ∀ x ∈ t.rows, x ∈ s.learning.rows) :
    Steady s { s with learning := t } :=
  ⟨{ Calm.refl s with }, { Keeps.refl s with learned := fun x hx => .inl (h x hx) }, fun _ => rfl⟩

theorem flush_steady (s : State) (f : Option Flush) : Steady s { s with flush := f } :=
  ⟨{ Calm.refl s with }, .of_eq rfl rfl rfl rfl rfl rfl rfl, fun _ => rfl⟩

theorem ageEntry_steady (s : State) (c : Nat) : Steady s (s.ageEntry c) := by
  unfold State.ageEntry
  split
  · split
    · exact learning_steady s _ (fun x hx => (List.mem_filter.1 hx).1)
    · exact .refl s
  · exact .refl s

theorem visitFlush_steady (s : State) : Steady s s.visitFlush := by
  unfold State.visitFlush
  split
  · exact .refl s
  · next f _ =>
    split
    · have hdel : Steady s { s with learning := s.learning.del f.next } :=
        learning_steady s _ (fun x hx => (List.mem_filter.1 hx).1)
      dsimp only
      split
      · exact (hdel.trans (flush_steady _ none)).trans (post_steady _ _ _ _)
      · exact hdel.trans (flush_steady _ _)
    · exact .refl s

theorem expireSupervision_steady (s : State) (c : Nat) : Steady s (s.expireSupervision c) := by
  unfold State.expireSupervision
  split
  · next r hr =>
    split
    · exact request_steady s _ (fun w => w.goMissing_within c r) (Work.goMissing_keeps _ c r hr)
    · exact .refl s
  · exact .refl s

theorem expireGrace_steady (s : State) (c : Nat) : Steady s (s.expireGrace c) := by
  unfold State.expireGrace
  split
  · next r _ =>
    split
    · exact request_steady s _ (fun w => w.goLost_within c r) (Work.goLost_keeps _ c r)
    · exact .refl s
  · exact .refl s

theorem expireEntry_steady (s : State) (c : Nat) : Steady s (s.expireEntry c) := by
  unfold State.expireEntry
  split
  · split
    · exact (Steady.of_within (dropEntry_within s c) (dropEntry_keeps s c)).trans (post_steady _ _ _ _)
    · exact .refl s
  · exact .refl s

theorem lapseClaim_steady (s : State) (k : Nat) : Steady s (s.lapseClaim k) := by
  unfold State.lapseClaim
  split
  · next claim _ =>
    split
    · next cause _ =>
      exact request_steady s _ (fun w => w.lapse_within k claim cause) (Work.lapse_keeps _ k claim cause)
    · exact .refl s
  · exact .refl s

theorem State.Inv.expireCrane {s : State} (hs : s.Inv) (k : Nat) : (s.expireCrane k).Inv := by
  unfold State.expireCrane
  split
  · exact (request_steady _ _ (fun w => w.loseCrane_within k) (Work.loseCrane_keeps _ k)).inv
      (hs.countCraneLink k (fun l => { l with rx := Receiver.hunting }) (fun _ => rfl))
  · exact hs

theorem craneTransmit_steady (s : State) (k : Nat) :
    Steady s (s.onCraneLink k (fun l => CraneLink.transmit { l with sending := none })) :=
  ⟨onCraneLink_calm s k _ (fun h => Nat.le_trans (CraneLink.transmit_fed _).replies h),
    onCraneLink_keeps s k _ (fun h => CraneLink.Distinct.transmit (l := { s.craneLink k with sending := none }) h),
    fun _ => rfl⟩

theorem expirePeriod_steady (s : State) : Steady s s.expirePeriod := by
  unfold State.expirePeriod
  split
  · exact (Steady.of_within (cycle_within s _) (cycle_keeps s _)).trans
      (.of_within (startOrSkip_within _) (startOrSkip_keeps _))
  · exact .refl s

theorem State.Inv.endSave {s : State} (hs : s.Inv) (differs : Option (Fin 8)) : (s.endSave differs).Inv := by
  unfold State.endSave
  split
  · exact hs
  · split
    · split
      · exact (post_steady _ _ _ _).inv { hs with save := fun h => (nomatch h) }
      · exact (post_steady _ _ _ _).inv { hs with save := fun h => (nomatch h) }
    · exact hs

/-! ## Frames and bytes (R146, R171) -/

theorem State.Inv.takeDispatch {s : State} (hs : s.Inv) (l : DLink) (kind : Nat) (payload : List Byte) :
    (s.takeDispatch l kind payload).Inv := hs.takeRequest l (frameOwner_sound l kind payload)

theorem State.Inv.takeRadio {s : State} (hs : s.Inv) (r : Fin 4) (kind : Nat) (payload : List Byte) :
    (s.takeRadio r kind payload).Inv := by
  refine (hs.sortRadio r.isLt fun t ht hup => ?_).pump
  unfold sortedBy
  split
  · exact ht.takeReport hup _
  · exact ht.takeEvent r _
  · exact ht
  · exact ht.countRadio r RadioLink.countUnusable (fun l => ⟨_, _, _, _, _, rfl⟩)

theorem State.Inv.takeCraneFrame {s : State} (hs : s.Inv) (k : Fin 8) (kind : Nat) (payload : List Byte) :
    (s.takeCraneFrame k kind payload).Inv := by
  refine State.Inv.pump ?_
  split
  · exact hs.takeCrane k (fun t ht => ht.takeCraneReport k _)
  · exact hs.craneRequest k (ownLower_within k _) (ownLower_keeps k _)
  · exact hs.craneRequest k (ownRelease_within k) (ownRelease_keeps k)
  · exact hs.craneRequest k (ownGantry_within k _) (ownGantry_keeps k _)
  · exact (hs.craneArrival k).craneUnusable k

/-- The receiver and the counters of a dispatch link. -/
theorem State.Inv.onReceiver {s : State} (hs : s.Inv) (l : DLink) (f : DispatchLink → DispatchLink)
    (h : ∀ d, ∃ rx crc, f d = { d with rx := rx, crcErrors := crc }) : (s.onDlink l f).Inv := by
  refine hs.countDlink l f (fun d => ?_) (fun hd => ?_)
  · obtain ⟨rx, crc, hf⟩ := h d
    rw [hf]
  · obtain ⟨rx, crc, hf⟩ := h (s.dlink l)
    rw [hf]
    exact ⟨hd.replies, hd.notifs, hd.sending, hd.drops, hd.down⟩

theorem State.Inv.putReceiver {s : State} (hs : s.Inv) (link : Link) (rx : Receiver) : (s.putReceiver link rx).Inv := by
  cases link with
  | dispatch l => exact hs.onReceiver l _ (fun d => ⟨rx, d.crcErrors, rfl⟩)
  | radio r => exact hs.countRadio r _ (fun l => ⟨rx, _, _, _, _, rfl⟩)
  | crane k => exact hs.countCraneLink k (fun d => { d with rx := rx }) (fun _ => rfl)

theorem State.Inv.countBad {s : State} (hs : s.Inv) (link : Link) : (s.countBad link).Inv := by
  cases link with
  | dispatch l => exact hs.onReceiver l _ (fun d => ⟨d.rx, bump16 d.crcErrors, rfl⟩)
  | radio r => exact hs.countRadio r _ (fun l => ⟨_, _, bump16 l.crcErrors, _, _, rfl⟩)
  | crane k => exact hs.countCraneLink k (fun d => { d with crcErrors := bump16 d.crcErrors }) (fun _ => rfl)

theorem State.Inv.takeFrame {s : State} (hs : s.Inv) (link : Link) (kind : Nat) (payload : List Byte) :
    (s.takeFrame link kind payload).Inv := by
  cases link with
  | dispatch l => exact hs.takeDispatch l kind payload
  | radio r => exact hs.takeRadio r kind payload
  | crane k => exact hs.takeCraneFrame k kind payload

theorem State.Inv.takeByte {s : State} (hs : s.Inv) (link : Link) (b : Byte) : (State.takeByte link s b).Inv := by
  have hrx := hs.putReceiver link ((s.receiver link).takeByte b).1
  unfold State.takeByte
  dsimp only
  split
  · exact hrx
  · exact hrx.countBad link
  · exact hrx.takeFrame link _ _

theorem State.Inv.takeBytes {s : State} (hs : s.Inv) (link : Link) (bytes : List Byte) :
    (bytes.foldl (State.takeByte link) s).Inv := by
  induction bytes generalizing s with
  | nil => exact hs
  | cons b rest ih => exact ih (hs.takeByte link b)

/-! ## Time (R163) -/

theorem dlink_elapse (s : State) (l : DLink) :
    s.elapse.dlink l = { s.dlink l with timer := countDown (s.dlink l).timer } := Table.get_mapVals _ _ _ _ rfl

theorem radio_elapse (s : State) (r : Nat) :
    s.elapse.radio r = { s.radio r with timer := countDown (s.radio r).timer } := Table.get_mapVals _ _ _ _ rfl

theorem crane_elapse (s : State) (k : Nat) :
    s.elapse.crane k = { s.crane k with timer := countDown (s.crane k).timer } := Table.get_mapVals _ _ _ _ rfl

theorem carrier?_elapse (s : State) (c : Nat) :
    s.elapse.carrier? c = (s.carrier? c).map (fun r => { r with timer := countDown r.timer }) :=
  Table.get?_mapVals _ _ _

theorem elapse_steady (s : State) : Steady s s.elapse where
  calm := { Calm.refl s with
    up := fun l => by rw [dlink_elapse]
    dispatch := fun l h => by
      rw [dlink_elapse]
      refine ⟨h.replies, h.notifs, h.sending, h.drops, fun hd => ?_⟩
      obtain ⟨hreplies, htx, htimer⟩ := h.down hd
      exact ⟨hreplies, htx, by rw [htimer]; rfl⟩
    state := fun r => by rw [radio_elapse]
    radios := fun r h => by
      rw [radio_elapse]
      refine ⟨fun hd => ?_⟩
      obtain ⟨hurgent, hnormal, hsending, htimer⟩ := h.down hd
      exact ⟨hurgent, hnormal, hsending, by rw [htimer]; rfl⟩ }
  keeps := { Keeps.refl s with
    state := fun r => by rw [radio_elapse]
    queues := fun r h => by
      rw [radio_elapse]
      exact ⟨h.urgent, h.normal, h.urgentOnce, h.normalOnce⟩
    idle := fun e he => ⟨⟨e, he, rfl⟩, fun h => .inl (by
      obtain ⟨r, hr, hidle⟩ := (State.carrierIs_iff _ _ _).1 h
      exact (State.carrierIs_iff _ _ _).2 ⟨{ r with timer := countDown r.timer }, by rw [carrier?_elapse, hr]; rfl,
        hidle⟩)⟩
    claims := fun k h => by
      rw [crane_elapse]
      exact h }
  replies l := by rw [dlink_elapse]

theorem State.Inv.tick {s : State} (hs : s.Inv) : s.tick.Inv := { (elapse_steady s).inv hs with }

/-! ## Every command -/

/-- What a command on a dispatch link makes of the part: the request of its owner. -/
theorem exec_ownerOf {i : Instr} {o : Owner} (h : ownerOf i = some o) (s : State) :
    ∃ l, exec i s = .next (s.takeRequest l o) := by
  cases i <;> cases h <;> exact ⟨_, rfl⟩

theorem exec_event_inv {s t : State} (hs : s.Inv) {i : Instr} (hi : ownerOf i = none) (h : exec i s = .next t) :
    t.Inv := by
  cases i <;> cases hi <;> cases h
  case reset => exact boot_inv _ _
  case badFrame link bytes => exact hs.takeBytes link bytes
  case dispatchFrame l kind payload => exact hs.takeDispatch l kind payload
  case dispatchLinkTimeout l => exact (hs.expireDispatch l).pump
  case dispatchTransmitComplete l =>
    exact (hs.countDlink l _ (fun d => (d.complete_rest s.now l.key).1) (fun hd => hd.complete s.now l.key)).pump
  case saveWriteCompletion differs => exact (hs.endSave differs).pump
  case positionReport r a => exact (hs.sortRadio r.isLt (fun t ht hup => ht.takeReport hup a)).pump
  case carrierEvent r a => exact (hs.sortRadio r.isLt (fun t ht _ => ht.takeEvent r a)).pump
  case modemHeartbeat r => exact (hs.sortRadio r.isLt (fun t ht _ => ht)).pump
  case radioUnusableFrame r kind payload => exact hs.takeRadio r kind payload
  case radioLinkTimeout r => exact (hs.expireRadio r).pump
  case radioTransmitComplete r => exact ((completeRadio_steady s r).inv hs).pump
  case learningEntryExpiry c => exact ((ageEntry_steady s c).inv hs).pump
  case flushVisit => exact ((visitFlush_steady s).inv hs).pump
  case supervisionTimerExpiry c => exact ((expireSupervision_steady s c).inv hs).pump
  case graceExpiry c => exact ((expireGrace_steady s c).inv hs).pump
  case pendingExpired c => exact ((expireEntry_steady s c).inv hs).pump
  case craneReport k a => exact (hs.takeCrane k (fun t ht => ht.takeCraneReport k a)).pump
  case lowerRequest k t => exact (hs.craneRequest k (ownLower_within k t) (ownLower_keeps k t)).pump
  case slotRelease k => exact (hs.craneRequest k (ownRelease_within k) (ownRelease_keeps k)).pump
  case gantryRequest k b => exact (hs.craneRequest k (ownGantry_within k b) (ownGantry_keeps k b)).pump
  case craneUnusableFrame k kind payload => exact hs.takeCraneFrame k kind payload
  case claimLapsed k => exact ((lapseClaim_steady s k).inv hs).pump
  case craneLinkDown k => exact (hs.expireCrane k).pump
  case craneTransmitComplete k => exact ((craneTransmit_steady s k).inv hs).pump
  case periodTimerExpiry => exact ((expirePeriod_steady s).inv hs).pump

theorem exec_inv {s t : State} (hs : s.Inv) {i : Instr} (h : exec i s = .next t) : t.Inv := by
  cases hi : ownerOf i with
  | none => exact exec_event_inv hs hi h
  | some o =>
    obtain ⟨l, hexec⟩ := exec_ownerOf hi s
    cases hexec.symm.trans h
    exact hs.takeRequest l (ownerOf_sound hi)

/-- Settles O60: every command keeps the invariant, and so does the passing of time. -/
theorem everyStepIsSound : Obligations.EveryStepIsSound := by
  unfold Obligations.EveryStepIsSound
  intro s t hs h
  unfold step at h
  split at h
  · next i rest _ => exact exec_inv (s := { s with pending := rest }) { hs with } h
  · cases h
    exact hs.tick

end Sys2Proof.Machine
end

section
/-! The picture code, the obstacles and the availability of a record (R18, R19), and route positions (R23). -/

namespace Sys2Proof.Machine

/-! ## Obstacles and the picture (R18, R19) -/

theorem SegDyn.isLocked_iff (r : SegDyn) : r.isLocked = true ↔ r.lock.rows ≠ [] := by
  simp [SegDyn.isLocked]

theorem SegDyn.isFree_iff (r : SegDyn) : r.isFree = true ↔ r.hold = .free := decide_eq_true_iff

theorem SegDyn.intrudedFor_iff (r : SegDyn) (c : Nat) :
    r.intrudedFor c = true ↔ ∃ p, r.intruder = some p ∧ p ≠ .carrier c := by
  unfold SegDyn.intrudedFor
  cases r.intruder <;> simp

theorem SegDyn.obstacle_iff (r : SegDyn) (c : Nat) : r.obstacle c = true ↔ r.oos ≠ ⟨false, false, false⟩ ∨
    (∃ p, r.intruder = some p ∧ p ≠ .carrier c) ∨ r.lock.rows ≠ [] := by
  unfold SegDyn.obstacle
  rw [Bool.or_eq_true, Bool.or_eq_true, Bool.not_eq_true', ← Bool.not_eq_true, r.inService_iff, r.isLocked_iff,
    SegDyn.intrudedFor_iff, or_assoc]

theorem SegDyn.isFrozen_iff (r : SegDyn) : r.isFrozen = true ↔ ∃ p k, r.hold = .frozen p k := by
  unfold SegDyn.isFrozen
  cases r.hold <;> simp

/-- The picture code by its tests, in their order (R18). -/
theorem SegDyn.picture_eq (r : SegDyn) : r.picture =
    if r.inService = false ∨ r.isFrozen = true ∨ r.intruder ≠ none then .closed
    else if r.isLocked then .locked
    else if r.isFree then .free
    else .held := by
  unfold SegDyn.picture SegDyn.isFrozen SegDyn.isFree
  cases r.hold <;> cases r.inService <;> cases r.intruder <;> rfl

/-- The cause for which a segment is not available, by its tests in their order (R19). -/
theorem SegDyn.blockCause_eq (r : SegDyn) : r.blockCause =
    if r.isFree = false then some .conflict
    else if r.inService = false then some .outOfService
    else if r.isLocked then some .locked
    else if r.intruder ≠ none then some .intruded
    else none := by
  unfold SegDyn.blockCause
  cases r.isFree <;> cases r.inService <;> cases r.intruder <;> rfl

/-- Settles O19: each clause reads one branch of the chains of tests. -/
theorem pictureObstacleAndAvailability : Obligations.PictureObstacleAndAvailability := by
  unfold Obligations.PictureObstacleAndAvailability
  intro r c
  have hheld : (∃ p k, r.hold = .held p k) ↔ r.isFree = false ∧ r.isFrozen = false := by
    unfold SegDyn.isFree SegDyn.isFrozen
    cases r.hold <;> simp
  have hfrozen : (∀ p k, r.hold ≠ .frozen p k) ↔ r.isFrozen = false := by
    rw [← Bool.not_eq_true, r.isFrozen_iff]
    push Not
    rfl
  have hfree : r.isFree = true → r.isFrozen = false := by
    unfold SegDyn.isFree SegDyn.isFrozen
    cases r.hold <;> simp
  have hlocked : r.lock.rows = [] ↔ r.isLocked = false := by
    rw [← Bool.not_eq_true, r.isLocked_iff, not_not]
  rw [r.obstacle_iff, r.picture_eq, r.blockCause_eq, hheld, hfrozen, ← r.isFrozen_iff]
  simp only [ne_eq, ← r.isFree_iff, ← r.inService_iff, hlocked]
  refine ⟨?_, ?_, ?_, ?_, trivial, ?_, ?_, ?_, ?_, ?_⟩
  all_goals grind

/-! ## Route positions (R23) -/

theorem routePos_succ (g : Grid) (l : List Nat) {k : Nat} (hk : k < l.length) :
    routePos g l (k + 1) = routePos g l k + g.lengthOf (l.getD k 0) := by
  unfold routePos
  rw [List.take_add_one, List.map_append, List.sum_append, List.getElem?_eq_getElem hk]
  simp [List.getD_eq_getElem?_getD, hk]

theorem routePos_cons_succ (g : Grid) (i : Nat) (rest : List Nat) (k : Nat) :
    routePos g (i :: rest) (k + 1) = g.lengthOf i + routePos g rest k := by
  simp [routePos]

/-- A position lies in the entry at or after whose beginning, and before whose end, it is. -/
theorem entryAt_of_within (g : Grid) (l : List Nat) {k p : Nat} (hk : k < l.length) (hle : routePos g l k ≤ p)
    (hlt : p < routePos g l (k + 1)) : entryAt g l p = k := by
  induction l generalizing k p with
  | nil => exact absurd hk (Nat.not_lt_zero k)
  | cons i rest ih =>
    rw [routePos_cons_succ] at hlt
    cases k with
    | zero =>
      have hp : p < g.lengthOf i := by simpa [routePos] using hlt
      cases rest with
      | nil => rfl
      | cons j rest => exact if_pos hp
    | succ k =>
      rw [routePos_cons_succ] at hle
      cases rest with
      | nil => exact absurd hk (by simp)
      | cons j rest =>
        have hp : ¬ p < g.lengthOf i := by omega
        have hin := ih (k := k) (p := p - g.lengthOf i) (by simpa using hk) (by omega) (by omega)
        show (if p < g.lengthOf i then 0 else 1 + entryAt g (j :: rest) (p - g.lengthOf i)) = k + 1
        rw [if_neg hp, hin]
        omega

/-- A position at or beyond the end lies in the last entry. -/
theorem entryAt_of_beyond (g : Grid) (l : List Nat) {p : Nat} (hne : l ≠ []) (hle : routePos g l l.length ≤ p) :
    entryAt g l p = l.length - 1 := by
  induction l generalizing p with
  | nil => exact absurd rfl hne
  | cons i rest ih =>
    rw [List.length_cons, routePos_cons_succ] at hle
    cases rest with
    | nil => rfl
    | cons j rest =>
      have hp : ¬ p < g.lengthOf i := by omega
      have hin := ih (p := p - g.lengthOf i) (List.cons_ne_nil j rest) (by omega)
      show (if p < g.lengthOf i then 0 else 1 + entryAt g (j :: rest) (p - g.lengthOf i)) = _
      rw [if_neg hp, hin]
      simp only [List.length_cons]
      omega

/-- Settles O24. -/
theorem routePositions : Obligations.RoutePositions := by
  unfold Obligations.RoutePositions
  intro g r length hlength
  have hsucc : ∀ k, k < r.list.length → routePos g r.list (k + 1) = routePos g r.list k + length k := fun k hk => by
    rw [routePos_succ g r.list hk, hlength]
    rfl
  refine ⟨rfl, hsucc, fun k p hk hle hlt => entryAt_of_within g r.list hk hle (hsucc k hk ▸ hlt),
    fun p hne hle => entryAt_of_beyond g r.list hne hle, rfl, fun rem _ => ⟨_, ?_, rfl⟩⟩
  rw [hlength]
  exact Nat.sub_le _ _

end Sys2Proof.Machine
end

section
/-! A change made on each of some segment records (R21), and SEGMENT_BLOCK and SEGMENT_UNBLOCK (R38). -/

namespace Sys2Proof.Machine

namespace Work

/-! ## A change that made twice is made once -/

section
variable {f : SegDyn → SegDyn} (hf : ∀ r, f (f r) = f r)
include hf

theorem mem_touched_onSegs (w : Work) (ids : List Nat) (j : Nat) :
    j ∈ (w.onSegs ids f).touched ↔ j ∈ w.touched ∨ j ∈ ids ∧ f (w.s.seg j) ≠ w.s.seg j := by
  induction ids generalizing w with
  | nil => simp [onSegs_nil]
  | cons i rest ih =>
    rw [onSegs_cons, ih, mem_touched_onSeg, seg_onSeg]
    by_cases hj : j = i
    · subst hj
      simp [hf]
    · simp [hj]

theorem reexam_onSegs (w : Work) (ids : List Nat) : (w.onSegs ids f).reexam = true ↔
    w.reexam = true ∨ ∃ j ∈ ids, SegDyn.callsFor (w.s.seg j) (f (w.s.seg j)) = true := by
  induction ids generalizing w with
  | nil => simp [onSegs_nil]
  | cons i rest ih =>
    rw [onSegs_cons, ih, reexam_onSeg, List.exists_mem_cons_iff, or_assoc]
    refine or_congr_right ?_
    constructor
    · rintro (h | ⟨j, hj, h⟩)
      · exact .inl h
      · rw [seg_onSeg] at h
        split at h
        · rw [hf, SegDyn.callsFor_self] at h
          cases h
        · exact .inr ⟨j, hj, h⟩
    · rintro (h | ⟨j, hj, h⟩)
      · exact .inl h
      · by_cases hji : j = i
        · exact .inl (hji ▸ h)
        · exact .inr ⟨j, hj, by rw [seg_onSeg, if_neg hji]; exact h⟩

/-- What the end of a request has to act on after such a change (R21, R75). -/
theorem onSegs_grown (w : Work) (ids : List Nat) : w.Grown (w.onSegs ids f) (fun _ => False) := by
  obtain ⟨hreport, hbumped, hsettled, hruns, hbefore⟩ := onSegs_marks w ids f
  refine ⟨hbefore, fun i => ?_, fun c => by simp [hruns], hbumped, hsettled, hreport⟩
  rw [mem_touched_onSegs hf, seg_onSegs _ _ _ hf]
  by_cases hi : i ∈ ids <;> simp [hi]

theorem onSegs_calls (w : Work) (ids : List Nat) : w.Calls (w.onSegs ids f) := by
  unfold Calls
  simp only [← SegDyn.callsFor_iff]
  rw [reexam_onSegs hf]
  refine or_congr_right (exists_congr fun i => ?_)
  rw [seg_onSegs _ _ _ hf]
  by_cases hi : i ∈ ids <;> simp [hi, SegDyn.callsFor_self]

end

end Work

/-! ## Rectangles (R38) -/

/-- An id lies in a rectangle of the grid. -/
theorem mem_rectIds {g : Grid} {q : Rect} (hfit : q.bay + q.bays ≤ g.bays) (j : Nat) : j ∈ rectIds g q ↔
    q.lane ≤ j / g.bays ∧ j / g.bays < q.lane + q.lanes ∧ q.bay ≤ j % g.bays ∧ j % g.bays < q.bay + q.bays := by
  unfold rectIds Grid.idAt
  simp only [List.mem_flatMap, List.mem_map, List.mem_range]
  constructor
  · rintro ⟨x, hx, y, hy, rfl⟩
    have hpos : 0 < g.bays := by omega
    have hlt : q.bay + y < g.bays := by omega
    rw [Nat.mul_comm, Nat.mul_add_div hpos, Nat.mul_add_mod, Nat.div_eq_of_lt hlt, Nat.mod_eq_of_lt hlt]
    omega
  · rintro ⟨h1, h2, h3, h4⟩
    refine ⟨j / g.bays - q.lane, by omega, j % g.bays - q.bay, by omega, ?_⟩
    rw [Nat.add_sub_cancel' h1, Nat.add_sub_cancel' h3, Nat.mul_comm]
    exact Nat.div_add_mod j g.bays

theorem nodup_rectIds {g : Grid} {q : Rect} (hfit : q.bay + q.bays ≤ g.bays) : (rectIds g q).Nodup := by
  unfold rectIds
  refine List.nodup_flatMap.2 ⟨fun x _ => ?_, ?_⟩
  · refine List.Nodup.map (fun a b hab => ?_) List.nodup_range
    unfold Grid.idAt at hab
    omega
  · refine List.nodup_range.imp_of_mem fun {x y} _ _ hxy => ?_
    intro i hi hi'
    obtain ⟨b, hb, rfl⟩ := List.mem_map.1 hi
    obtain ⟨b', hb', he⟩ := List.mem_map.1 hi'
    rw [List.mem_range] at hb hb'
    have hdiv := congrArg (· / g.bays) he
    simp only [Grid.idAt] at hdiv
    rw [Nat.mul_comm, Nat.mul_add_div (by omega), Nat.mul_comm, Nat.mul_add_div (by omega),
      Nat.div_eq_of_lt (by omega), Nat.div_eq_of_lt (by omega)] at hdiv
    omega

theorem rectIds_inside {g : Grid} {q : Rect} (hlanes : q.lane + q.lanes ≤ g.lanes) (hfit : q.bay + q.bays ≤ g.bays)
    {j : Nat} (hj : j ∈ rectIds g q) : j < g.lanes * g.bays := by
  have h := (mem_rectIds hfit j).1 hj
  have hpos : 0 < g.bays := by omega
  exact (Nat.div_lt_iff_lt_mul hpos).1 (by omega)

/-- As many ids of a rectangle have a property as ids of the grid that lie in the rectangle have it. -/
theorem length_filter_rectIds {g : Grid} {q : Rect} (hlanes : q.lane + q.lanes ≤ g.lanes)
    (hfit : q.bay + q.bays ≤ g.bays) (p : Nat → Bool) : ((rectIds g q).filter p).length =
      ((List.range (g.lanes * g.bays)).filter (fun j => decide (j ∈ rectIds g q) && p j)).length := by
  refine List.Perm.length_eq ((List.perm_ext_iff_of_nodup ((nodup_rectIds hfit).filter _)
    (List.nodup_range.filter _)).2 fun j => ?_)
  simp only [List.mem_filter, List.mem_range, Bool.and_eq_true, decide_eq_true_eq]
  exact ⟨fun ⟨hj, hp⟩ => ⟨rectIds_inside hlanes hfit hj, hj, hp⟩, fun ⟨_, h⟩ => h⟩

theorem clampSpan_fits {extent first count : Nat} (h : 1 ≤ extent) :
    (clampSpan extent first count).1 + (clampSpan extent first count).2 ≤ extent := by
  simp only [clampSpan, clampTo]
  omega

/-! ## SEGMENT_BLOCK and SEGMENT_UNBLOCK -/

/-- BLOCK put into a record or taken out of it. -/
def SegDyn.setBlock (block : Bool) (r : SegDyn) : SegDyn := { r with oos := { r.oos with block := block } }

theorem SegDyn.setBlock_idem (block : Bool) (r : SegDyn) : (r.setBlock block).setBlock block = r.setBlock block := rfl

/-- BLOCK calls for re-examination where it is taken out and was the only entry (R21). -/
theorem SegDyn.callsFor_setBlock (block : Bool) (r : SegDyn) :
    SegDyn.callsFor r (r.setBlock block) = true ↔ block = false ∧ r.oos = ⟨true, false, false⟩ := by
  rw [SegDyn.callsFor_iff]
  obtain ⟨hold, lock, ⟨b, d, x⟩, intruder⟩ := r
  cases block <;> cases b <;> simp [SegDyn.setBlock]

theorem exec_block (block : Bool) (l : DLink) (rect : Rect) (s : State) :
    exec (if block then .segmentBlock l rect else .segmentUnblock l rect) s =
      .next (s.takeRequest l (ownBlock (if block then 0x2A else 0x2B) rect block)) := by
  cases block <;> rfl

/-- Settles O18. -/
theorem segmentBlockAndUnblock : Obligations.SegmentBlockAndUnblock := by
  unfold Obligations.SegmentBlockAndUnblock
  rintro s u l rect block i kind hu hroom rfl rfl
  rw [exec_block]
  refine ⟨fun hm => next_takeRequest hu hroom (if_pos hm), fun hm hlanes hbays q inside hl hls hb hbs hinside => ?_⟩
  have hq : clampRect u.grid rect = q := by
    obtain ⟨a, b, c, d⟩ := q
    simp only at hl hls hb hbs
    subst hl hls hb hbs
    simp only [clampRect, clampSpan, clampTo, Rect.mk.injEq]
    omega
  have hfitLanes : q.lane + q.lanes ≤ u.grid.lanes := hq ▸ clampSpan_fits hlanes
  have hfitBays : q.bay + q.bays ≤ u.grid.bays := hq ▸ clampSpan_fits hbays
  have hmem : ∀ j, inside j = decide (j ∈ rectIds u.grid q) := fun j => by
    rw [hinside, Bool.eq_iff_iff, decide_eq_true_eq, mem_rectIds hfitBays]
    simp only [Bool.and_eq_true, decide_eq_true_eq, and_assoc]
  have hidem := SegDyn.setBlock_idem block
  refine ⟨(Work.start u none).onSegs (rectIds u.grid q) (SegDyn.setBlock block), next_takeRequest hu hroom ?_,
    Work.onSegs_grown hidem _ _, Work.onSegs_rest _ _ _, fun j => ?_, ?_⟩
  · unfold ownBlock
    rw [if_neg hm, hq]
    simp only [hmem, ← length_filter_rectIds hfitLanes hfitBays]
    rfl
  · rw [Work.seg_onSegs _ _ _ hidem, hmem]
    simp only [decide_eq_true_eq]
    rfl
  · rw [Work.reexam_onSegs hidem]
    simp only [SegDyn.callsFor_setBlock, hmem, decide_eq_true_eq]
    exact or_iff_right Bool.false_ne_true

end Sys2Proof.Machine
end

section
/-! The pending entry of a carrier (R33, R35), the aging of the learning table (R126) and the flush sweep (R130). -/

namespace Sys2Proof.Machine

/-! ## The pending entry of a carrier (R33) -/

/-- A carrier has no pending entry exactly when none of the list is its own. -/
theorem State.entry?_eq_none_iff {s : State} {c : Nat} : s.entry? c = none ↔ ∀ x ∈ s.waiting, x.carrier ≠ c := by
  simp [State.entry?, List.find?_eq_none]

section
variable {s : State} {c : Nat} {before after : List PendingEntry} {e : PendingEntry}
  (hs : s.waiting = before ++ e :: after) (he : e.carrier = c)
include hs he

/-- The first entry of a carrier in the list is the one that is found. -/
theorem State.entry?_of_first (hbefore : ∀ x ∈ before, x.carrier ≠ c) : s.entry? c = some e := by
  have hnone : before.find? (fun x => decide (x.carrier = c)) = none := by simpa using hbefore
  simp [State.entry?, hs, List.find?_append, hnone, he]

/-- The only entry of a carrier leaves the list, and the others keep their places. -/
theorem State.dropEntry_of_only (hothers : ∀ x ∈ before ++ after, x.carrier ≠ c) :
    s.dropEntry c = { s with waiting := before ++ after } := by
  have hb : before.filter (fun x => decide (x.carrier ≠ c)) = before :=
    List.filter_eq_self.2 fun x hx => decide_eq_true (hothers x (List.mem_append_left _ hx))
  have ha : after.filter (fun x => decide (x.carrier ≠ c)) = after :=
    List.filter_eq_self.2 fun x hx => decide_eq_true (hothers x (List.mem_append_right _ hx))
  rw [State.dropEntry, hs, List.filter_append, List.filter_cons_of_neg (by simp [he]), hb, ha]

end

/-! ## Deadlines (R163) -/

theorem LearnEntry.due_iff {now : Time} {e : LearnEntry} :
    e.due now = true ↔ (e.expiry - e.set).toNat ≤ (now - e.set).toNat := by
  simp [LearnEntry.due, reached, elapsed]

theorem Flush.due_iff {now : Time} {f : Flush} : f.due now = true ↔ f.next < (now - f.start).toNat := by
  simp [Flush.due, elapsed]

theorem PendingEntry.due_iff {now : Time} {e : PendingEntry} :
    e.due now = true ↔ (e.expiry - e.arrival).toNat ≤ (now - e.arrival).toNat := by
  simp [PendingEntry.due, reached, elapsed]

/-! ## Aging, the flush sweep and the expiry of a pending entry -/

/-- An event before its time is none (log entry 3). -/
theorem State.ageEntry_early {s : State} {c : Nat} {e : LearnEntry} (he : s.learning.get? c = some e)
    (hd : (s.now - e.set).toNat < (e.expiry - e.set).toNat) : s.ageEntry c = s := by
  have hdue : ¬ e.due s.now = true := fun h => absurd (LearnEntry.due_iff.1 h) (Nat.not_le.2 hd)
  simp [State.ageEntry, he, hdue]

theorem State.ageEntry_due {s : State} {c : Nat} {e : LearnEntry} (he : s.learning.get? c = some e)
    (hd : (e.expiry - e.set).toNat ≤ (s.now - e.set).toNat) :
    s.ageEntry c = { s with learning := s.learning.del c } := by
  simp [State.ageEntry, he, LearnEntry.due_iff.2 hd]

section
variable {s : State} {f : Flush} (hs : s.flush = some f)
include hs

theorem State.visitFlush_early (hd : (s.now - f.start).toNat ≤ f.next) : s.visitFlush = s := by
  have hdue : ¬ f.due s.now = true := fun h => absurd (Flush.due_iff.1 h) (Nat.not_lt.2 hd)
  simp [State.visitFlush, hs, hdue]

/-- A visit before the last counts the entry of its id and passes to the next. -/
theorem State.visitFlush_next (hd : f.next < (s.now - f.start).toNat) (hlast : f.next < 95) :
    s.visitFlush = { s with
      learning := s.learning.del f.next
      flush := some ⟨f.start, f.next + 1, f.removed + (if (s.learning.get? f.next).isSome then 1 else 0)⟩ } := by
  have hmore : ¬ f.next + 1 ≥ Config.carrierCount := by simp [Config.carrierCount]; omega
  simp only [State.visitFlush, hs, Flush.due_iff.2 hd, if_true, hmore, if_false]
  rfl

/-- The visit of id 95 ends the sweep. -/
theorem State.visitFlush_last (hd : f.next < (s.now - f.start).toNat) (hlast : f.next = 95) :
    s.visitFlush = State.post { s with learning := s.learning.del f.next, flush := none } .flushDone .nothing
      [.byte (f.removed + (if (s.learning.get? f.next).isSome then 1 else 0))] := by
  have hend : f.next + 1 ≥ Config.carrierCount := by simp [Config.carrierCount, hlast]
  simp only [State.visitFlush, hs, Flush.due_iff.2 hd, if_true, hend]
  rfl

end

theorem State.expireEntry_none {s : State} {c : Nat} (h : ∀ x ∈ s.waiting, x.carrier ≠ c) : s.expireEntry c = s := by
  simp [State.expireEntry, State.entry?_eq_none_iff.2 h]

section
variable {s : State} {c : Nat} {before after : List PendingEntry} {e : PendingEntry}
  (hs : s.waiting = before ++ e :: after) (he : e.carrier = c) (hothers : ∀ x ∈ before ++ after, x.carrier ≠ c)
include hs he hothers

theorem State.expireEntry_early (hd : (s.now - e.arrival).toNat < (e.expiry - e.arrival).toNat) :
    s.expireEntry c = s := by
  have hdue : ¬ e.due s.now = true := fun h => absurd (PendingEntry.due_iff.1 h) (Nat.not_le.2 hd)
  have hentry := State.entry?_of_first hs he fun x hx => hothers x (List.mem_append_left _ hx)
  simp [State.expireEntry, hentry, hdue]

theorem State.expireEntry_due (hd : (e.expiry - e.arrival).toNat ≤ (s.now - e.arrival).toNat) :
    s.expireEntry c = State.post { s with waiting := before ++ after } .pendingExpired (.carrier c)
      [.half e.tag, .half e.lastBlock] := by
  have hentry := State.entry?_of_first hs he fun x hx => hothers x (List.mem_append_left _ hx)
  simp only [State.expireEntry, hentry, PendingEntry.due_iff.2 hd, if_true, State.dropEntry_of_only hs he hothers]

end

/-- Settles O52: an event before its time changes nothing, and one at its time takes the branch of its rule. -/
theorem agingAndExpiry : Obligations.AgingAndExpiry := by
  unfold Obligations.AgingAndExpiry
  refine ⟨fun s u l c hu hroom => ⟨fun e he => ⟨fun hd => ?_, fun hd => ?_⟩, fun hnone => ?_, fun f hf => ?_,
    fun f n hf hn => ⟨fun hd => ?_, fun hd hlast => ?_, fun hd hlast => ?_⟩⟩,
    fun s c => ⟨fun hnone => ?_, fun before e after hs he hothers => ⟨fun hd => ?_, fun hd => ?_⟩⟩⟩
  · exact congrArg (fun t => Host.Outcome.next t.pump) (State.ageEntry_early he hd)
  · exact congrArg (fun t => Host.Outcome.next t.pump) (State.ageEntry_due he hd)
  · have howner : ownFlushRouting u =
        ({ u with flush := some ⟨u.now, 0, 0⟩ }, ⟨0x38, .accepted, .none_, false, []⟩) := by
      simp [ownFlushRouting, hnone, accept]
    exact next_takeRequest hu hroom howner
  · have howner : ownFlushRouting u = (u, ⟨0x38, .busy, .sweep, false, [.half f.next]⟩) := by
      simp [ownFlushRouting, hf, busyReply]
    exact next_takeRequest hu hroom howner
  · exact congrArg (fun t => Host.Outcome.next t.pump) (State.visitFlush_early hf hd)
  · subst hn
    exact congrArg (fun t => Host.Outcome.next t.pump) (State.visitFlush_next hf hd hlast)
  · subst hn
    have hvisit := State.visitFlush_last hf hd hlast
    rw [hlast] at hvisit ⊢
    exact congrArg (fun t => Host.Outcome.next t.pump) hvisit
  · exact congrArg (fun t => Host.Outcome.next t.pump) (State.expireEntry_none hnone)
  · exact congrArg (fun t => Host.Outcome.next t.pump) (State.expireEntry_early hs he hothers hd)
  · exact congrArg (fun t => Host.Outcome.next t.pump) (State.expireEntry_due hs he hothers hd)

end Sys2Proof.Machine
end

section
/-! What the changes within a request make of it, one after another (R21, R75): the fields of the part that they change,
what they leave for the end of the request, and the entries that they post. -/

namespace Sys2Proof.Machine

/-! ## The fields that change -/

/-- A field of the part that a request may change. -/
inductive Field where
  | segs | routes | versions | waiting | carriers | cranes | craneLinks | radios | learning | cycle | dispatch
  deriving DecidableEq

/-- The part with these fields as in another. -/
def State.taking (s : State) (F : List Field) (t : State) : State :=
  { s with
    segs := if .segs ∈ F then t.segs else s.segs
    routes := if .routes ∈ F then t.routes else s.routes
    versions := if .versions ∈ F then t.versions else s.versions
    waiting := if .waiting ∈ F then t.waiting else s.waiting
    carriers := if .carriers ∈ F then t.carriers else s.carriers
    cranes := if .cranes ∈ F then t.cranes else s.cranes
    craneLinks := if .craneLinks ∈ F then t.craneLinks else s.craneLinks
    radios := if .radios ∈ F then t.radios else s.radios
    learning := if .learning ∈ F then t.learning else s.learning
    cycle := if .cycle ∈ F then t.cycle else s.cycle
    dispatch := if .dispatch ∈ F then t.dispatch else s.dispatch }

/-- At most these fields differ. -/
structure State.Only (F : List Field) (s t : State) : Prop where
  rest : t = { s with
    segs := t.segs, routes := t.routes, versions := t.versions, waiting := t.waiting, carriers := t.carriers
    cranes := t.cranes, craneLinks := t.craneLinks, radios := t.radios, learning := t.learning, cycle := t.cycle
    dispatch := t.dispatch }
  segs : .segs ∉ F → t.segs = s.segs
  routes : .routes ∉ F → t.routes = s.routes
  versions : .versions ∉ F → t.versions = s.versions
  waiting : .waiting ∉ F → t.waiting = s.waiting
  carriers : .carriers ∉ F → t.carriers = s.carriers
  cranes : .cranes ∉ F → t.cranes = s.cranes
  craneLinks : .craneLinks ∉ F → t.craneLinks = s.craneLinks
  radios : .radios ∉ F → t.radios = s.radios
  learning : .learning ∉ F → t.learning = s.learning
  cycle : .cycle ∉ F → t.cycle = s.cycle
  dispatch : .dispatch ∉ F → t.dispatch = s.dispatch

namespace State.Only

variable {F G : List Field} {s t u : State}

theorem refl (s : State) : Only F s s where
  rest := rfl
  segs _ := rfl
  routes _ := rfl
  versions _ := rfl
  waiting _ := rfl
  carriers _ := rfl
  cranes _ := rfl
  craneLinks _ := rfl
  radios _ := rfl
  learning _ := rfl
  cycle _ := rfl
  dispatch _ := rfl

theorem trans (h : Only F s t) (g : Only G t u) : Only (F ++ G) s u where
  rest := by
    conv => lhs; rw [g.rest, h.rest]
  segs hn := (g.segs fun hm => hn (List.mem_append_right _ hm)).trans (h.segs fun hm => hn (List.mem_append_left _ hm))
  routes hn := (g.routes fun hm => hn (List.mem_append_right _ hm)).trans
    (h.routes fun hm => hn (List.mem_append_left _ hm))
  versions hn := (g.versions fun hm => hn (List.mem_append_right _ hm)).trans
    (h.versions fun hm => hn (List.mem_append_left _ hm))
  waiting hn := (g.waiting fun hm => hn (List.mem_append_right _ hm)).trans
    (h.waiting fun hm => hn (List.mem_append_left _ hm))
  carriers hn := (g.carriers fun hm => hn (List.mem_append_right _ hm)).trans
    (h.carriers fun hm => hn (List.mem_append_left _ hm))
  cranes hn := (g.cranes fun hm => hn (List.mem_append_right _ hm)).trans
    (h.cranes fun hm => hn (List.mem_append_left _ hm))
  craneLinks hn := (g.craneLinks fun hm => hn (List.mem_append_right _ hm)).trans
    (h.craneLinks fun hm => hn (List.mem_append_left _ hm))
  radios hn := (g.radios fun hm => hn (List.mem_append_right _ hm)).trans
    (h.radios fun hm => hn (List.mem_append_left _ hm))
  learning hn := (g.learning fun hm => hn (List.mem_append_right _ hm)).trans
    (h.learning fun hm => hn (List.mem_append_left _ hm))
  cycle hn := (g.cycle fun hm => hn (List.mem_append_right _ hm)).trans
    (h.cycle fun hm => hn (List.mem_append_left _ hm))
  dispatch hn := (g.dispatch fun hm => hn (List.mem_append_right _ hm)).trans
    (h.dispatch fun hm => hn (List.mem_append_left _ hm))

theorem mono (h : Only F s t) (hFG : F ⊆ G) : Only G s t where
  rest := h.rest
  segs hn := h.segs fun hm => hn (hFG hm)
  routes hn := h.routes fun hm => hn (hFG hm)
  versions hn := h.versions fun hm => hn (hFG hm)
  waiting hn := h.waiting fun hm => hn (hFG hm)
  carriers hn := h.carriers fun hm => hn (hFG hm)
  cranes hn := h.cranes fun hm => hn (hFG hm)
  craneLinks hn := h.craneLinks fun hm => hn (hFG hm)
  radios hn := h.radios fun hm => hn (hFG hm)
  learning hn := h.learning fun hm => hn (hFG hm)
  cycle hn := h.cycle fun hm => hn (hFG hm)
  dispatch hn := h.dispatch fun hm => hn (hFG hm)

/-- The part has the other fields as it had them. -/
theorem of_eq (h : t = s.taking F t) : Only F s t where
  rest := by
    conv => lhs; rw [h]
    simp only [State.taking, State.mk.injEq, true_and, and_true]
    exact ⟨(congrArg State.segs h).symm, (congrArg State.routes h).symm, (congrArg State.versions h).symm,
      (congrArg State.waiting h).symm, (congrArg State.carriers h).symm, (congrArg State.cranes h).symm,
      (congrArg State.craneLinks h).symm, (congrArg State.radios h).symm,
      (congrArg State.learning h).symm, (congrArg State.cycle h).symm, (congrArg State.dispatch h).symm⟩
  segs hn := (congrArg State.segs h).trans (if_neg hn)
  routes hn := (congrArg State.routes h).trans (if_neg hn)
  versions hn := (congrArg State.versions h).trans (if_neg hn)
  waiting hn := (congrArg State.waiting h).trans (if_neg hn)
  carriers hn := (congrArg State.carriers h).trans (if_neg hn)
  cranes hn := (congrArg State.cranes h).trans (if_neg hn)
  craneLinks hn := (congrArg State.craneLinks h).trans (if_neg hn)
  radios hn := (congrArg State.radios h).trans (if_neg hn)
  learning hn := (congrArg State.learning h).trans (if_neg hn)
  cycle hn := (congrArg State.cycle h).trans (if_neg hn)
  dispatch hn := (congrArg State.dispatch h).trans (if_neg hn)

/-- A field is as it was unless it is named. -/
theorem ite_named {α : Type} {p : Prop} [Decidable p] {a b : α} (h : ¬ p → b = a) : (if p then b else a) = b :=
  ite_eq_left_iff.2 fun hp => (h hp).symm

theorem eq (h : Only F s t) : t = s.taking F t := by
  unfold State.taking
  rw [ite_named h.segs,
    ite_named h.routes,
    ite_named h.versions,
    ite_named h.waiting,
    ite_named h.carriers,
    ite_named h.cranes,
    ite_named h.craneLinks,
    ite_named h.radios,
    ite_named h.learning,
    ite_named h.cycle,
    ite_named h.dispatch]
  exact h.rest

section
variable (h : Only F s t)
include h

theorem now : t.now = s.now := by rw [h.rest]
theorem cfg : t.cfg = s.cfg := by rw [h.rest]
theorem mode : t.mode = s.mode := by rw [h.rest]
theorem grid : t.grid = s.grid := congrArg Settings.grid h.cfg

theorem seg (hF : Field.segs ∉ F) (i : Nat) : t.seg i = s.seg i := by unfold State.seg; rw [h.segs hF]
theorem route? (hF : Field.routes ∉ F) (c : Nat) : t.route? c = s.route? c := by unfold State.route?; rw [h.routes hF]
theorem version (hF : Field.versions ∉ F) (c : Nat) : t.version c = s.version c := by
  unfold State.version; rw [h.versions hF]
theorem carrier? (hF : Field.carriers ∉ F) (c : Nat) : t.carrier? c = s.carrier? c := by
  unfold State.carrier?; rw [h.carriers hF]
theorem entry? (hF : Field.waiting ∉ F) (c : Nat) : t.entry? c = s.entry? c := by
  unfold State.entry?; rw [h.waiting hF]
theorem crane (hF : Field.cranes ∉ F) (k : Nat) : t.crane k = s.crane k := by unfold State.crane; rw [h.cranes hF]
theorem dlink (hF : Field.dispatch ∉ F) (m : DLink) : t.dlink m = s.dlink m := by
  unfold State.dlink; rw [h.dispatch hF]

end

end State.Only

end Sys2Proof.Machine
end

section
/-! The effect of each change within a request, and of one change after another (R21, R36, R53, R75, R156). -/

namespace Sys2Proof.Machine

theorem DispatchLink.offers_append (now : Time) (es fs : List Notif) (d : DispatchLink) :
    d.offers now (es ++ fs) = (d.offers now es).offers now fs := List.foldl_append

theorem SegDyn.eq_of_fields {x y : SegDyn} (hhold : x.hold = y.hold) (hoos : x.oos = y.oos) (hlock : x.lock = y.lock)
    (hintruder : x.intruder = y.intruder) : x = y := by
  obtain ⟨_, _, _, _⟩ := x
  obtain ⟨_, _, _, _⟩ := y
  subst hhold hoos hlock hintruder
  rfl

/-- Two changes of a record one after the other that share no field. -/
def SegDyn.Apart (a b c : SegDyn) : Prop :=
  (b.hold = a.hold ∨ c.hold = b.hold) ∧ (b.oos = a.oos ∨ c.oos = b.oos) ∧ (b.lock = a.lock ∨ c.lock = b.lock) ∧
    (b.intruder = a.intruder ∨ c.intruder = b.intruder)

namespace SegDyn.Apart

variable {a b c : SegDyn}

theorem of_left (h : b = a) : Apart a b c := by subst h; exact ⟨.inl rfl, .inl rfl, .inl rfl, .inl rfl⟩

theorem of_right (h : c = b) : Apart a b c := by subst h; exact ⟨.inr rfl, .inr rfl, .inr rfl, .inr rfl⟩

/-- The second change does not undo the first. -/
theorem kept (h : Apart a b c) (hc : c = a) : b = a := by
  subst hc
  obtain ⟨hhold, hoos, hlock, hintruder⟩ := h
  exact eq_of_fields (hhold.elim id Eq.symm) (hoos.elim id Eq.symm) (hlock.elim id Eq.symm) (hintruder.elim id Eq.symm)

/-- What comes to be so over two changes comes to be so by one of them. -/
theorem gone_iff {α : Type} {x y z : α} (p : α → Prop) (h : y = x ∨ z = y) :
    (¬ p x ∧ p z) ↔ (¬ p x ∧ p y) ∨ (¬ p y ∧ p z) := by
  rcases h with rfl | rfl
  · exact ⟨.inr, fun h => h.elim (fun ⟨hn, hp⟩ => absurd hp hn) id⟩
  · exact ⟨.inl, fun h => h.elim id fun ⟨hn, hp⟩ => absurd hp hn⟩

theorem callsFor (h : Apart a b c) :
    SegDyn.callsFor a c = true ↔ SegDyn.callsFor a b = true ∨ SegDyn.callsFor b c = true := by
  obtain ⟨hhold, hoos, hlock, hintruder⟩ := h
  simp only [SegDyn.callsFor_iff, ne_eq]
  rw [gone_iff (· = Hold.free) hhold, gone_iff (· = OutOfService.mk false false false) hoos,
    gone_iff (fun l : Table Reasons => l.rows = []) hlock, gone_iff (· = (none : Option Party)) hintruder]
  exact Iff.of_eq (by ac_rfl)

end SegDyn.Apart

theorem State.onCarrier_only (s : State) (c : Nat) (f : Carrier → Carrier) :
    State.Only [.carriers] s (s.onCarrier c f) := by
  unfold State.onCarrier
  split
  · exact .of_eq rfl
  · exact (State.Only.refl s).mono fun _ h => h

namespace Work

/-- The changes of two pieces of a request share no field of a record. -/
def Apart (w v u : Work) : Prop := ∀ i, SegDyn.Apart (w.s.seg i) (v.s.seg i) (u.s.seg i)

/-- What some changes within a request make of it: the fields of the part that they may change, the carriers that they
name, and the entries that they post, after what they leave for the end of the request (R21, R75). -/
structure Effect (F : List Field) (named : Nat → Prop) (es : List Notif) (w v : Work) : Prop where
  only : State.Only F w.s v.s
  grown : w.Grown v named
  calls : w.Calls v
  posts : ∀ m, v.s.dlink m = (w.s.dlink m).offers w.s.now es

theorem Calls.of_segs {w v : Work} (hs : ∀ i, v.s.seg i = w.s.seg i) (hr : v.reexam = w.reexam) : w.Calls v := by
  unfold Calls
  simp only [← SegDyn.callsFor_iff, hs, SegDyn.callsFor_self, hr]
  simp

theorem Grown.of_segs {w v : Work} {named : Nat → Prop} (hs : ∀ i, v.s.seg i = w.s.seg i) (hb : v.before = w.before)
    (ht : v.touched = w.touched) (hruns : ∀ c, c ∈ v.runs ↔ c ∈ w.runs ∨ named c) (hbump : v.bumped = w.bumped)
    (hset : v.settled = w.settled) (hrep : v.report = w.report) : w.Grown v named :=
  ⟨hb, fun i => by simp [ht, hs], hruns, hbump, hset, hrep⟩

/-- What two pieces leave for the end of the request, where the second does not undo the first. -/
theorem Grown.trans {w v u : Work} {n m : Nat → Prop} (h : w.Grown v n) (g : v.Grown u m)
    (hkept : ∀ i, u.s.seg i = w.s.seg i → v.s.seg i = w.s.seg i) : w.Grown u (fun c => n c ∨ m c) := by
  refine ⟨g.before.trans h.before, fun i => ?_, fun c => ?_, g.bumped.trans h.bumped, g.settled.trans h.settled,
    g.report.trans h.report⟩
  · rw [g.touched, h.touched, or_assoc]
    refine or_congr_right ⟨?_, fun hu => ?_⟩
    · rintro (hv | hu) he
      · exact hv (hkept i he)
      · exact hu (he.trans (hkept i he).symm)
    · exact (em (v.s.seg i = w.s.seg i)).elim (fun hv => .inr (hv ▸ hu)) .inl
  · rw [g.runs, h.runs, or_assoc]

namespace Effect

variable {F G : List Field} {n m : Nat → Prop} {es fs : List Notif} {w v u : Work}

theorem refl (w : Work) : Effect [] (fun _ => False) [] w w :=
  ⟨.refl _, .of_segs (fun _ => rfl) rfl rfl (fun _ => by simp) rfl rfl rfl, .of_segs (fun _ => rfl) rfl, fun _ => rfl⟩

theorem trans (h : Effect F n es w v) (g : Effect G m fs v u) (hapart : Apart w v u) :
    Effect (F ++ G) (fun c => n c ∨ m c) (es ++ fs) w u where
  only := h.only.trans g.only
  grown := h.grown.trans g.grown fun i => (hapart i).kept
  calls := by
    have hh := h.calls
    have hg := g.calls
    unfold Calls at hh hg ⊢
    simp only [← SegDyn.callsFor_iff] at hh hg ⊢
    rw [hg, hh, or_assoc, ← exists_or]
    exact or_congr_right (exists_congr fun i => (hapart i).callsFor.symm)
  posts := fun k => by rw [g.posts, h.posts, h.only.now, DispatchLink.offers_append]

/-- A change after which only changes that leave the records follow. -/
theorem aside (h : Effect F n es w v) (g : Effect G m fs v u) (hG : Field.segs ∉ G := by decide) :
    Effect (F ++ G) (fun c => n c ∨ m c) (es ++ fs) w u :=
  h.trans g fun i => .of_right (g.only.seg hG i)

/-- A change before which only changes that leave the records were made. -/
theorem first (h : Effect F n es w v) (g : Effect G m fs v u) (hF : Field.segs ∉ F := by decide) :
    Effect (F ++ G) (fun c => n c ∨ m c) (es ++ fs) w u :=
  h.trans g fun i => .of_left (h.only.seg hF i)

/-- The same effect, said otherwise. -/
theorem said (h : Effect F n es w v) (hF : F ⊆ G := by decide) (hn : ∀ c, n c ↔ m c) (hes : es = fs) :
    Effect G m fs w v :=
  ⟨h.only.mono hF, ⟨h.grown.before, h.grown.touched, fun c => (h.grown.runs c).trans (or_congr_right (hn c)),
    h.grown.bumped, h.grown.settled, h.grown.report⟩, h.calls, hes ▸ h.posts⟩

theorem reexam_eq (h : Effect F n es w v) (hs : ∀ i, SegDyn.callsFor (w.s.seg i) (v.s.seg i) = false) :
    v.reexam = w.reexam := by
  have hc := h.calls
  unfold Calls at hc
  simp only [← SegDyn.callsFor_iff, hs] at hc
  exact Bool.eq_iff_iff.2 (by simpa using hc)

/-- The versions counted within a request stand apart from its other effects. -/
theorem bump (h : Effect F n es w v) (c : Nat) :
    Effect F n es { w with bumped := c :: w.bumped } { v with bumped := c :: v.bumped } :=
  ⟨h.only, ⟨h.grown.before, h.grown.touched, h.grown.runs, congrArg (c :: ·) h.grown.bumped, h.grown.settled,
    h.grown.report⟩, h.calls, h.posts⟩

/-- The carriers settled within a request stand apart from its other effects. -/
theorem settle (h : Effect F n es w v) (c : Nat) :
    Effect F n es { w with settled := c :: w.settled } { v with settled := c :: v.settled } :=
  ⟨h.only, ⟨h.grown.before, h.grown.touched, h.grown.runs, h.grown.bumped, congrArg (c :: ·) h.grown.settled,
    h.grown.report⟩, h.calls, h.posts⟩

end Effect

/-! ## Single changes -/

theorem on_effect (w : Work) (F : List Field) {f : State → State} (h : State.Only F w.s (f w.s))
    (hs : Field.segs ∉ F := by decide) (hd : Field.dispatch ∉ F := by decide) :
    Effect F (fun _ => False) [] w (w.on f) :=
  ⟨h, .of_segs (h.seg hs) rfl rfl (fun _ => by simp [on]) rfl rfl rfl, .of_segs (h.seg hs) rfl, h.dlink hd⟩

theorem onSegs_effect (w : Work) (ids : List Nat) {f : SegDyn → SegDyn} (hf : ∀ r, f (f r) = f r) :
    Effect [.segs] (fun _ => False) [] w (w.onSegs ids f) := by
  have honly : State.Only [.segs] w.s (w.onSegs ids f).s := .of_eq (onSegs_rest w ids f)
  exact ⟨honly, onSegs_grown hf w ids, onSegs_calls hf w ids, honly.dlink (by decide)⟩

theorem concern_effect (w : Work) (c : Nat) : Effect [] (fun d => d = c) [] w (w.concern c) :=
  ⟨.refl _, .of_segs (fun _ => rfl) rfl rfl (fun d => by simp [concern, or_comm]) rfl rfl rfl,
    .of_segs (fun _ => rfl) rfl, fun _ => rfl⟩

theorem post_effect (w : Work) (kind : NotifKind) (subject : Subject) (detail : List Val) :
    Effect [.dispatch] (fun _ => False) [⟨kind, w.s.now, subject, detail⟩] w (w.post kind subject detail) :=
  ⟨.of_eq rfl, .of_segs (fun _ => rfl) rfl rfl (fun _ => by simp [post, on]) rfl rfl rfl, .of_segs (fun _ => rfl) rfl,
    w.s.dlink_post kind subject detail⟩

theorem onCarrier_effect (w : Work) (c : Nat) (f : Carrier → Carrier) :
    Effect [.carriers] (fun _ => False) [] w (w.onCarrier c f) := w.on_effect [.carriers] (w.s.onCarrier_only c f)

end Work
end Sys2Proof.Machine
end

section
/-! The effect of the changes of a carrier's state, route and record (R22, R36, R53, R69, R78), and the expiry of the
supervision and grace timers (R66, R68). -/

namespace Sys2Proof.Machine

/-- The entry that the removal of a stale pending entry posts (R36). -/
def State.staleEntries (s : State) (c : Nat) (cause : StaleCause) : List Notif :=
  (s.entry? c).toList.map (fun e => ⟨.pendingStale, s.now, .carrier c, [.half e.tag, .byte cause.code]⟩)

theorem State.staleEntries_congr {s t : State} (hw : t.waiting = s.waiting) (hnow : t.now = s.now) (c : Nat)
    (cause : StaleCause) : t.staleEntries c cause = s.staleEntries c cause := by
  unfold State.staleEntries State.entry?
  rw [hw, hnow]

/-- Without an entry of the carrier, nothing leaves the list with it. -/
theorem State.filter_waiting_of_none {s : State} {c : Nat} (h : s.entry? c = none) :
    s.waiting.filter (fun e => decide (e.carrier ≠ c)) = s.waiting :=
  List.filter_eq_self.2 fun e he => decide_eq_true (State.entry?_eq_none_iff.1 h e he)

/-- A carrier that changes its state so leaves IDLE other than by a grant (R36). -/
def CarrierState.leaves (old new : CarrierState) : Bool :=
  decide (old = .idle) && !(decide (new = .idle) || decide (new = .authorized))

namespace Work

variable (w : Work) (c : Nat)

/-! ## Pending entries made stale (R36) -/

theorem waiting_dropStale (cause : StaleCause) :
    (w.dropStale c cause).s.waiting = w.s.waiting.filter (fun e => decide (e.carrier ≠ c)) := by
  unfold dropStale
  cases he : w.s.entry? c with
  | some e => rfl
  | none => exact (State.filter_waiting_of_none he).symm

theorem dropStale_effect (cause : StaleCause) :
    Effect [.waiting, .dispatch] (fun _ => False) (w.s.staleEntries c cause) w (w.dropStale c cause) := by
  unfold dropStale State.staleEntries
  cases he : w.s.entry? c with
  | some e =>
    have hdrop : State.Only [.waiting] w.s (w.s.dropEntry c) := .of_eq rfl
    exact ((w.on_effect [.waiting] hdrop).aside (post_effect _ _ _ _)).said (by decide) (fun d => by simp) rfl
  | none => exact (Effect.refl w).said (by decide) (fun _ => Iff.rfl) rfl

/-! ## Changes of state (R53) -/

section
variable {c} {r : Carrier} (hr : w.s.carrier? c = some r) (new : CarrierState) (extra : List Val)

/-- The record with its new state, notified, and the carrier named for a run. -/
def stateChanged (w : Work) (c : Nat) (old new : CarrierState) (extra : List Val) : Work :=
  ((w.onCarrier c (fun r => { r with state := new, timer := if new.timerStops then none else r.timer })).notifyState c
    old.code new.code extra).concern c

theorem stateChanged_effect (old : CarrierState) : Effect [.carriers, .dispatch] (fun d => d = c)
    [⟨.carrierState, w.s.now, .carrier c, [.byte old.code, .byte new.code] ++ extra⟩] w
    (w.stateChanged c old new extra) := by
  have hcarrier := w.onCarrier_effect c (fun r => { r with
    state := new, timer := if new.timerStops then none else r.timer })
  have hpost := post_effect (w.onCarrier c (fun r => { r with
    state := new, timer := if new.timerStops then none else r.timer })) .carrierState (.carrier c)
      ([.byte old.code, .byte new.code] ++ extra)
  rw [hcarrier.only.now] at hpost
  have hall := (hcarrier.aside hpost).aside (concern_effect _ c)
  exact hall.said (by decide) (fun d => by simp) rfl

include hr

theorem changeState_eq : w.changeState c new extra =
    if r.state.leaves new then (w.stateChanged c r.state new extra).dropStale c .leftIdle
    else w.stateChanged c r.state new extra := by
  unfold changeState
  rw [hr]
  rfl

theorem changeState_effect : Effect [.carriers, .waiting, .dispatch] (fun d => d = c)
    (⟨.carrierState, w.s.now, .carrier c, [.byte r.state.code, .byte new.code] ++ extra⟩ ::
      if r.state.leaves new then w.s.staleEntries c .leftIdle else []) w (w.changeState c new extra) := by
  have hfirst := w.stateChanged_effect (c := c) new extra r.state
  rw [w.changeState_eq hr]
  split
  · refine (hfirst.aside (dropStale_effect _ c .leftIdle)).said (by decide) (fun d => by simp) ?_
    rw [State.staleEntries_congr (hfirst.only.waiting (by decide)) hfirst.only.now]
    rfl
  · exact hfirst.said (by decide) (fun _ => Iff.rfl) rfl

theorem waiting_changeState : (w.changeState c new extra).s.waiting =
    if r.state.leaves new then w.s.waiting.filter (fun e => decide (e.carrier ≠ c)) else w.s.waiting := by
  have hfirst := (w.stateChanged_effect (c := c) new extra r.state).only.waiting (by decide)
  rw [w.changeState_eq hr]
  split
  · rw [waiting_dropStale, hfirst]
  · exact hfirst

end

/-! ## Entry to EMERGENCY (R69) -/

variable (cause : EmergencyCause) (lock : Option Reasons)

theorem causeVals_eq : causeVals cause lock = .byte cause.code :: (lock.map (fun q => Val.byte q.code)).toList := by
  cases lock <;> rfl

/-- The record of a carrier that is about to enter EMERGENCY. -/
theorem carrier?_caused {r : Carrier} (hr : w.s.carrier? c = some r) :
    (w.onCarrier c (fun r => { r with cause := some cause })).s.carrier? c = some { r with cause := some cause } := by
  show (w.s.onCarrier c _).carrier? c = _
  rw [State.carrier?_onCarrier, if_pos rfl, hr]
  rfl

theorem carrier?_enterEmergency (d : Nat) : (w.enterEmergency c cause lock).s.carrier? d =
    if d = c then (w.s.carrier? d).map (fun r => r.asked cause) else w.s.carrier? d := by
  unfold enterEmergency
  cases hr : w.s.carrier? c with
  | none =>
    by_cases hd : d = c
    · subst hd; simp [hr]
    · simp [hd]
  | some r =>
    by_cases hd : d = c
    · subst hd
      obtain ⟨state, _⟩ := r
      cases state <;> simp [hr, Carrier.asked, carrier?_changeState, notifyState, post, onCarrier, on,
        State.carrier?_onCarrier, CarrierState.timerStops]
    · obtain ⟨state, _⟩ := r
      cases state <;> simp [hd, carrier?_changeState, notifyState, post, onCarrier, on, State.carrier?_onCarrier]

/-- A carrier that is IDLE or AUTHORIZED enters EMERGENCY. -/
theorem enterEmergency_leaving {r : Carrier} (hr : w.s.carrier? c = some r)
    (hs : r.state = .idle ∨ r.state = .authorized) :
    Effect [.carriers, .waiting, .dispatch] (fun d => d = c) (w.s.askEntries cause lock c) w
        (w.enterEmergency c cause lock) ∧
      (w.enterEmergency c cause lock).s.waiting =
        if r.state = .idle then w.s.waiting.filter (fun e => decide (e.carrier ≠ c)) else w.s.waiting := by
  have hcaused := w.onCarrier_effect c (fun r => { r with cause := some cause })
  have hrecord := w.carrier?_caused c cause hr
  have hchange := changeState_effect _ hrecord .emergency (causeVals cause lock)
  have hwaiting := waiting_changeState _ hrecord .emergency (causeVals cause lock)
  rw [State.staleEntries_congr (hcaused.only.waiting (by decide)) hcaused.only.now, hcaused.only.now] at hchange
  rw [hcaused.only.waiting (by decide)] at hwaiting
  have heq : w.enterEmergency c cause lock =
      (w.onCarrier c (fun r => { r with cause := some cause })).changeState c .emergency (causeVals cause lock) := by
    unfold enterEmergency
    rw [hr]
    rcases hs with hs | hs <;> simp only [hs]
  rw [heq]
  refine ⟨(hcaused.aside hchange).said (by decide) (fun d => by simp) ?_, hwaiting.trans ?_⟩
  · unfold State.askEntries
    rw [hr, causeVals_eq]
    rcases hs with hs | hs <;> simp only [hs] <;> rfl
  · rcases hs with hs | hs <;> simp only [hs] <;> rfl

theorem enterEmergency_effect : Effect [.carriers, .waiting, .dispatch]
    (fun d => d = c ∧ (w.s.carrierIs c .idle = true ∨ w.s.carrierIs c .authorized = true))
    (w.s.askEntries cause lock c) w (w.enterEmergency c cause lock) := by
  cases hr : w.s.carrier? c with
  | none =>
    have heq : w.enterEmergency c cause lock = w := by unfold enterEmergency; rw [hr]
    rw [heq]
    refine (Effect.refl w).said (by decide) (fun d => ?_) ?_
    · simp [State.carrierIs, hr]
    · simp [State.askEntries, hr]
  | some r =>
    by_cases hs : r.state = .idle ∨ r.state = .authorized
    · exact (w.enterEmergency_leaving c cause lock hr hs).1.said (by decide)
        (fun d => by simp [State.carrierIs, hr, hs]) rfl
    · have hno : ∀ d, False ↔ d = c ∧ (w.s.carrierIs c .idle = true ∨ w.s.carrierIs c .authorized = true) := fun d => by
        simp [State.carrierIs, hr, not_or.1 hs]
      unfold enterEmergency State.askEntries
      rw [hr]
      dsimp only
      cases hst : r.state with
      | idle => exact absurd (.inl hst) hs
      | authorized => exact absurd (.inr hst) hs
      | emergency =>
        refine (post_effect _ _ _ _).said (by decide) hno ?_
        rw [causeVals_eq]
        rfl
      | missing =>
        have hcaused := w.onCarrier_effect c (fun r => { r with prior := some .emergency, cause := some cause })
        refine (hcaused.aside (post_effect _ _ _ _)).said (by decide) (fun d => by rw [← hno d]; simp) ?_
        rw [causeVals_eq, hcaused.only.now]
        rfl
      | offline => exact (Effect.refl w).said (by decide) hno rfl
      | away => exact (Effect.refl w).said (by decide) hno rfl
      | lost => exact (Effect.refl w).said (by decide) hno rfl

theorem waiting_enterEmergency : (w.enterEmergency c cause lock).s.waiting =
    if w.s.carrierIs c .idle then w.s.waiting.filter (fun e => decide (e.carrier ≠ c)) else w.s.waiting := by
  cases hr : w.s.carrier? c with
  | none => simp [enterEmergency, State.carrierIs, hr]
  | some r =>
    by_cases hs : r.state = .idle ∨ r.state = .authorized
    · rw [(w.enterEmergency_leaving c cause lock hr hs).2]
      simp [State.carrierIs, hr]
    · have hidle : w.s.carrierIs c .idle = false := by simp [State.carrierIs, hr, not_or.1 hs]
      rw [hidle, if_neg Bool.false_ne_true]
      unfold enterEmergency
      rw [hr]
      dsimp only
      cases hst : r.state with
      | idle => exact absurd (.inl hst) hs
      | authorized => exact absurd (.inr hst) hs
      | missing => exact (onCarrier_effect w c _).only.waiting (by decide)
      | emergency => rfl
      | offline => rfl
      | away => rfl
      | lost => rfl

/-! ## Routes (R22, R78) -/

theorem deleteRoute_effect : Effect [.routes, .carriers] (fun d => d = c ∧ w.s.route? c ≠ none) [] w
    (w.deleteRoute c) := by
  unfold deleteRoute
  cases hroute : w.s.route? c with
  | none => exact (Effect.refl w).said (by decide) (fun d => by simp) rfl
  | some x =>
    have hdel : State.Only [.routes] w.s { w.s with routes := w.s.routes.del c } := .of_eq rfl
    exact (((w.on_effect [.routes] (f := fun s => { s with routes := s.routes.del c }) hdel).aside
      (onCarrier_effect _ c _)).aside (concern_effect _ c)).said (by decide) (fun d => by simp) rfl

theorem route?_deleteRoute (d : Nat) : (w.deleteRoute c).s.route? d = if d = c then none else w.s.route? d := by
  unfold deleteRoute
  cases hroute : w.s.route? c with
  | none =>
    by_cases hd : d = c
    · simp [hd, hroute]
    · simp [hd]
  | some x =>
    refine (State.route?_onCarrier _ _ _ _).trans ?_
    exact Table.get?_del _ _ _

theorem carrier?_deleteRoute (d : Nat) : (w.deleteRoute c).s.carrier? d =
    if d = c ∧ w.s.route? c ≠ none then
      (w.s.carrier? d).map (fun r => { r with auth := { r.auth with endPos := none } })
    else w.s.carrier? d := by
  unfold deleteRoute
  cases hroute : w.s.route? c with
  | none => simp
  | some x =>
    refine (State.carrier?_onCarrier _ _ _).trans ?_
    simp
    rfl

theorem bumpVersion_effect : Effect [.routes, .versions] (fun _ => False) [] w (w.bumpVersion c) :=
  w.on_effect [.routes, .versions] (f := fun s => { s with
    versions := s.versions.put c (wrap8 (w.s.version c))
    routes := match s.route? c with
      | some r => s.routes.put c { r with version := wrap8 (w.s.version c) }
      | none => s.routes }) (.of_eq rfl)

theorem putRoute_effect (x : Route) : Effect [.routes] (fun d => d = c) [] w (w.putRoute c x) :=
  ((w.on_effect [.routes] (f := fun s => { s with routes := s.routes.put c x }) (.of_eq rfl)).aside
    (concern_effect _ c)).said (by decide) (fun d => by simp) rfl

theorem route?_putRoute (x : Route) (d : Nat) :
    (w.putRoute c x).s.route? d = if d = c then some x else w.s.route? d := Table.get?_put _ _ _ _

end Work

/-! ## The segments whose record passes a test -/

/-- A test that a fresh record does not pass finds exactly the segments whose record passes it. -/
theorem State.mem_segsWhere {s : State} (hs : s.segs.Sorted) {p : SegDyn → Bool} (hp : p SegDyn.fresh = false)
    {i : Nat} : i ∈ s.segs.keysWhere p ↔ p (s.seg i) = true := by
  rw [Table.mem_keysWhere hs]
  unfold State.seg Table.get
  cases s.segs.get? i with
  | none => simp [hp]
  | some r => simp

/-- Two lists without repeats of the same segments have the same length. -/
theorem length_eq_of_mem_iff {l m : List Nat} (hl : l.Nodup) (hm : m.Nodup) (h : ∀ i, i ∈ l ↔ i ∈ m) :
    l.length = m.length := ((List.perm_ext_iff_of_nodup hl hm).2 h).length_eq

theorem SegDyn.heldBy_iff (r : SegDyn) (p : Party) : r.heldBy p = true ↔ ∃ k, r.hold = .held p k := by
  unfold SegDyn.heldBy
  cases r.hold <;> simp [eq_comm]

theorem State.mem_heldBy {s : State} (hs : s.segs.Sorted) {p : Party} {i : Nat} :
    i ∈ s.heldBy p ↔ ∃ k, (s.seg i).hold = .held p k :=
  (State.mem_segsWhere hs rfl).trans (SegDyn.heldBy_iff _ _)

end Sys2Proof.Machine
end

section
/-! The expiry of the supervision and grace timers (R66, R68). -/

namespace Sys2Proof.Machine

variable {s : State} {c : Nat} {r : Carrier}

theorem Carrier.expired_iff (r : Carrier) (states : List CarrierState) :
    r.expired states = true ↔ r.state ∈ states ∧ r.timer = some 0 := by
  simp [Carrier.expired]

/-! ## MISSING (R66) -/

/-- The record of a carrier that becomes MISSING. -/
def Carrier.missed (r : Carrier) : Carrier :=
  { r with state := .missing, prior := some r.state, timer := some r.applied.grace }

/-- The carrier is MISSING, notified, and named for a run. -/
def missingNoted (s : State) (c : Nat) (r : Carrier) : Work :=
  (((Work.start s none).onCarrier c Carrier.missed).post .carrierMissing (.carrier c)
    [.byte r.state.code, timeVal? r.lastTime]).concern c

theorem goMissing_eq : (Work.start s none).goMissing c r =
    if r.state = .idle then (missingNoted s c r).dropStale c .leftIdle else missingNoted s c r := rfl

theorem missingNoted_effect : Work.Effect [.carriers, .dispatch] (fun d => d = c)
    [⟨.carrierMissing, s.now, .carrier c, [.byte r.state.code, timeVal? r.lastTime]⟩] (Work.start s none)
    (missingNoted s c r) := by
  have hrecord := (Work.start s none).onCarrier_effect c Carrier.missed
  have hpost := Work.post_effect ((Work.start s none).onCarrier c Carrier.missed) .carrierMissing (.carrier c)
    [.byte r.state.code, timeVal? r.lastTime]
  rw [hrecord.only.now] at hpost
  exact ((hrecord.aside hpost).aside (Work.concern_effect _ c)).said (by decide) (fun d => by simp) rfl

theorem carrier?_missingNoted (hr : s.carrier? c = some r) (d : Nat) :
    (missingNoted s c r).s.carrier? d = if d = c then some r.missed else s.carrier? d := by
  refine (State.carrier?_onCarrier (s := s) c d Carrier.missed).trans ?_
  by_cases hd : d = c
  · subst hd; simp [hr]
  · simp [hd]

theorem goMissing_effect :
    Work.Effect [.carriers, .waiting, .dispatch] (fun d => d = c)
      (⟨.carrierMissing, s.now, .carrier c, [.byte r.state.code, timeVal? r.lastTime]⟩ ::
        if r.state = .idle then s.staleEntries c .leftIdle else [])
      (Work.start s none) ((Work.start s none).goMissing c r) := by
  have hfirst := missingNoted_effect (s := s) (c := c) (r := r)
  rw [goMissing_eq]
  by_cases hi : r.state = .idle
  · simp only [if_pos hi]
    refine (hfirst.aside (Work.dropStale_effect _ c .leftIdle)).said (by decide) (fun d => by simp) ?_
    rw [State.staleEntries_congr (hfirst.only.waiting (by decide)) hfirst.only.now]
    rfl
  · simp only [if_neg hi]
    exact hfirst.said (by decide) (fun _ => Iff.rfl) rfl

theorem waiting_goMissing : ((Work.start s none).goMissing c r).s.waiting =
    if r.state = .idle then s.waiting.filter (fun e => decide (e.carrier ≠ c)) else s.waiting := by
  have hfirst := (missingNoted_effect (s := s) (c := c) (r := r)).only.waiting (by decide)
  rw [goMissing_eq]
  split
  · exact (Work.waiting_dropStale _ c .leftIdle).trans (by rw [hfirst]; rfl)
  · exact hfirst

theorem carrier?_goMissing (hr : s.carrier? c = some r) (d : Nat) :
    ((Work.start s none).goMissing c r).s.carrier? d = if d = c then some r.missed else s.carrier? d := by
  rw [goMissing_eq, ← carrier?_missingNoted hr]
  split
  · exact (Work.dropStale_effect _ c .leftIdle).only.carrier? (by decide) d
  · rfl

/-! ## LOST (R44, R68) -/

/-- The record of a carrier that becomes LOST. -/
def Carrier.lost (now : Time) (r : Carrier) : Carrier :=
  { r with state := .lost, prior := none, cause := none, timer := none, lostSince := some now, sighting := none }

/-- The carrier is LOST and its ground frozen. -/
def lostFrozen (s : State) (c : Nat) : Work :=
  ((Work.start s none).onCarrier c (Carrier.lost s.now)).onSegs (s.heldBy (.carrier c)) SegDyn.freeze

theorem lostFrozen_effect : Work.Effect [.carriers, .segs] (fun _ => False) [] (Work.start s none) (lostFrozen s c) :=
  ((Work.start s none).onCarrier_effect c (Carrier.lost s.now)).first (Work.onSegs_effect _ _ Work.freeze_idem)
    |>.said (by decide) (fun _ => by simp) rfl

theorem seg_lostFrozen (i : Nat) :
    (lostFrozen s c).s.seg i = if i ∈ s.heldBy (.carrier c) then (s.seg i).freeze else s.seg i := by
  refine (Work.seg_onSegs _ _ _ Work.freeze_idem i).trans ?_
  rw [((Work.start s none).onCarrier_effect c (Carrier.lost s.now)).only.seg (by decide)]
  rfl

theorem carrier?_lostFrozen (hr : s.carrier? c = some r) (d : Nat) :
    (lostFrozen s c).s.carrier? d = if d = c then some (r.lost s.now) else s.carrier? d := by
  refine ((Work.onSegs_effect _ _ Work.freeze_idem).only.carrier? (by decide) d).trans ?_
  refine (State.carrier?_onCarrier (s := s) c d (Carrier.lost s.now)).trans ?_
  by_cases hd : d = c
  · subst hd; simp [hr]
  · simp [hd]

theorem goLost_eq : (Work.start s none).goLost c r = (((lostFrozen s c).dropStale c .leftIdle).post .carrierLost
    (.carrier c) [.byte (s.heldBy (.carrier c)).length, timeVal? r.lastTime]).concern c := rfl

/-- What follows once the ground is frozen. -/
theorem goLost_rest : Work.Effect [.waiting, .dispatch] (fun d => d = c)
    (s.staleEntries c .leftIdle ++
      [⟨.carrierLost, s.now, .carrier c, [.byte (s.heldBy (.carrier c)).length, timeVal? r.lastTime]⟩])
    (lostFrozen s c) ((Work.start s none).goLost c r) := by
  have hfirst := (lostFrozen_effect (s := s) (c := c)).only
  have hstale := Work.dropStale_effect (lostFrozen s c) c .leftIdle
  have hpost := Work.post_effect ((lostFrozen s c).dropStale c .leftIdle) .carrierLost (.carrier c)
    [.byte (s.heldBy (.carrier c)).length, timeVal? r.lastTime]
  rw [hstale.only.now, hfirst.now] at hpost
  rw [State.staleEntries_congr (hfirst.waiting (by decide)) hfirst.now] at hstale
  rw [goLost_eq]
  exact ((hstale.aside hpost).aside (Work.concern_effect _ c)).said (by decide) (fun d => by simp) (List.append_nil _)

theorem waiting_goLost : ((Work.start s none).goLost c r).s.waiting =
    s.waiting.filter (fun e => decide (e.carrier ≠ c)) := by
  refine (Work.waiting_dropStale (lostFrozen s c) c .leftIdle).trans ?_
  rw [(lostFrozen_effect (s := s) (c := c)).only.waiting (by decide)]
  rfl

/-- Settles O37. -/
theorem supervisionAndGraceExpiry : Obligations.SupervisionAndGraceExpiry := by
  unfold Obligations.SupervisionAndGraceExpiry
  intro s c r hr htimer hsorted
  refine ⟨fun hstate stale hstale => ⟨(Work.start s none).goMissing c r, ?_, ?_⟩, fun hstate held hheld hnodup =>
    ⟨(Work.start s none).goLost c r, ?_, ?_⟩⟩
  · have hexpired : r.expired [.idle, .authorized, .emergency] = true :=
      r.expired_iff _ |>.2 ⟨by simpa using hstate, htimer⟩
    show Host.Outcome.next (s.expireSupervision c).pump = _
    unfold State.expireSupervision
    simp only [hr, hexpired, if_true]
    rfl
  · have h := goMissing_effect (s := s) (c := c) (r := r)
    have hwaiting := waiting_goMissing (s := s) (c := c) (r := r)
    have hread := carrier?_goMissing (s := s) (c := c) hr
    refine ⟨h.grown, h.reexam_eq fun i => ?_, (hread c).trans (if_pos rfl), fun d hd => (hread d).trans (if_neg hd),
      hwaiting.trans ?_, fun m => (h.posts m).trans ?_, h.only.eq⟩
    · rw [h.only.seg (by decide), SegDyn.callsFor_self]
    · subst hstale
      by_cases hidle : r.state = .idle
      · cases hentry : s.entry? c with
        | some e => simp [hidle]
        | none => simpa [hidle] using State.filter_waiting_of_none hentry
      · simp [hidle]
    · subst hstale
      by_cases hidle : r.state = .idle
      · simp only [if_pos hidle]
        rfl
      · simp only [if_neg hidle]
        rfl
  · have hexpired : r.expired [.missing] = true := r.expired_iff _ |>.2 ⟨by simp [hstate], htimer⟩
    show Host.Outcome.next (s.expireGrace c).pump = _
    unfold State.expireGrace
    simp only [hr, hexpired, if_true]
    rfl
  · have hfirst := lostFrozen_effect (s := s) (c := c)
    have hrest := goLost_rest (s := s) (c := c) (r := r)
    have hread := carrier?_lostFrozen (s := s) (c := c) hr
    have hrecord := hrest.only.carrier? (by decide)
    have hseg : ∀ i, ((Work.start s none).goLost c r).s.seg i =
        if i ∈ s.heldBy (.carrier c) then (s.seg i).freeze else s.seg i := fun i =>
      (hrest.only.seg (by decide) i).trans (seg_lostFrozen i)
    have hmem : ∀ i, i ∈ s.heldBy (.carrier c) ↔ i ∈ held := fun i => (State.mem_heldBy hsorted).trans (hheld i).symm
    have hlength : (s.heldBy (.carrier c)).length = held.length :=
      length_eq_of_mem_iff (Table.nodup_keysWhere hsorted _) hnodup hmem
    have hall := (hfirst.aside hrest).said (G := [.segs, .waiting, .carriers, .dispatch]) (m := fun d => d = c)
      (by decide) (fun d => by simp) rfl
    refine ⟨hall.grown, hall.reexam_eq fun i => ?_, ((hrecord c).trans (hread c)).trans (if_pos rfl),
      fun d hd => ((hrecord d).trans (hread d)).trans (if_neg hd), fun i => ⟨fun k hk => ?_, fun hi => ?_⟩,
      waiting_goLost, fun m => (hall.posts m).trans ?_, hall.only.eq⟩
    · rw [hseg]
      split
      · exact Work.freeze_calm _
      · exact SegDyn.callsFor_self _
    · rw [hseg, if_pos ((State.mem_heldBy hsorted).2 ⟨k, hk⟩)]
      simp [SegDyn.freeze, hk]
    · rw [hseg, if_neg fun h => hi ((hmem i).1 h)]
    · rw [← hlength]
      rfl

end Sys2Proof.Machine
end

section
/-! Checks in order, the checks that ROUTE_EXTEND and ROUTE_CANCEL share (R27, R28), and ROUTE_CANCEL and PENDING_CANCEL
(R28, R29, R91). -/

namespace Sys2Proof.Machine

/-! ## Checks in order -/

/-- Some checks fail first among themselves, or all of them pass and the rest decides. -/
theorem firstFails_append {Name Detail : Type} (l m : List (Name × (Detail → Prop))) (why : Name) (detail : Detail) :
    FirstFails (l ++ m) why detail ↔
      FirstFails l why detail ∨ ((∀ x ∈ l, ∀ d, ¬ x.2 d) ∧ FirstFails m why detail) := by
  induction l with
  | nil => simp [FirstFails]
  | cons x rest ih =>
    obtain ⟨reason, fails⟩ := x
    simp only [List.cons_append, FirstFails, ih, List.forall_mem_cons]
    rw [and_or_left, ← and_assoc, ← or_assoc]

/-- The checks that ROUTE_EXTEND and ROUTE_CANCEL share (R27 checks 1 to 3, R28). -/
def State.routeTests (u : State) (c : Nat) : List (Reason × (List Val → Prop)) := [
  (.badMode, fun d => u.mode ≠ .active ∧ d = []), (.unknownCarrier, fun d => u.carrier? c = none ∧ d = []),
  (.noRoute, fun d => ∃ r, u.carrier? c = some r ∧ r.state = .idle ∧ d = []),
  (.badCarrierState, fun d => ∃ r, u.carrier? c = some r ∧ r.state ≠ .authorized ∧ d = [])]

theorem State.routeOf_refused {u : State} {c : Nat} {why : Reason} {detail : List Val}
    (h : FirstFails (u.routeTests c) why detail) (kind : Nat) : u.routeOf kind c = .error (refuse kind why detail) := by
  unfold State.routeOf
  rcases h with ⟨rfl, hm, rfl⟩ | ⟨hm, ⟨rfl, hr, rfl⟩ | ⟨-, ⟨rfl, r, hr, hi, rfl⟩ | ⟨hi, ⟨rfl, r, hr, hs, rfl⟩ | h⟩⟩⟩
  · rw [if_pos hm]
  · rw [if_neg fun h => hm [] ⟨h, rfl⟩, hr]
  · rw [if_neg fun h => hm [] ⟨h, rfl⟩, hr]
    exact if_pos hi
  · rw [if_neg fun h => hm [] ⟨h, rfl⟩, hr]
    exact (if_neg fun h => hi [] ⟨r, hr, h, rfl⟩).trans (if_pos hs)
  · exact h.2.elim

/-- The carrier and route of a request that passes these checks. -/
theorem State.routeTests_pass {u : State} {c : Nat} (h : ∀ x ∈ u.routeTests c, ∀ d, ¬ x.2 d) :
    u.mode = .active ∧ ∃ r, u.carrier? c = some r ∧ r.state = .authorized := by
  simp only [State.routeTests, List.forall_mem_cons] at h
  obtain ⟨hmode, hnone, -, hstate, -⟩ := h
  refine ⟨not_not.1 fun hm => hmode [] ⟨hm, rfl⟩, ?_⟩
  obtain ⟨r, hr⟩ := Option.ne_none_iff_exists'.1 fun hn => hnone [] ⟨hn, rfl⟩
  exact ⟨r, hr, not_not.1 fun hs => hstate [] ⟨r, hr, hs, rfl⟩⟩

theorem State.routeOf_ok {u : State} {c : Nat} {r : Carrier} {route : Route} (hm : u.mode = .active)
    (hr : u.carrier? c = some r) (hs : r.state = .authorized) (hroute : u.route? c = some route) (kind : Nat) :
    u.routeOf kind c = .ok (r, route) := by
  simp [State.routeOf, hm, hr, hs, hroute]

theorem State.registered_iff {u : State} {c : Nat} : u.registered c = true ↔ u.carrier? c ≠ none := by
  unfold State.registered Table.has State.carrier?
  cases u.carriers.get? c <;> simp

/-! ## The route version incremented by a request itself (R83) -/

namespace Work

theorem Effect.reexam_iff {F : List Field} {n : Nat → Prop} {es : List Notif} {w v : Work} (h : Effect F n es w v) :
    v.reexam = true ↔ w.reexam = true ∨ ∃ i, SegDyn.callsFor (w.s.seg i) (v.s.seg i) = true := by
  simp only [SegDyn.callsFor_iff]
  exact h.calls

variable (w : Work) (c : Nat)

theorem bumpSelf_effect : Effect [.routes, .versions] (fun _ => False) [] { w with bumped := c :: w.bumped }
    (w.bumpSelf c) := (w.bumpVersion_effect c).bump c

theorem route?_bumpSelf (d : Nat) : (w.bumpSelf c).s.route? d =
    if d = c then (w.s.route? d).map (fun r => { r with version := wrap8 (w.s.version c) }) else w.s.route? d :=
  w.route?_bumpVersion c d

theorem version_bumpSelf (d : Nat) : (w.bumpSelf c).s.version d =
    if d = c then wrap8 (w.s.version c) else w.s.version d :=
  w.version_bumpVersion c d

/-! ## A route rewritten on changed ground -/

section
variable (ids : List Nat) (f : SegDyn → SegDyn) (x : Route)

/-- Records changed, the carrier's route written, and its version incremented (R27, R28). -/
def reroute : Work := ((w.onSegs ids f).putRoute c x).bumpSelf c

variable {f} (hf : ∀ r, f (f r) = f r)
include hf

theorem reroute_effect : Effect [.segs, .routes, .versions] (fun d => d = c) [] { w with bumped := c :: w.bumped }
    (w.reroute c ids f x) := by
  have hroute := ((w.onSegs_effect ids hf).aside (putRoute_effect _ c x)).bump c
  exact (hroute.aside (bumpSelf_effect _ c)).said (by decide) (fun d => by simp) rfl

theorem seg_reroute (i : Nat) : (w.reroute c ids f x).s.seg i = if i ∈ ids then f (w.s.seg i) else w.s.seg i :=
  w.seg_onSegs ids f hf i

theorem version_reroute (d : Nat) :
    (w.reroute c ids f x).s.version d = if d = c then wrap8 (w.s.version c) else w.s.version d := by
  have hv := ((w.onSegs_effect ids hf).aside (putRoute_effect _ c x)).only.version (by decide)
  refine (version_bumpSelf _ c d).trans ?_
  rw [hv, hv]

theorem route?_reroute (d : Nat) : (w.reroute c ids f x).s.route? d =
    if d = c then some { x with version := wrap8 (w.s.version c) } else w.s.route? d := by
  have hv := ((w.onSegs_effect ids hf).aside (putRoute_effect _ c x)).only.version (by decide)
  have hr := (w.onSegs_effect ids hf).only.route? (by decide)
  refine (route?_bumpSelf _ c d).trans ?_
  rw [hv, route?_putRoute, hr]
  by_cases hd : d = c <;> simp [hd]

end

end Work

/-- A release calls for re-examination where it makes a segment FREE (R21). -/
theorem SegDyn.callsFor_release (r : SegDyn) : SegDyn.callsFor r r.release = true ↔ r.hold ≠ .free := by
  rw [SegDyn.callsFor_iff]
  simp [SegDyn.release]

/-! ## ROUTE_CANCEL -/

/-- The stopping distance (R91), with the quotients written out. -/
theorem stoppingDistance_eq (v : Nat) (x : ClassVals) (hd : 1 ≤ x.decel) : stoppingDistance v x =
    (v * v + (2 * x.decel - 1)) / (2 * x.decel) + (v * x.latency + 999) / 1000 + x.margin := by
  unfold stoppingDistance reactionTerm ceilDiv
  rw [Nat.add_sub_assoc (by omega)]
  rfl

/-- The entry that contains the cut point (R28, R91). -/
theorem cutEntry_eq {g : Grid} {r : Carrier} {route : Route} {k p : Nat}
    (hp : p = frontPos g route r.frontRem + ((r.speed * r.speed + (2 * r.applied.decel - 1)) / (2 * r.applied.decel) +
      (r.speed * r.applied.latency + 999) / 1000 + r.applied.margin)) (hd : 1 ≤ r.applied.decel)
    (hk : k < route.list.length) (hle : routePos g route.list k ≤ p)
    (hlt : p < routePos g route.list (k + 1) ∨ k + 1 = route.list.length) : cutEntry g r route = k := by
  unfold cutEntry
  rw [stoppingDistance_eq _ _ hd, ← hp]
  by_cases hin : p < routePos g route.list (k + 1)
  · exact entryAt_of_within g route.list hk hle hin
  · have hlast := hlt.resolve_left hin
    rw [entryAt_of_beyond g route.list (List.ne_nil_of_length_pos (by omega)) (by rw [← hlast]; omega)]
    omega

/-- Settles O23. -/
theorem routeCancelAndPendingCancel : Obligations.RouteCancelAndPendingCancel := by
  unfold Obligations.RouteCancelAndPendingCancel
  refine ⟨fun s u l c k p stop r route hu hroom hm hr hs hroute hp hd hk hle hlt hstop => ?_,
    fun s u l c why detail hu hroom h => ?_, fun s u l c hu hroom =>
      ⟨fun hm => ?_, fun hm hr => ?_, fun hm hr hn => ?_, fun hm hr before e after hw he hothers => ?_⟩⟩
  · have hcut := cutEntry_eq hp hd hk hle hlt
    have hrel := Work.release_idem
    have hgone : (route.list.drop (k + 1)).isEmpty = true ↔ k + 1 = route.list.length := by
      rw [List.isEmpty_iff, List.drop_eq_nil_iff]
      omega
    have hlast : (route.list.take (k + 1)).getLastD 0 = route.list.getD k 0 := by
      rw [List.take_succ_eq_append_getElem hk, List.getLastD_concat, List.getD_eq_getElem _ _ hk]
    let new : Route := { route with list := route.list.take (k + 1), stop := stop }
    let w := (Work.start u none).reroute c (route.list.drop (k + 1)) SegDyn.release new
    have heffect := (Work.start u none).reroute_effect c (route.list.drop (k + 1)) new hrel
    have hversion := (Work.start u none).version_reroute c (route.list.drop (k + 1)) new hrel
    have hroutes := (Work.start u none).route?_reroute c (route.list.drop (k + 1)) new hrel
    have hseg := (Work.start u none).seg_reroute c (route.list.drop (k + 1)) new hrel
    have howner : ownRouteCancel c u = (w.finish, ⟨0x28, .accepted, .none_, false,
        [.byte (w.finish.version c), .byte (route.list.length - (k + 1)), .half stop]⟩) := by
      have hstop' : (if (route.list.drop (k + 1)).isEmpty = true then route.stop
          else u.grid.lengthOf ((route.list.take (k + 1)).getLastD 0)) = stop := by
        rw [hstop, hlast]
        exact if_congr hgone rfl rfl
      unfold ownRouteCancel
      rw [State.routeOf_ok hm hr hs hroute]
      dsimp only
      rw [hcut, hstop', List.length_drop]
      rfl
    refine ⟨w, next_takeRequest hu hroom howner, heffect.grown, heffect.only.eq, (hversion c).trans (if_pos rfl), ?_,
      fun d hd => ⟨(hroutes d).trans (if_neg hd), (hversion d).trans (if_neg hd)⟩, hseg, ?_⟩
    · rw [hroutes, hversion, if_pos rfl, if_pos rfl]
    · refine (heffect.reexam_iff.trans (or_iff_right Bool.false_ne_true)).trans (exists_congr fun i => ?_)
      rw [hseg]
      by_cases hi : i ∈ route.list.drop (k + 1)
      · rw [if_pos hi, and_iff_right hi]
        exact SegDyn.callsFor_release _
      · rw [if_neg hi]
        exact iff_of_false (by simp [SegDyn.callsFor_self]) fun h => hi h.1
  · have howner : ownRouteCancel c u = (u, ⟨0x28, .refused, why, false, detail⟩) := by
      unfold ownRouteCancel
      rw [State.routeOf_refused h]
      rfl
    exact next_takeRequest hu hroom howner
  · exact next_takeRequest hu hroom (if_pos hm)
  · have howner : ownPendingCancel c u = (u, ⟨0x29, .refused, .unknownCarrier, false, []⟩) := by
      have hreg : u.registered c = false := Bool.eq_false_iff.2 fun h => State.registered_iff.1 h hr
      simp [ownPendingCancel, hm, hreg, refuse]
    exact next_takeRequest hu hroom howner
  · have howner : ownPendingCancel c u = (u, ⟨0x29, .refused, .notPending, false, []⟩) := by
      simp [ownPendingCancel, hm, State.registered_iff.2 hr, State.entry?_eq_none_iff.2 hn, refuse]
    exact next_takeRequest hu hroom howner
  · have howner : ownPendingCancel c u = (State.post { u with waiting := before ++ after } .pendingDropped (.carrier c)
        [.byte 1, .half e.tag], ⟨0x29, .accepted, .none_, false, [.half e.tag]⟩) := by
      have hentry := State.entry?_of_first hw he fun x hx => hothers x (List.mem_append_left _ hx)
      simp [ownPendingCancel, hm, State.registered_iff.2 hr, hentry, State.dropEntry_of_only hw he hothers, accept]
    exact next_takeRequest hu hroom howner

end Sys2Proof.Machine
end

section
/-! The tests of a list of segments (R24, R27), and ROUTE_EXTEND (R26, R27). -/

namespace Sys2Proof.Machine

/-! ## The tests of a list of segments -/

theorem Grid.firstUnusable_none {g : Grid} {ids : List Nat} (h : ∀ i ∈ ids, g.usable i = true) :
    g.firstUnusable ids = none := firstWhere_eq_none.2 fun i hi => by simp [h i hi]

theorem Grid.firstUnusable_some {g : Grid} {pre post : List Nat} {i : Nat} (hpre : ∀ j ∈ pre, g.usable j = true)
    (hi : g.usable i = false) : g.firstUnusable (pre ++ i :: post) = some (pre.length, i) :=
  firstWhere_eq_some.2 ⟨pre, post, rfl, fun j hj => by simp [hpre j hj], by simp [hi], by simp⟩

/-- A list whose segments adjoin one after another. -/
theorem Grid.firstApart_none {g : Grid} {l : List Nat} (k : Nat)
    (h : ∀ j, j + 1 < l.length → g.adjacent (l.getD j 0) (l.getD (j + 1) 0) = true) : g.firstApart l k = none := by
  induction l generalizing k with
  | nil => rfl
  | cons a rest ih =>
    cases rest with
    | nil => rfl
    | cons b rest =>
      have hab : g.adjacent a b = true := h 0 (by simp)
      unfold Grid.firstApart
      rw [if_pos hab]
      exact ih (k + 1) fun j hj => h (j + 1) (by simpa using hj)

/-- The first place at which two segments do not adjoin. -/
theorem Grid.firstApart_some {g : Grid} {l : List Nat} (k : Nat) {j : Nat} (hj : j + 1 < l.length)
    (hapart : g.adjacent (l.getD j 0) (l.getD (j + 1) 0) = false)
    (hbefore : ∀ i, i < j → g.adjacent (l.getD i 0) (l.getD (i + 1) 0) = true) :
    g.firstApart l k = some (k + j + 1) := by
  induction l generalizing k j with
  | nil => exact absurd hj (Nat.not_lt_zero _)
  | cons a rest ih =>
    cases rest with
    | nil => exact absurd hj (by simp)
    | cons b rest =>
      unfold Grid.firstApart
      cases j with
      | zero =>
        have hab : ¬ g.adjacent a b = true := Bool.eq_false_iff.1 hapart
        exact if_neg hab
      | succ j =>
        have hab : g.adjacent a b = true := hbefore 0 (Nat.succ_pos j)
        rw [if_pos hab, ih (k + 1) (j := j) (by simpa using hj) hapart
          fun i hi => hbefore (i + 1) (Nat.succ_lt_succ hi)]
        congr 1
        omega

/-- Where there is no first place at which two segments do not adjoin, all adjoin. -/
theorem Grid.firstApart_none_of {g : Grid} {l : List Nat} (k : Nat)
    (h : ∀ j, j + 1 < l.length → g.adjacent (l.getD j 0) (l.getD (j + 1) 0) = false →
      ¬ ∀ i, i < j → g.adjacent (l.getD i 0) (l.getD (i + 1) 0) = true) : g.firstApart l k = none := by
  refine Grid.firstApart_none k fun j => ?_
  induction j using Nat.strongRecOn with
  | ind j ih =>
    intro hj
    by_contra hne
    exact h j hj (Bool.eq_false_iff.2 hne) fun i hi => ih i hi (by omega)

/-- Where no first segment is not usable, all are. -/
theorem Grid.firstUnusable_none_of {g : Grid} {ids : List Nat}
    (h : ∀ pre i post, ids = pre ++ i :: post → g.usable i = false → ¬ ∀ j ∈ pre, g.usable j = true) :
    g.firstUnusable ids = none := by
  cases hf : g.firstUnusable ids with
  | none => rfl
  | some p =>
    obtain ⟨pre, post, hids, hpre, hi, -⟩ := firstWhere_eq_some.1 hf
    exact absurd (fun j hj => by simpa using hpre j hj) (h pre p.2 post hids (by simpa using hi))

/-- No segment of the list stands in it twice or was seen before. -/
theorem firstRepeat_eq_none {seen l : List Nat} {k : Nat} :
    firstRepeat seen l k = none ↔ l.Nodup ∧ ∀ x ∈ l, x ∉ seen := by
  induction l generalizing seen k with
  | nil => simp [firstRepeat]
  | cons a rest ih =>
    unfold firstRepeat
    by_cases ha : a ∈ seen
    · simp [ha]
    · rw [if_neg (by simpa using ha), ih]
      simp only [List.nodup_cons, List.mem_cons, not_or, forall_eq_or_imp]
      grind

/-- The first segment of the list that stands in it before or was seen. -/
theorem firstRepeat_some {seen pre post : List Nat} {x k : Nat} (hpre : pre.Nodup) (hseen : ∀ y ∈ pre, y ∉ seen)
    (hx : x ∈ pre ∨ x ∈ seen) : firstRepeat seen (pre ++ x :: post) k = some (k + pre.length) := by
  induction pre generalizing seen k with
  | nil => simp_all [firstRepeat]
  | cons a rest ih =>
    obtain ⟨ha, hrest⟩ := List.nodup_cons.1 hpre
    have hunseen : ∀ y ∈ rest, y ∉ a :: seen := fun y hy hm => by
      rcases List.mem_cons.1 hm with rfl | hm
      · exact ha hy
      · exact hseen y (List.mem_cons_of_mem _ hy) hm
    have hagain : x ∈ rest ∨ x ∈ a :: seen := by
      simp only [List.mem_cons] at hx ⊢
      tauto
    rw [List.cons_append, firstRepeat, if_neg (by simpa using hseen a List.mem_cons_self), ih hrest hunseen hagain,
      List.length_cons]
    congr 1
    omega

/-! ## ROUTE_EXTEND -/

/-- Checks 4 to 7 of ROUTE_EXTEND (R27). -/
def State.extendTests (u : State) (c : Nat) (ids : List Nat) : List (Reason × (List Val → Prop)) := [
  (.badSegment, fun d => ∃ route pre i post, u.route? c = some route ∧ ids = pre ++ i :: post ∧
    (∀ j ∈ pre, u.grid.usable j = true) ∧ u.grid.usable i = false ∧ d = [.byte pre.length]),
  (.notAdjacent, fun d => ∃ route k, u.route? c = some route ∧ k < ids.length ∧
    u.grid.adjacent ((route.list.getLastD 0 :: ids).getD k 0) (ids.getD k 0) = false ∧
    (∀ j, j < k → u.grid.adjacent ((route.list.getLastD 0 :: ids).getD j 0) (ids.getD j 0) = true) ∧
    d = [.byte k]),
  (.repeated, fun d => ∃ route, u.route? c = some route ∧ (¬ ids.Nodup ∨ ∃ i ∈ ids, i ∈ route.list) ∧ d = []),
  (.tooLong, fun d => ∃ route, u.route? c = some route ∧
    (ids = [] ∨ 24 < ids.length ∨ 25 < route.list.length + ids.length) ∧
    d = [.byte (route.list.length + ids.length)])]

/-- A request that these checks refuse is one of a carrier with a route. -/
theorem State.extendTests_routed {u : State} {c : Nat} {ids : List Nat} {why : Reason} {detail : List Val}
    (h : FirstFails (u.extendTests c ids) why detail) : ∃ route, u.route? c = some route := by
  rcases h with ⟨-, route, -, -, -, h, -⟩ | ⟨-, ⟨-, route, -, h, -⟩ | ⟨-, ⟨-, route, h, -⟩ | ⟨-, ⟨-, route, h, -⟩ | h⟩⟩⟩
  · exact ⟨route, h⟩
  · exact ⟨route, h⟩
  · exact ⟨route, h⟩
  · exact ⟨route, h⟩
  · exact h.2.elim

section
variable {u : State} {c stop : Nat} {ids : List Nat} {r : Carrier} {route : Route}
  (hof : u.routeOf 0x27 c = .ok (r, route)) (hroute : u.route? c = some route)
include hof hroute

theorem ownRouteExtend_tests {why : Reason} {detail : List Val} (h : FirstFails (u.extendTests c ids) why detail) :
    ownRouteExtend c stop ids u = (u, ⟨0x27, .refused, why, false, detail⟩) := by
  have hget : ∀ k, (route.list.getLastD 0 :: ids).getD (k + 1) 0 = ids.getD k 0 := fun _ => rfl
  unfold ownRouteExtend
  rw [hof]
  dsimp only
  rcases h with ⟨rfl, x, pre, i, post, hx, rfl, hpre, hi, rfl⟩ | ⟨husable, h⟩
  · rw [Grid.firstUnusable_some hpre hi]
    rfl
  rw [Grid.firstUnusable_none_of fun pre i post hids hi hpre =>
    husable _ ⟨route, pre, i, post, hroute, hids, hpre, hi, rfl⟩]
  rcases h with ⟨rfl, x, k, hx, hk, hapart, hbefore, rfl⟩ | ⟨hadjacent, h⟩
  · obtain rfl : route = x := Option.some.inj (hroute.symm.trans hx)
    rw [Grid.firstApart_some 0 (j := k) (by simpa using hk) (by rw [hget]; exact hapart)
      fun i hi => by rw [hget]; exact hbefore i hi]
    simp [refuse]
  rw [Grid.firstApart_none_of 0 fun j hj hapart hbefore => hadjacent _ ⟨route, j, hroute, by simpa using hj, by
    rw [← hget]; exact hapart, fun i hi => by rw [← hget]; exact hbefore i hi, rfl⟩]
  dsimp only
  rcases h with ⟨rfl, x, hx, hrepeat, rfl⟩ | ⟨honce, h⟩
  · obtain rfl : route = x := Option.some.inj (hroute.symm.trans hx)
    cases hf : firstRepeat route.list ids 0 with
    | some _ => rfl
    | none =>
      obtain ⟨hnodup, hnew⟩ := firstRepeat_eq_none.1 hf
      exact absurd hrepeat (not_or.2 ⟨not_not.2 hnodup, fun ⟨x, hx, hm⟩ => hnew x hx hm⟩)
  have hnodup : ids.Nodup := by
    by_contra hn
    exact honce [] ⟨route, hroute, .inl hn, rfl⟩
  rw [firstRepeat_eq_none.2 ⟨hnodup, fun x hx hm => honce [] ⟨route, hroute, .inr ⟨x, hx, hm⟩, rfl⟩⟩]
  dsimp only
  rcases h with ⟨rfl, x, hx, hlong, rfl⟩ | h
  · obtain rfl : route = x := Option.some.inj (hroute.symm.trans hx)
    rw [if_pos (by simpa using hlong)]
    rfl
  · exact h.2.elim

end

section
variable {u : State} {c stop newStop : Nat} {ids : List Nat} {r : Carrier} {route : Route}
  (h : u.MayExtend c ids r route) (hstop : newStop = min stop (u.grid.record (ids.getLastD 0)).length)
include h hstop

/-- A ROUTE_EXTEND that passes the checks turns on the first segment that is not available. -/
theorem ownRouteExtend_passed : ownRouteExtend c stop ids u =
    match firstWhere (fun i => (u.seg i).blockCause.isSome) ids 0 with
    | some (_, i) => (u, { refuse 0x27 ((u.seg i).blockCause.getD .conflict)
        (u.blockVals i ((u.seg i).blockCause.getD .conflict)) with clamped := decide (newStop ≠ stop) })
    | none =>
      (((Work.start u none).reroute c ids (SegDyn.hold_ (.carrier c) .route)
          { route with list := route.list ++ ids, stop := newStop }).finish,
        ⟨0x27, .granted, .none_, decide (newStop ≠ stop),
          [.byte (((Work.start u none).reroute c ids (SegDyn.hold_ (.carrier c) .route)
            { route with list := route.list ++ ids, stop := newStop }).finish.version c),
            .byte (route.list.length + ids.length), .half newStop]⟩) := by
  have hlength := List.length_pos_of_ne_nil h.listed
  have hlong : ¬ (ids.length = 0 ∨ ids.length > 24 ∨ route.list.length + ids.length > 25) := by
    have hshort := h.short
    have htotal := h.total
    omega
  have hclamp : clampTo 0 (u.grid.lengthOf (ids.getLastD 0)) stop = newStop := by
    rw [hstop]
    exact Nat.zero_max _
  unfold ownRouteExtend
  rw [State.routeOf_ok h.mode h.registered h.authorized h.routed]
  dsimp only
  rw [Grid.firstUnusable_none h.usable]
  dsimp only
  rw [Grid.firstApart_none 0 fun j hj => h.adjacent j (by simpa using hj)]
  dsimp only
  rw [firstRepeat_eq_none.2 ⟨h.once, h.ahead⟩]
  dsimp only
  rw [if_neg hlong, hclamp]
  rfl

end

/-- Settles O22. -/
theorem routeExtendGrantedOrRefused : Obligations.RouteExtendGrantedOrRefused := by
  unfold Obligations.RouteExtendGrantedOrRefused
  refine ⟨fun s u l c stop newStop ids r route hu hroom h hstop => ⟨fun hfree => ?_,
    fun pre post i why holder hids hpre hi hholder => ?_⟩, fun s u l c stop ids why detail hu hroom h => ?_⟩
  · let new : Route := { route with list := route.list ++ ids, stop := newStop }
    let w := (Work.start u none).reroute c ids (SegDyn.hold_ (.carrier c) .route) new
    have hidem := Work.hold_idem (.carrier c) .route
    have heffect := (Work.start u none).reroute_effect c ids new hidem
    have hversion := (Work.start u none).version_reroute c ids new hidem
    have hroutes := (Work.start u none).route?_reroute c ids new hidem
    have hseg := (Work.start u none).seg_reroute c ids new hidem
    have howner : ownRouteExtend c stop ids u = (w.finish, ⟨0x27, .granted, .none_, decide (newStop ≠ stop),
        [.byte (w.finish.version c), .byte (route.list.length + ids.length), .half newStop]⟩) := by
      rw [ownRouteExtend_passed h hstop, firstWhere_eq_none.2 fun i hi => by simp [hfree i hi]]
    refine ⟨w, next_takeRequest hu hroom howner, heffect.grown, heffect.reexam_eq fun i => ?_,
      (hversion c).trans (if_pos rfl), ?_, fun d hd => ⟨(hroutes d).trans (if_neg hd), (hversion d).trans (if_neg hd)⟩,
      hseg, heffect.only.eq⟩
    · rw [hseg]
      split
      · exact Work.hold_calm _ _ _
      · exact SegDyn.callsFor_self _
    · rw [hroutes, hversion, if_pos rfl, if_pos rfl]
  · have howner : ownRouteExtend c stop ids u =
        (u, ⟨0x27, .refused, why, decide (newStop ≠ stop), .half i :: holder⟩) := by
      have hfirst : firstWhere (fun i => (u.seg i).blockCause.isSome) ids 0 = some (0 + pre.length, i) :=
        firstWhere_eq_some.2 ⟨pre, post, hids, fun j hj => by simp [hpre j hj], by simp [hi], rfl⟩
      rw [ownRouteExtend_passed h hstop, hfirst]
      simp only [hi, Option.getD_some, State.blockVals, hholder]
      rfl
    exact next_takeRequest hu hroom howner
  · have hsplit : FirstFails (u.routeTests c ++ u.extendTests c ids) why detail := h
    rw [firstFails_append] at hsplit
    rcases hsplit with hroute | ⟨hpass, htests⟩
    · have howner : ownRouteExtend c stop ids u = (u, ⟨0x27, .refused, why, false, detail⟩) := by
        unfold ownRouteExtend
        rw [State.routeOf_refused hroute]
        rfl
      exact next_takeRequest hu hroom howner
    · obtain ⟨hm, r, hr, hs⟩ := State.routeTests_pass hpass
      obtain ⟨route, hroute⟩ := State.extendTests_routed htests
      exact next_takeRequest hu hroom (ownRouteExtend_tests (State.routeOf_ok hm hr hs hroute _) hroute htests)

end Sys2Proof.Machine
end

section
/-! Standing segments, available segments, and the grant of a route whole (R19, R24, R25, R34). -/

namespace Sys2Proof.Machine

/-! ## Standing segments (R24, R34) -/

theorem SegDyn.standingOf_iff (r : SegDyn) (c : Nat) : r.standingOf c = true ↔ r.hold = .held (.carrier c) .standing :=
  decide_eq_true_iff

theorem Table.sorted_keysWhere {α : Type} {t : Table α} (h : t.Sorted) (p : α → Bool) :
    (t.keysWhere p).Pairwise (· < ·) := by
  simp only [Table.keysWhere, List.pairwise_map]
  exact List.Pairwise.filter _ h

/-- The lowest of an ascending list that passes a test is the first that does. -/
theorem find?_lowest {l : List Nat} {p : Nat → Bool} {i : Nat} (hsorted : l.Pairwise (· < ·)) (hil : i ∈ l)
    (hi : p i = true) (hmin : ∀ j ∈ l, p j = true → i ≤ j) : l.find? p = some i := by
  obtain ⟨k, hk⟩ := Option.isSome_iff_exists.1 (List.find?_isSome.2 ⟨i, hil, hi⟩)
  obtain ⟨hkp, as, bs, rfl, has⟩ := List.find?_eq_some_iff_append.1 hk
  have hle := hmin k (by simp) hkp
  rw [hk]
  rcases List.mem_append.1 hil with hia | hib
  · exact absurd hi (by simpa using has i hia)
  · rcases List.mem_cons.1 hib with rfl | hib
    · rfl
    · have hlt := (List.pairwise_cons.1 (List.pairwise_append.1 hsorted).2.1).1 i hib
      omega

/-- The standing segments of a carrier, by ascending id. -/
def State.standingIds (s : State) (c : Nat) : List Nat := s.segs.keysWhere (fun r => r.standingOf c)

theorem State.mem_standingIds {s : State} (hs : s.segs.Sorted) {c i : Nat} :
    i ∈ s.standingIds c ↔ (s.seg i).hold = .held (.carrier c) .standing :=
  (State.mem_segsWhere hs rfl).trans (SegDyn.standingOf_iff _ _)

/-- The standing segments of a carrier come in the same order but for its front, which comes first. -/
theorem State.standing_cases (s : State) {c : Nat} {r : Carrier} (hr : s.carrier? c = some r) :
    (∃ f, r.front = some f ∧ f ∈ s.standingIds c ∧ s.standing c = f :: (s.standingIds c).erase f) ∨
      ((∀ f, r.front = some f → f ∉ s.standingIds c) ∧ s.standing c = s.standingIds c) := by
  unfold State.standing
  rw [hr]
  show (∃ f, _ ∧ _ ∧ (match r.front with
    | some f => if (s.standingIds c).contains f then f :: (s.standingIds c).erase f else s.standingIds c
    | none => s.standingIds c) = _) ∨ (_ ∧ (match r.front with
    | some f => if (s.standingIds c).contains f then f :: (s.standingIds c).erase f else s.standingIds c
    | none => s.standingIds c) = _)
  cases hf : r.front with
  | none => exact .inr ⟨fun _ h => (nomatch h), rfl⟩
  | some f =>
    by_cases hm : f ∈ s.standingIds c
    · exact .inl ⟨f, rfl, hm, if_pos (List.contains_iff_mem.2 hm)⟩
    · exact .inr ⟨fun g hg => Option.some.inj hg ▸ hm, if_neg fun h => hm (List.contains_iff_mem.1 h)⟩

section
variable {s : State} (hs : s.segs.Sorted) {c : Nat} {r : Carrier} (hr : s.carrier? c = some r)
include hs hr

theorem State.mem_standing {i : Nat} : i ∈ s.standing c ↔ (s.seg i).hold = .held (.carrier c) .standing := by
  rw [← State.mem_standingIds hs]
  rcases s.standing_cases hr with ⟨f, -, hf, heq⟩ | ⟨-, heq⟩
  · rw [heq]
    exact (List.perm_cons_erase hf).mem_iff.symm
  · rw [heq]

theorem State.lockedStanding_none (h : ∀ i, (s.seg i).hold = .held (.carrier c) .standing → (s.seg i).lock.rows = []) :
    s.lockedStanding c = none :=
  List.find?_eq_none.2 fun i hi => by
    rw [SegDyn.isLocked_iff, not_not]
    exact h i ((State.mem_standing hs hr).1 hi)

/-- The locked standing segment that is named: the front, or else the lowest (log entry 25). -/
theorem State.lockedStanding_some {i : Nat} (hi : (s.seg i).hold = .held (.carrier c) .standing)
    (hlocked : (s.seg i).lock.rows ≠ []) (hfirst : r.front = some i ∨
      ∀ j, (s.seg j).hold = .held (.carrier c) .standing → (s.seg j).lock.rows ≠ [] → r.front ≠ some j ∧ i ≤ j) :
    s.lockedStanding c = some i := by
  have hlock : (s.seg i).isLocked = true := (SegDyn.isLocked_iff _).2 hlocked
  have hids := (State.mem_standingIds hs).2 hi
  have hsorted := Table.sorted_keysWhere hs (fun r => r.standingOf c)
  unfold State.lockedStanding
  rcases s.standing_cases hr with ⟨f, hf, hfm, heq⟩ | ⟨hf, heq⟩
  · rw [heq]
    by_cases hfi : f = i
    · rw [hfi, List.find?_cons_of_pos (p := fun i => (s.seg i).isLocked) hlock]
    · have hothers := hfirst.resolve_left fun h => hfi (Option.some.inj (hf.symm.trans h))
      have hfree : ¬ (s.seg f).isLocked = true := fun h =>
        (hothers f ((State.mem_standingIds hs).1 hfm) ((SegDyn.isLocked_iff _).1 h)).1 hf
      rw [List.find?_cons_of_neg (p := fun i => (s.seg i).isLocked) hfree]
      refine find?_lowest (p := fun i => (s.seg i).isLocked) (hsorted.sublist List.erase_sublist)
        ((List.mem_erase_of_ne (Ne.symm hfi)).2 hids) hlock fun j hj hjl => ?_
      exact (hothers j ((State.mem_standingIds hs).1 (List.mem_of_mem_erase hj)) ((SegDyn.isLocked_iff _).1 hjl)).2
  · rw [heq]
    have hothers := hfirst.resolve_left fun h => hf i h hids
    exact find?_lowest (p := fun i => (s.seg i).isLocked) hsorted hids hlock fun j hj hjl =>
      (hothers j ((State.mem_standingIds hs).1 hj) ((SegDyn.isLocked_iff _).1 hjl)).2

end

/-! ## Available segments (R19, R25) -/

theorem SegDyn.blockCause_none_iff (r : SegDyn) : r.blockCause = none ↔
    r.hold = .free ∧ r.oos = ⟨false, false, false⟩ ∧ r.lock.rows = [] ∧ r.intruder = none := by
  have hlocked : r.lock.rows = [] ↔ r.isLocked = false := by
    rw [← Bool.not_eq_true, r.isLocked_iff, not_not]
  rw [← r.isFree_iff, ← r.inService_iff, hlocked, r.blockCause_eq]
  grind

theorem State.openTo_iff (s : State) (c i : Nat) :
    s.openTo c i ↔ (s.seg i).standingOf c = true ∨ (s.seg i).blockCause = none := by
  rw [State.openTo, SegDyn.standingOf_iff, SegDyn.blockCause_none_iff]

theorem State.firstUnavailable_none {s : State} {c : Nat} {list : List Nat} (h : ∀ i ∈ list, s.openTo c i) :
    s.firstUnavailable c list = none := by
  refine List.findSome?_eq_none_iff.2 fun i hi => ?_
  rcases (s.openTo_iff c i).1 (h i hi) with h | h <;> simp [h]

theorem State.firstUnavailable_some {s : State} {c i : Nat} {pre post : List Nat} {why : Reason}
    (hpre : ∀ j ∈ pre, s.openTo c j) (hi : (s.seg i).hold ≠ .held (.carrier c) .standing)
    (hwhy : (s.seg i).blockCause = some why) : s.firstUnavailable c (pre ++ i :: post) = some (i, why) := by
  have hnone := State.firstUnavailable_none hpre
  have hstanding : (s.seg i).standingOf c = false := Bool.eq_false_iff.2 fun h => hi ((SegDyn.standingOf_iff _ _).1 h)
  unfold State.firstUnavailable at hnone ⊢
  rw [List.findSome?_append, hnone]
  simp [hstanding, hwhy]

end Sys2Proof.Machine
end

section
/-! The grant of a route whole (R25), of a ROUTE_REQUEST and of a pending entry (R34). -/

namespace Sys2Proof.Machine

/-! ## A grant (R25 steps 1 to 3) -/

/-- The rear placed ahead of the front in a granted route, where it differs from it (R25 step 2). -/
theorem Carrier.rearAhead_eq {r : Carrier} (hf : r.front ≠ none) :
    r.rearAhead = if r.rear = r.front then [] else r.rear.toList := by
  unfold Carrier.rearAhead
  cases hb : r.rear with
  | none => simp
  | some b =>
    obtain ⟨f, hf⟩ := Option.ne_none_iff_exists'.1 hf
    simp [hf]

namespace Work

variable (w : Work) {c : Nat} {r : Carrier} (list : List Nat) (stop tag : Nat) (origin : DLink)

/-- The segments of a grant become the carrier's, and its new route is written (R25 steps 1 and 2). -/
def granting (w : Work) (c : Nat) (r : Carrier) (list : List Nat) (stop tag : Nat) (origin : DLink) : Work :=
  (w.onSegs (w.s.standing c ++ list.filter (fun i => !((w.s.standing c).contains i)))
    (SegDyn.hold_ (.carrier c) .route)).on (fun s => { s with
      routes := s.routes.put c ⟨r.rearAhead ++ list, stop, r.rearAhead.length, 0, s.version c, tag, origin⟩ })

theorem granting_effect : Effect [.segs, .routes] (fun _ => False) [] w (w.granting c r list stop tag origin) := by
  have hsegs := w.onSegs_effect (w.s.standing c ++ list.filter (fun i => !((w.s.standing c).contains i)))
    (hold_idem (.carrier c) .route)
  have hroute := (w.onSegs (w.s.standing c ++ list.filter (fun i => !((w.s.standing c).contains i)))
    (SegDyn.hold_ (.carrier c) .route)).on_effect [.routes] (f := fun s => { s with
      routes := s.routes.put c ⟨r.rearAhead ++ list, stop, r.rearAhead.length, 0, s.version c, tag, origin⟩ })
      (.of_eq rfl)
  exact (hsegs.aside hroute).said (by decide) (fun _ => by simp) rfl

/-- The version incremented, and the carrier AUTHORIZED (R25 step 3). -/
theorem grant_eq (hr : w.s.carrier? c = some r) : w.grant c list stop tag origin =
    let v := ((w.granting c r list stop tag origin).bumpVersion c).changeState c .authorized []
    { v with bumped := c :: v.bumped } := by
  unfold grant
  rw [hr]
  rfl

section
variable (hr : w.s.carrier? c = some r)
include hr

theorem carrier?_beforeAuthorized : ((w.granting c r list stop tag origin).bumpVersion c).s.carrier? c = some r := by
  have hgranting := (w.granting_effect (c := c) (r := r) list stop tag origin).only
  exact ((bumpVersion_effect _ c).only.carrier? (by decide) c).trans ((hgranting.carrier? (by decide) c).trans hr)

theorem grant_effect (hidle : r.state = .idle) :
    Effect [.segs, .routes, .versions, .carriers, .dispatch] (fun d => d = c)
      [⟨.carrierState, w.s.now, .carrier c, [.byte 2, .byte 3]⟩] { w with bumped := c :: w.bumped }
      (w.grant c list stop tag origin) := by
  have hfirst := (w.granting_effect (c := c) (r := r) list stop tag origin).aside (bumpVersion_effect _ c)
  have hchange := stateChanged_effect ((w.granting c r list stop tag origin).bumpVersion c) (c := c) .authorized []
    r.state
  have heq : ((w.granting c r list stop tag origin).bumpVersion c).changeState c .authorized [] = _ :=
    (changeState_eq _ (w.carrier?_beforeAuthorized list stop tag origin hr) .authorized []).trans
      (if_neg (by rw [hidle]; decide))
  rw [← heq, hfirst.only.now] at hchange
  rw [w.grant_eq list stop tag origin hr]
  refine ((hfirst.aside hchange).bump c).said (by decide) (fun d => by simp) ?_
  rw [hidle]
  rfl

theorem seg_grant (hs : w.s.segs.Sorted) (i : Nat) : (w.grant c list stop tag origin).s.seg i =
    if i ∈ list ∨ (w.s.seg i).hold = .held (.carrier c) .standing then
      { w.s.seg i with hold := .held (.carrier c) .route }
    else w.s.seg i := by
  have hmem : (i ∈ w.s.standing c ++ list.filter (fun i => !((w.s.standing c).contains i))) ↔
      (i ∈ list ∨ (w.s.seg i).hold = .held (.carrier c) .standing) := by
    rw [← State.mem_standing hs hr]
    simp only [List.mem_append, List.mem_filter, Bool.not_eq_true', List.contains_eq_mem, decide_eq_false_iff_not]
    tauto
  rw [w.grant_eq list stop tag origin hr]
  refine ((changeState_effect _ (w.carrier?_beforeAuthorized list stop tag origin hr) .authorized []).only.seg
    (by decide) i).trans ?_
  refine (w.seg_onSegs _ _ (hold_idem (.carrier c) .route) i).trans ?_
  exact if_congr hmem rfl rfl

theorem version_grant (d : Nat) : (w.grant c list stop tag origin).s.version d =
    if d = c then wrap8 (w.s.version c) else w.s.version d := by
  have hgranting := (w.granting_effect (c := c) (r := r) list stop tag origin).only.version (by decide)
  rw [w.grant_eq list stop tag origin hr]
  refine ((changeState_effect _ (w.carrier?_beforeAuthorized list stop tag origin hr) .authorized []).only.version
    (by decide) d).trans ?_
  rw [version_bumpVersion, hgranting, hgranting]

theorem route?_grant (d : Nat) : (w.grant c list stop tag origin).s.route? d =
    if d = c then some ⟨r.rearAhead ++ list, stop, r.rearAhead.length, 0, wrap8 (w.s.version c), tag, origin⟩
    else w.s.route? d := by
  have hgranting := (w.granting_effect (c := c) (r := r) list stop tag origin).only.version (by decide)
  have hroutes : (w.granting c r list stop tag origin).s.route? d = if d = c then _ else _ :=
    Table.get?_put _ _ _ _
  rw [w.grant_eq list stop tag origin hr]
  refine ((changeState_effect _ (w.carrier?_beforeAuthorized list stop tag origin hr) .authorized []).only.route?
    (by decide) d).trans ?_
  rw [route?_bumpVersion, hgranting, hroutes]
  by_cases hd : d = c
  · simp only [if_pos hd]
    rfl
  · simp only [if_neg hd]
    exact (w.onSegs_effect _ (hold_idem (.carrier c) .route)).only.route? (by decide) d

theorem carrier?_grant (d : Nat) : (w.grant c list stop tag origin).s.carrier? d =
    if d = c then some { r with state := .authorized } else w.s.carrier? d := by
  have hgranting := (w.granting_effect (c := c) (r := r) list stop tag origin).only
  have hbefore : ((w.granting c r list stop tag origin).bumpVersion c).s.carrier? d = w.s.carrier? d :=
    ((bumpVersion_effect _ c).only.carrier? (by decide) d).trans (hgranting.carrier? (by decide) d)
  rw [w.grant_eq list stop tag origin hr]
  refine (carrier?_changeState _ c .authorized [] d).trans ?_
  rw [hbefore]
  by_cases hd : d = c
  · subst hd
    simp [hr, CarrierState.timerStops]
  · simp [hd]

end

end Work

end Sys2Proof.Machine
end

section
/-! ROUTE_REQUEST granted (R24, R25), and one entry of a re-examination (R34). -/

namespace Sys2Proof.Machine

/-! ## A direct grant (R25) -/

namespace Work

/-- The entry that a direct grant posts for the pending entry that it removes (R25 step 4). -/
def replacedEntries (s : State) (c : Nat) : List Notif :=
  (s.entry? c).toList.map (fun e => ⟨.replaced, s.now, .carrier c, [.half e.tag]⟩)

/-- The removal of a carrier's pending entry by a direct grant. -/
def dropReplaced (w : Work) (c : Nat) : Work :=
  match w.s.entry? c with
  | some e => (w.on (fun s => s.dropEntry c)).replaceEntry e
  | none => w

theorem dropReplaced_effect (w : Work) (c : Nat) :
    Effect [.waiting, .dispatch] (fun _ => False) (replacedEntries w.s c) w (w.dropReplaced c) := by
  unfold dropReplaced replacedEntries
  cases he : w.s.entry? c with
  | none => exact (Effect.refl w).said (by decide) (fun _ => Iff.rfl) rfl
  | some e =>
    have hcarrier : e.carrier = c := by simpa using List.find?_some he
    have hdrop := w.on_effect [.waiting] (f := fun s => s.dropEntry c) (.of_eq rfl)
    refine (hdrop.aside (post_effect _ .replaced (.carrier e.carrier) [.half e.tag])).said (by decide)
      (fun _ => by simp) ?_
    rw [hcarrier]
    rfl

theorem waiting_dropReplaced (w : Work) (c : Nat) :
    (w.dropReplaced c).s.waiting = w.s.waiting.filter (fun e => decide (e.carrier ≠ c)) := by
  unfold dropReplaced
  cases he : w.s.entry? c with
  | some e => rfl
  | none => exact (State.filter_waiting_of_none he).symm

end Work

/-! ## The checks of ROUTE_REQUEST that pass -/

section
variable {u : State} {a : RouteArgs} {r : Carrier}

theorem State.MayAsk.front (h : u.MayAsk a r) : r.front ≠ none := by
  rw [← h.start]
  exact fun hn => h.listed (List.head?_eq_none_iff.1 hn)

theorem State.MayAsk.passes (h : u.MayAsk a r) : u.routeChecks a = .ok (r, decide (a.queueFlag = 1)) := by
  have hhead : ¬ (a.ids.head? = none ∨ a.ids.head? ≠ r.front) := by
    rw [h.start]
    exact not_or.2 ⟨h.front, not_not.2 rfl⟩
  have hrepeat : firstRepeat r.rearAhead a.ids 0 = none := by
    refine firstRepeat_eq_none.2 ⟨h.once, fun x hx hm => ?_⟩
    rw [Carrier.rearAhead_eq h.front] at hm
    split at hm
    · cases hm
    · next hne => exact h.rear x (Option.mem_toList.1 hm) hne hx
  have hshort : ¬ a.ids.length > 24 := Nat.not_lt.2 h.short
  unfold State.routeChecks
  simp only [h.mode, readYesNo_bit h.flag, h.registered, h.idle, hhead, Grid.firstUnusable_none h.usable,
    Grid.firstApart_none 0 h.adjacent, hrepeat, hshort]
  rfl

theorem State.stopOf_eq (u : State) (a : RouteArgs) :
    clampTo 0 (u.grid.lengthOf (a.ids.getLastD 0)) a.stop = u.stopOf a := Nat.zero_max _

end

/-- Settles O20. -/
theorem routeRequestGranted : Obligations.RouteRequestGranted := by
  unfold Obligations.RouteRequestGranted
  intro s u l a r ahead hu hroom h hopen hahead
  have hr := h.registered
  have hs := h.sorted
  have hrear : r.rearAhead = ahead := (Carrier.rearAhead_eq h.front).trans hahead.symm
  let w := (Work.start u none).grantDirect a.carrier a.ids (u.stopOf a) a.tag l
  have hgrant := (Work.start u none).grant_effect a.ids (u.stopOf a) a.tag l hr h.idle
  have hdrop := Work.dropReplaced_effect ((Work.start u none).grant a.carrier a.ids (u.stopOf a) a.tag l) a.carrier
  have hall := (hgrant.aside hdrop).said (G := [.segs, .routes, .versions, .carriers, .waiting, .dispatch])
    (m := fun d => d = a.carrier) (by decide) (fun d => by simp) rfl
  have hversion : ∀ d, w.s.version d = if d = a.carrier then wrap8 (u.version a.carrier) else u.version d := fun d =>
    (hdrop.only.version (by decide) d).trans ((Work.start u none).version_grant a.ids (u.stopOf a) a.tag l hr d)
  have hroute : ∀ d, w.s.route? d = if d = a.carrier then
      some ⟨r.rearAhead ++ a.ids, u.stopOf a, r.rearAhead.length, 0, wrap8 (u.version a.carrier), a.tag, l⟩
      else u.route? d := fun d =>
    (hdrop.only.route? (by decide) d).trans ((Work.start u none).route?_grant a.ids (u.stopOf a) a.tag l hr d)
  have hcarrier : ∀ d, w.s.carrier? d = if d = a.carrier then some { r with state := .authorized } else u.carrier? d :=
    fun d => (hdrop.only.carrier? (by decide) d).trans
      ((Work.start u none).carrier?_grant a.ids (u.stopOf a) a.tag l hr d)
  have hseg : ∀ i, w.s.seg i = if i ∈ a.ids ∨ (u.seg i).hold = .held (.carrier a.carrier) .standing then
      { u.seg i with hold := .held (.carrier a.carrier) .route } else u.seg i := fun i =>
    (hdrop.only.seg (by decide) i).trans ((Work.start u none).seg_grant a.ids (u.stopOf a) a.tag l hr hs i)
  have hreexam : w.reexam = false := hall.reexam_eq fun i => by
    refine (congrArg _ (hseg i)).trans ?_
    split
    · exact Work.hold_calm _ _ _
    · exact SegDyn.callsFor_self _
  have howner : ownRouteRequest l a u = (w.finish, ⟨0x26, .granted, .none_,
      decide (u.stopOf a ≠ a.stop ∨ expiryOf a ≠ a.expiry),
      [.byte (w.finish.version a.carrier), .byte (ahead.length + a.ids.length), .half (u.stopOf a),
        .half (expiryOf a)]⟩) := by
    have hlocked := State.lockedStanding_none hs hr h.unlocked
    have hfree := State.firstUnavailable_none hopen
    obtain ⟨v, hv⟩ := (Work.finish_onlyRuns w hall.grown.report (.inl hreexam)).routes a.carrier
    rw [hroute, if_pos rfl] at hv
    have hentries : (match w.finish.route? a.carrier with
        | some r => r.list.length
        | none => 0) = ahead.length + a.ids.length := by
      rw [hv, hrear]
      exact List.length_append
    unfold ownRouteRequest
    rw [h.passes]
    dsimp only
    rw [hlocked, hfree, State.stopOf_eq]
    refine congrArg (fun n => (w.finish, (⟨0x26, .granted, .none_, _,
      [.byte (w.finish.version a.carrier), .byte n, .half (u.stopOf a), .half (expiryOf a)]⟩ : Reply))) hentries
  refine ⟨w, next_takeRequest hu hroom howner, hall.grown, hreexam, (hversion _).trans (if_pos rfl), ?_,
    (hcarrier _).trans (if_pos rfl), fun d hd => ⟨(hcarrier d).trans (if_neg hd), (hroute d).trans (if_neg hd),
      (hversion d).trans (if_neg hd)⟩, hseg, ?_, fun m => (hall.posts m).trans ?_, hall.only.eq⟩
  · rw [hroute, hversion, if_pos rfl, if_pos rfl, hrear]
  · exact (Work.waiting_dropReplaced _ _).trans (by rw [hgrant.only.waiting (by decide)]; rfl)
  · unfold Work.replacedEntries
    rw [hgrant.only.entry? (by decide), hgrant.only.now]
    rfl

/-! ## One entry of a re-examination (R34) -/

namespace Work

section
variable {w : Work} {e : PendingEntry}

/-- The removal of an entry that is granted, and its notification (R34). -/
def noteGranted (w : Work) (e : PendingEntry) : Work :=
  (w.on (fun s => s.dropEntry e.carrier)).post .pendingGranted (.carrier e.carrier)
    [.half e.tag, .byte (w.s.version e.carrier), .byte e.origin.key]

theorem noteGranted_effect (w : Work) (e : PendingEntry) : Effect [.waiting, .dispatch] (fun _ => False)
    [⟨.pendingGranted, w.s.now, .carrier e.carrier,
      [.half e.tag, .byte (w.s.version e.carrier), .byte e.origin.key]⟩] w (w.noteGranted e) :=
  ((w.on_effect [.waiting] (f := fun s => s.dropEntry e.carrier) (.of_eq rfl)).aside (post_effect _ _ _ _)).said
    (by decide) (fun _ => by simp) rfl

theorem tryEntry_granted (hlocked : w.s.lockedStanding e.carrier = none)
    (hfree : w.s.firstUnavailable e.carrier e.list = none) :
    w.tryEntry e = (w.grant e.carrier e.list e.stop e.tag e.origin).noteGranted e := by
  unfold tryEntry
  rw [hlocked, hfree]
  rfl

theorem tryEntry_blocked {i : Nat} (h : w.s.lockedStanding e.carrier = some i ∨
    (w.s.lockedStanding e.carrier = none ∧ ∃ why, w.s.firstUnavailable e.carrier e.list = some (i, why))) :
    w.tryEntry e = w.on (fun s => s.blockEntry e.carrier i) := by
  unfold tryEntry
  rcases h with h | ⟨h, why, hwhy⟩
  · rw [h]
  · rw [h, hwhy]

end

end Work

/-- Settles O26. -/
theorem reexaminationTriesAnEntry : Obligations.ReexaminationTriesAnEntry := by
  unfold Obligations.ReexaminationTriesAnEntry
  intro w e r ahead hs hr hidle hfront hlist hahead
  refine ⟨fun hunlocked hopen => ⟨(w.tryEntry e).s, rfl, ?_⟩, fun i hi => Work.tryEntry_blocked ?_⟩
  · have hrear : r.rearAhead = ahead := by
      refine (Carrier.rearAhead_eq ?_).trans hahead.symm
      rw [hfront]
      exact fun hn => hlist (List.head?_eq_none_iff.1 hn)
    have hgrant := w.grant_effect e.list e.stop e.tag e.origin hr hidle
    have hnote := Work.noteGranted_effect (w.grant e.carrier e.list e.stop e.tag e.origin) e
    rw [Work.tryEntry_granted (State.lockedStanding_none hs hr hunlocked) (State.firstUnavailable_none hopen)]
    have hall := (hgrant.aside hnote).said (G := [.segs, .routes, .versions, .carriers, .waiting, .dispatch])
      (m := fun d => d = e.carrier) (by decide) (fun d => by simp) rfl
    have hversion := fun d => (hnote.only.version (by decide) d).trans
      (w.version_grant e.list e.stop e.tag e.origin hr d)
    have hroute := fun d => (hnote.only.route? (by decide) d).trans (w.route?_grant e.list e.stop e.tag e.origin hr d)
    have hcarrier := fun d => (hnote.only.carrier? (by decide) d).trans
      (w.carrier?_grant e.list e.stop e.tag e.origin hr d)
    have hseg := fun i => (hnote.only.seg (by decide) i).trans (w.seg_grant e.list e.stop e.tag e.origin hr hs i)
    refine ⟨(hversion _).trans (if_pos rfl), ?_, (hcarrier _).trans (if_pos rfl), hseg, ?_,
      fun m => (hall.posts m).trans ?_, fun d hd => ⟨(hcarrier d).trans (if_neg hd), (hroute d).trans (if_neg hd),
        (hversion d).trans (if_neg hd)⟩, hall.reexam_eq fun i => ?_, hall.grown, hall.only.eq⟩
    · rw [hroute, hversion, if_pos rfl, if_pos rfl, hrear]
    · show ((w.grant e.carrier e.list e.stop e.tag e.origin).s.dropEntry e.carrier).waiting = _
      unfold State.dropEntry
      rw [hgrant.only.waiting (by decide)]
    · rw [hgrant.only.now, hnote.only.version (by decide)]
      rfl
    · refine (congrArg _ (hseg i)).trans ?_
      split
      · exact Work.hold_calm _ _ _
      · exact SegDyn.callsFor_self _
  · rcases hi with ⟨hold, hlocked, hfirst⟩ | ⟨hunlocked, pre, post, hids, hpre, hclosed⟩
    · exact .inl (State.lockedStanding_some hs hr hold hlocked hfirst)
    · rw [State.openTo_iff, not_or, SegDyn.standingOf_iff] at hclosed
      obtain ⟨why, hwhy⟩ := Option.ne_none_iff_exists'.1 hclosed.2
      exact .inr ⟨State.lockedStanding_none hs hr hunlocked, why,
        hids ▸ State.firstUnavailable_some hpre hclosed.1 hwhy⟩

end Sys2Proof.Machine
end

section
/-! ROUTE_REQUEST refused by the first check that fails, or refused or queued where a segment is not open (R24, R26,
R33). -/

namespace Sys2Proof.Machine

/-! ## The checks that refuse (R24) -/

/-- Checks 1 to 8 of ROUTE_REQUEST (R24). -/
def State.requestTests (u : State) (a : RouteArgs) : List (Reason × (List Val → Prop)) := [
  (.badMode, fun d => u.mode ≠ .active ∧ d = [.byte u.mode.code]),
  (.badValue, fun d => 2 ≤ a.queueFlag ∧ d = [.field 2]),
  (.unknownCarrier, fun d => u.carrier? a.carrier = none ∧ d = [.half a.carrier]),
  (.routeActive, fun d => ∃ r, u.carrier? a.carrier = some r ∧ r.state = .authorized ∧
    d = [.byte (u.version a.carrier)]),
  (.badCarrierState, fun d => ∃ r, u.carrier? a.carrier = some r ∧ r.state ≠ .idle ∧ d = [.byte r.state.code]),
  (.notAtStart, fun d => ∃ r, u.carrier? a.carrier = some r ∧ (a.ids = [] ∨ a.ids.head? ≠ r.front) ∧
    d = [.half (r.front.getD 65535)]),
  (.badSegment, fun d => ∃ pre i post, a.ids = pre ++ i :: post ∧ (∀ j ∈ pre, u.grid.usable j = true) ∧
    u.grid.usable i = false ∧ d = [.byte pre.length, .half i]),
  (.notAdjacent, fun d => ∃ k, k + 1 < a.ids.length ∧
    u.grid.adjacent (a.ids.getD k 0) (a.ids.getD (k + 1) 0) = false ∧
    (∀ j, j < k → u.grid.adjacent (a.ids.getD j 0) (a.ids.getD (j + 1) 0) = true) ∧ d = [.byte (k + 1)]),
  (.repeated, fun d => ∃ r pre i post, u.carrier? a.carrier = some r ∧ a.ids = pre ++ i :: post ∧ pre.Nodup ∧
    (∀ b, r.rear = some b → r.rear ≠ r.front → b ∉ pre) ∧
    (i ∈ pre ∨ (r.rear = some i ∧ r.rear ≠ r.front)) ∧ d = [.byte pre.length]),
  (.tooLong, fun d => 24 < a.ids.length ∧ d = [.byte a.ids.length])]

theorem Carrier.mem_rearAhead {r : Carrier} (hf : r.front ≠ none) {b : Nat} :
    b ∈ r.rearAhead ↔ r.rear = some b ∧ r.rear ≠ r.front := by
  rw [Carrier.rearAhead_eq hf]
  split
  · next h => exact iff_of_false List.not_mem_nil fun hb => hb.2 h
  · next h => rw [Option.mem_toList, and_iff_left h]

/-- Some first segment of a list stands in it before or was seen, unless none does. -/
theorem firstRepeat_none_of {seen l : List Nat} {k : Nat}
    (h : ∀ pre i post, l = pre ++ i :: post → pre.Nodup → (∀ y ∈ pre, y ∉ seen) → ¬ (i ∈ pre ∨ i ∈ seen)) :
    firstRepeat seen l k = none := by
  have hall : ∀ done todo, l = done ++ todo → done.Nodup ∧ ∀ y ∈ done, y ∉ seen := by
    intro done
    induction done using List.reverseRecOn with
    | nil => exact fun _ _ => ⟨List.nodup_nil, fun _ h => (nomatch h)⟩
    | append_singleton pre i ih =>
      intro todo hl
      have hl' : l = pre ++ i :: todo := by rw [hl, List.append_assoc]; rfl
      obtain ⟨hnodup, hunseen⟩ := ih _ hl'
      obtain ⟨hnew, hseen⟩ := not_or.1 (h pre i todo hl' hnodup hunseen)
      refine ⟨List.nodup_append.2 ⟨hnodup, List.nodup_singleton i, fun x hx y hy hxy => ?_⟩, fun y hy => ?_⟩
      · rw [List.mem_singleton] at hy
        exact hnew (hy ▸ hxy ▸ hx)
      · rcases List.mem_append.1 hy with hy | hy
        · exact hunseen y hy
        · exact List.mem_singleton.1 hy ▸ hseen
  exact firstRepeat_eq_none.2 (hall l [] (List.append_nil l).symm)

/-- The first check that fails refuses the request. -/
theorem State.routeChecks_refused {u : State} {a : RouteArgs} {why : Reason} {detail : List Val}
    (h : FirstFails (u.requestTests a) why detail) : u.routeChecks a = .error (refuse 0x26 why detail) := by
  unfold State.routeChecks
  rcases h with ⟨rfl, hm, rfl⟩ | ⟨hm, h⟩
  · exact if_pos hm
  rw [if_neg fun h => hm _ ⟨h, rfl⟩]
  rcases h with ⟨rfl, hq, rfl⟩ | ⟨hq, h⟩
  · rw [readYesNo_eq_none.2 hq]
    rfl
  rw [readYesNo_bit (Nat.le_of_lt_succ (Nat.lt_of_not_le fun h => hq _ ⟨h, rfl⟩))]
  dsimp only
  rcases h with ⟨rfl, hr, rfl⟩ | ⟨hn, h⟩
  · rw [hr]
  obtain ⟨r, hr⟩ := Option.ne_none_iff_exists'.1 fun h => hn _ ⟨h, rfl⟩
  rw [hr]
  dsimp only
  rcases h with ⟨rfl, x, hx, ha, rfl⟩ | ⟨hauth, h⟩
  · rw [Option.some.inj (hr.symm.trans hx), if_pos ha]
  rw [if_neg fun h => hauth _ ⟨r, hr, h, rfl⟩]
  rcases h with ⟨rfl, x, hx, hi, rfl⟩ | ⟨hidle, h⟩
  · rw [Option.some.inj (hr.symm.trans hx), if_pos hi]
  rw [if_neg fun h => hidle _ ⟨r, hr, h, rfl⟩]
  rcases h with ⟨rfl, x, hx, hstart, rfl⟩ | ⟨hstart, h⟩
  · rw [Option.some.inj (hr.symm.trans hx), if_pos (hstart.imp_left List.head?_eq_none_iff.2)]
    rfl
  have hpassed : ¬ (a.ids.head? = none ∨ a.ids.head? ≠ r.front) := fun h =>
    hstart _ ⟨r, hr, h.imp_left List.head?_eq_none_iff.1, rfl⟩
  have hfront : r.front ≠ none := fun hf => hpassed (by rw [hf]; exact em _)
  rw [if_neg hpassed]
  rcases h with ⟨rfl, pre, i, post, hids, hpre, hi, rfl⟩ | ⟨husable, h⟩
  · rw [hids, Grid.firstUnusable_some hpre hi]
  rw [Grid.firstUnusable_none_of fun pre i post hids hi hpre => husable _ ⟨pre, i, post, hids, hpre, hi, rfl⟩]
  dsimp only
  rcases h with ⟨rfl, k, hk, hapart, hbefore, rfl⟩ | ⟨hadjacent, h⟩
  · rw [Grid.firstApart_some 0 hk hapart hbefore, Nat.zero_add]
  rw [Grid.firstApart_none_of 0 fun j hj hapart hbefore => hadjacent _ ⟨j, hj, hapart, hbefore, rfl⟩]
  dsimp only
  rcases h with ⟨rfl, x, pre, i, post, hx, hids, hpre, hrear, hi, rfl⟩ | ⟨honce, h⟩
  · obtain rfl := Option.some.inj (hr.symm.trans hx)
    rw [hids, firstRepeat_some hpre (fun y hy hm => ?_) (hi.imp_right (Carrier.mem_rearAhead hfront).2), Nat.zero_add]
    obtain ⟨hb, hne⟩ := (Carrier.mem_rearAhead hfront).1 hm
    exact hrear y hb hne hy
  rw [firstRepeat_none_of fun pre i post hids hpre hseen hi => honce _ ⟨r, pre, i, post, hr, hids, hpre,
    fun b hb hne hm => hseen b hm ((Carrier.mem_rearAhead hfront).2 ⟨hb, hne⟩),
    hi.imp_right (Carrier.mem_rearAhead hfront).1, rfl⟩]
  dsimp only
  rcases h with ⟨rfl, hlong, rfl⟩ | h
  · exact if_pos hlong
  · exact h.2.elim

/-! ## The pending list (R33) -/

section
variable {u : State} {e : PendingEntry}

/-- A new entry takes the place of the carrier's. -/
theorem State.queueEntry_replaced {before after : List PendingEntry} {old : PendingEntry}
    (hw : u.waiting = before ++ old :: after) (hold : old.carrier = e.carrier)
    (hbefore : ∀ x ∈ before, x.carrier ≠ e.carrier) : u.queueEntry e =
      some (State.post { u with waiting := before ++ e :: after } .replaced (.carrier e.carrier) [.half old.tag],
        before.length + 1) := by
  have hplace : placeOf (u.waiting.map (fun x => x.carrier)) e.carrier = some before.length := by
    have hfirst : firstWhere (fun y => decide (y = e.carrier)) (u.waiting.map (fun x => x.carrier)) 0 =
        some (0 + (before.map (fun x => x.carrier)).length, old.carrier) :=
      firstWhere_eq_some.2 ⟨_, after.map (fun x => x.carrier), by simp [hw], fun x hx => by
        obtain ⟨y, hy, rfl⟩ := List.mem_map.1 hx
        exact decide_eq_false (hbefore y hy), decide_eq_true hold, rfl⟩
    rw [placeOf, hfirst]
    simp
  have hset : u.waiting.set before.length e = before ++ e :: after := by simp [hw]
  unfold State.queueEntry
  rw [hplace, State.entry?_of_first hw hold hbefore]
  dsimp only
  rw [hset]

variable (hnone : ∀ x ∈ u.waiting, x.carrier ≠ e.carrier)
include hnone

theorem State.queueEntry_unplaced : u.queueEntry e =
    if 32 ≤ u.waiting.length then none
    else some ({ u with waiting := u.waiting ++ [e] }, u.waiting.length + 1) := by
  unfold State.queueEntry
  rw [State.entry?_eq_none_iff.2 hnone]
  split
  · next h => cases h
  · rfl

end

/-! ## ROUTE_REQUEST that passes checks 1 to 8 -/

section
variable {u : State} {l : DLink} {a : RouteArgs} {r : Carrier} (h : u.MayAsk a r)
include h

theorem ownRouteRequest_locked {i : Nat} (hi : u.lockedStanding a.carrier = some i) : ownRouteRequest l a u =
    (u, ⟨0x26, .refused, .locked, decide (u.stopOf a ≠ a.stop ∨ expiryOf a ≠ a.expiry),
      .half i :: lockCranes (u.seg i).lock⟩) := by
  unfold ownRouteRequest
  rw [h.passes]
  dsimp only
  rw [hi, State.stopOf_eq]
  rfl

/-- A request that meets a segment that is not open is queued where its flag asks for it. -/
theorem ownRouteRequest_closed {i : Nat} {why : Reason} (hlocked : u.lockedStanding a.carrier = none)
    (hi : u.firstUnavailable a.carrier a.ids = some (i, why)) : ownRouteRequest l a u =
      if a.queueFlag = 1 then
        match u.queueEntry ⟨a.carrier, a.ids, u.stopOf a, a.tag, l, u.now,
            u.now + BitVec.ofNat 32 (1000 * expiryOf a), i⟩ with
        | some (s1, position) =>
          (s1, ⟨0x26, .queued, .none_, decide (u.stopOf a ≠ a.stop ∨ expiryOf a ≠ a.expiry),
            [.byte position, .half i, .byte why.code] ++ (if why = .conflict then partyVals (u.seg i).holder else [])⟩)
        | none => (u, ⟨0x26, .refused, .queueFull, decide (u.stopOf a ≠ a.stop ∨ expiryOf a ≠ a.expiry), []⟩)
      else (u, ⟨0x26, .refused, why, decide (u.stopOf a ≠ a.stop ∨ expiryOf a ≠ a.expiry),
        .half i :: (if why = .conflict then partyVals (u.seg i).holder else [])⟩) := by
  unfold ownRouteRequest
  rw [h.passes]
  dsimp only
  rw [hlocked, hi, State.stopOf_eq]
  by_cases hq : a.queueFlag = 1
  · simp only [decide_eq_true hq, if_pos hq, if_true]
    rfl
  · simp only [decide_eq_false hq, if_neg hq]
    rfl

end

/-- Settles O21. -/
theorem routeRequestRefusedOrQueued : Obligations.RouteRequestRefusedOrQueued := by
  unfold Obligations.RouteRequestRefusedOrQueued
  refine ⟨fun s u l a why detail hu hroom h => ?_, fun s u l a r i hu hroom h hi hlocked hfirst => ?_,
    fun s u l a r pre post i why clamped holder e hu hroom h hids hpre hi hwhy hclamped hholder he => ?_⟩
  · have howner : ownRouteRequest l a u = (u, ⟨0x26, .refused, why, false, detail⟩) := by
      unfold ownRouteRequest
      rw [State.routeChecks_refused h]
      rfl
    exact next_takeRequest hu hroom howner
  · have hlock := State.lockedStanding_some h.sorted h.registered hi hlocked hfirst
    have howner := ownRouteRequest_locked (l := l) h hlock
    have hcranes : lockCranes (u.seg i).lock =
        .byte (u.seg i).lock.rows.length :: (u.seg i).lock.rows.map (fun x => .half x.1) := by
      simp [lockCranes, listVals, Table.keys]
    rw [hcranes] at howner
    exact next_takeRequest hu hroom howner
  · have hunlocked := State.lockedStanding_none h.sorted h.registered h.unlocked
    have hfirst : u.firstUnavailable a.carrier a.ids = some (i, why) := hids ▸ State.firstUnavailable_some hpre hi hwhy
    have howner := ownRouteRequest_closed (l := l) h.toMayAsk hunlocked hfirst
    rw [← hclamped, ← he, ← hholder] at howner
    have hcarrier : e.carrier = a.carrier := by rw [he]
    refine ⟨fun hq => ?_, fun hq before old after hw hold hbefore => ?_, fun hq hnone hfull => ?_,
      fun hq hnone hfull => ?_⟩
    · rw [if_neg (by omega)] at howner
      exact next_takeRequest hu hroom howner
    · rw [if_pos hq, State.queueEntry_replaced hw (hold.trans hcarrier.symm) fun x hx => hcarrier ▸ hbefore x hx,
        hcarrier] at howner
      exact next_takeRequest hu hroom howner
    · rw [if_pos hq, State.queueEntry_unplaced fun x hx => hcarrier ▸ hnone x hx, if_neg (Nat.not_le.2 hfull)] at howner
      exact next_takeRequest hu hroom howner
    · rw [if_pos hq, State.queueEntry_unplaced fun x hx => hcarrier ▸ hnone x hx, if_pos hfull] at howner
      exact next_takeRequest hu hroom howner

end Sys2Proof.Machine
end

section
/-! Standing ground settled, marks removed, and a carrier cleared of route and cause (R33, R43, R45, R72). -/

namespace Sys2Proof.Machine

theorem SegDyn.ownedBy_iff (r : SegDyn) (p : Party) : r.ownedBy p = true ↔ r.holder = some p := decide_eq_true_iff

theorem State.mem_ownedBy {s : State} (hs : s.segs.Sorted) {p : Party} {i : Nat} :
    i ∈ s.ownedBy p ↔ (s.seg i).holder = some p :=
  (State.mem_segsWhere hs rfl).trans (SegDyn.ownedBy_iff _ _)

/-- A change of the hold and a change of the intruder share no field. -/
theorem SegDyn.Apart.of_hold_intruder {a b c : SegDyn} (hb : ∃ h, b = { a with hold := h })
    (hc : ∃ x, c = { b with intruder := x }) : SegDyn.Apart a b c := by
  obtain ⟨h, rfl⟩ := hb
  obtain ⟨x, rfl⟩ := hc
  exact ⟨.inr rfl, .inl rfl, .inl rfl, .inl rfl⟩

/-- A record whose hold and mark change calls for re-examination where one of them goes (R21). -/
theorem SegDyn.callsFor_hold_intruder (r : SegDyn) (h : Hold) (x : Option Party) :
    SegDyn.callsFor r { r with hold := h, intruder := x } = true ↔
      (r.hold ≠ .free ∧ h = .free) ∨ (r.intruder ≠ none ∧ x = none) := by
  rw [SegDyn.callsFor_iff]
  simp

/-- The ground of a front and a rear, front first, a rear that is the front once. -/
theorem groundOf_eq (front rear : Option Nat) :
    groundOf front rear = front.toList ++ if rear = front then [] else rear.toList := by
  unfold groundOf
  cases front with
  | none => cases rear <;> simp
  | some f =>
    cases rear with
    | none => simp
    | some b =>
      by_cases h : f = b
      · simp [h]
      · simp [h, Ne.symm h]

namespace Work

variable {w : Work} {c : Nat}

/-! ## Standing ground (R33, R45) -/

theorem onSegs_sorted (hs : w.s.segs.Sorted) (ids : List Nat) (f : SegDyn → SegDyn) : (w.onSegs ids f).s.segs.Sorted :=
  Machine.Within.sorted (w.onSegs_within ids f) hs

theorem settleStanding_sorted (hs : w.s.segs.Sorted) (c : Nat) (ids : List Nat) :
    (w.settleStanding c ids).s.segs.Sorted := Machine.Within.sorted (w.settleStanding_within c ids) hs

theorem seg_settleStanding (hs : w.s.segs.Sorted) (ids : List Nat) (i : Nat) : (w.settleStanding c ids).s.seg i =
    { w.s.seg i with hold := if i ∈ ids then .held (.carrier c) .standing
      else if (w.s.seg i).holder = some (.carrier c) then .free else (w.s.seg i).hold } := by
  have hmem : i ∈ (w.s.ownedBy (.carrier c)).filter (fun i => !(ids.contains i)) ↔
      i ∉ ids ∧ (w.s.seg i).holder = some (.carrier c) := by
    rw [List.mem_filter, State.mem_ownedBy hs, and_comm]
    simp
  refine (seg_onSegs _ _ _ release_idem i).trans ?_
  have hplace : (w.placeStanding c ids).s.seg i = _ := seg_onSegs w ids _ (hold_idem (.carrier c) .standing) i
  rw [hplace, if_congr hmem rfl rfl]
  by_cases hi : i ∈ ids
  · simp [hi, SegDyn.hold_]
  · by_cases hh : (w.s.seg i).holder = some (.carrier c) <;> simp [hi, hh, SegDyn.release]

theorem settleStanding_effect (w : Work) (c : Nat) (ids : List Nat) :
    Effect [.segs] (fun _ => False) [] w (w.settleStanding c ids) := by
  have hplace : Effect [.segs] (fun _ => False) [] w (w.placeStanding c ids) := w.onSegs_effect ids (hold_idem _ _)
  have hrelease := (w.placeStanding c ids).onSegs_effect
    ((w.s.ownedBy (.carrier c)).filter (fun i => !(ids.contains i))) release_idem
  refine (hplace.trans hrelease fun i => ?_).said (by decide) (fun _ => by simp) rfl
  by_cases hi : i ∈ ids
  · exact .of_right (seg_onSegs_of_not_mem _ _ _ fun h => by simp [hi] at h)
  · exact .of_left (seg_onSegs_of_not_mem _ _ _ hi)

/-! ## Marks (R43) -/

/-- The removal of a mark. -/
theorem unmark_idem (r : SegDyn) : ({ ({ r with intruder := none } : SegDyn) with intruder := none } : SegDyn) =
    { r with intruder := none } := rfl

theorem seg_clearMarks (hs : w.s.segs.Sorted) (p : Party) (i : Nat) : (w.clearMarks p).s.seg i =
    { w.s.seg i with intruder := if (w.s.seg i).intruder = some p then none else (w.s.seg i).intruder } := by
  refine (seg_onSegs _ _ _ unmark_idem i).trans ?_
  rw [if_congr ((State.mem_segsWhere hs rfl).trans decide_eq_true_iff) rfl rfl]
  split <;> rfl

theorem clearMarks_effect (w : Work) (p : Party) : Effect [.segs] (fun _ => False) [] w (w.clearMarks p) :=
  w.onSegs_effect _ unmark_idem

/-! ## A change of state from another state than IDLE (R53) -/

theorem changeState_stays {r : Carrier} (hr : w.s.carrier? c = some r) (new : CarrierState) (extra : List Val)
    (hstay : r.state.leaves new = false) : Effect [.carriers, .dispatch] (fun d => d = c)
      [⟨.carrierState, w.s.now, .carrier c, [.byte r.state.code, .byte new.code] ++ extra⟩] w
      (w.changeState c new extra) := by
  rw [w.changeState_eq hr, hstay]
  exact w.stateChanged_effect new extra r.state

/-! ## A carrier cleared (R32, R70 to R72) -/

/-- Route and marks of a carrier go. -/
def unrouted (w : Work) (c : Nat) : Work := (w.deleteRoute c).clearMarks (.carrier c)

theorem unrouted_effect (w : Work) (c : Nat) :
    Effect [.segs, .routes, .carriers] (fun d => d = c ∧ w.s.route? c ≠ none) [] w (w.unrouted c) :=
  ((w.deleteRoute_effect c).first (clearMarks_effect _ _)).said (by decide) (fun d => by simp) rfl

theorem seg_unrouted (hs : w.s.segs.Sorted) (i : Nat) : (w.unrouted c).s.seg i = { w.s.seg i with
    intruder := if (w.s.seg i).intruder = some (.carrier c) then none else (w.s.seg i).intruder } := by
  have hdelete := (w.deleteRoute_effect c).only
  have hsorted : (w.deleteRoute c).s.segs.Sorted := by rw [hdelete.segs (by decide)]; exact hs
  rw [unrouted, seg_clearMarks hsorted, hdelete.seg (by decide)]

theorem route?_unrouted (d : Nat) : (w.unrouted c).s.route? d = if d = c then none else w.s.route? d := by
  rw [unrouted, (clearMarks_effect _ _).only.route? (by decide), route?_deleteRoute]

theorem carrier?_unrouted {r : Carrier} (hr : w.s.carrier? c = some r) (d : Nat) : (w.unrouted c).s.carrier? d =
    if d = c then some { r with
      auth := { r.auth with endPos := if (w.s.route? c).isSome then none else r.auth.endPos } }
    else w.s.carrier? d := by
  rw [unrouted, (clearMarks_effect _ _).only.carrier? (by decide), carrier?_deleteRoute]
  by_cases hd : d = c
  · subst hd
    cases hroute : w.s.route? d <;> simp [hr]
  · simp [hd]

/-- Route, marks and cause of a carrier go. -/
def cleared (w : Work) (c : Nat) : Work := (w.unrouted c).onCarrier c (fun r => { r with cause := none })

theorem clearTo_eq (w : Work) (c : Nat) (new : CarrierState) :
    w.clearTo c new = (w.cleared c).changeState c new [] := rfl

theorem cleared_effect (w : Work) (c : Nat) :
    Effect [.segs, .routes, .carriers] (fun d => d = c ∧ w.s.route? c ≠ none) [] w (w.cleared c) :=
  ((w.unrouted_effect c).aside (onCarrier_effect _ c _)).said (by decide) (fun d => by simp) rfl

theorem seg_cleared (hs : w.s.segs.Sorted) (i : Nat) : (w.cleared c).s.seg i = { w.s.seg i with
    intruder := if (w.s.seg i).intruder = some (.carrier c) then none else (w.s.seg i).intruder } :=
  ((onCarrier_effect _ c _).only.seg (by decide) i).trans (seg_unrouted hs i)

theorem route?_cleared (d : Nat) : (w.cleared c).s.route? d = if d = c then none else w.s.route? d :=
  ((onCarrier_effect _ c _).only.route? (by decide) d).trans (route?_unrouted d)

theorem carrier?_cleared {r : Carrier} (hr : w.s.carrier? c = some r) (d : Nat) : (w.cleared c).s.carrier? d =
    if d = c then some { r with
      cause := none, auth := { r.auth with endPos := if (w.s.route? c).isSome then none else r.auth.endPos } }
    else w.s.carrier? d := by
  refine (State.carrier?_onCarrier _ _ _).trans ?_
  rw [carrier?_unrouted hr]
  by_cases hd : d = c <;> simp [hd]

section
variable {r : Carrier} (hr : w.s.carrier? c = some r) (new : CarrierState)
include hr

theorem clearTo_effect (hstay : r.state ≠ .idle) : Effect [.segs, .routes, .carriers, .dispatch] (fun d => d = c)
    [⟨.carrierState, w.s.now, .carrier c, [.byte r.state.code, .byte new.code]⟩] w (w.clearTo c new) := by
  have hcleared := w.cleared_effect c
  have hchange := changeState_stays ((carrier?_cleared hr c).trans (if_pos rfl)) new []
    (by simp [CarrierState.leaves, hstay])
  rw [hcleared.only.now] at hchange
  rw [clearTo_eq]
  exact (hcleared.aside hchange).said (by decide) (fun d => by tauto) rfl

theorem seg_clearTo (hs : w.s.segs.Sorted) (i : Nat) : (w.clearTo c new).s.seg i = { w.s.seg i with
    intruder := if (w.s.seg i).intruder = some (.carrier c) then none else (w.s.seg i).intruder } :=
  ((changeState_effect _ ((carrier?_cleared hr c).trans (if_pos rfl)) new []).only.seg (by decide) i).trans
    (seg_cleared hs i)

theorem route?_clearTo (d : Nat) : (w.clearTo c new).s.route? d = if d = c then none else w.s.route? d :=
  ((changeState_effect _ ((carrier?_cleared hr c).trans (if_pos rfl)) new []).only.route? (by decide) d).trans
    (route?_cleared d)

theorem carrier?_clearTo (d : Nat) : (w.clearTo c new).s.carrier? d =
    if d = c then some { r with
      state := new, cause := none, timer := if new.timerStops then none else r.timer
      auth := { r.auth with endPos := if (w.s.route? c).isSome then none else r.auth.endPos } }
    else w.s.carrier? d := by
  rw [clearTo_eq, carrier?_changeState, carrier?_cleared hr]
  by_cases hd : d = c <;> simp [hd]

end

end Work

end Sys2Proof.Machine
end

section
/-! CLEAR_EMERGENCY (R45, R72). -/

namespace Sys2Proof.Machine

/-! ## The checks that the three recovery requests share -/

theorem State.recoverable_ok {u : State} {c : Nat} {r : Carrier} (hm : u.mode ≠ .config) (hr : u.carrier? c = some r)
    (kind : Nat) : u.recoverable kind c = .ok r := by
  simp [State.recoverable, hm, hr]

/-- The checks of the mode and of the roster. -/
def State.recoveryTests (u : State) (c : Nat) : List (Reason × (List Val → Prop)) := [
  (.badMode, fun d => u.mode = .config ∧ d = []), (.unknownCarrier, fun d => u.carrier? c = none ∧ d = [])]

theorem State.recoverable_refused {u : State} {c : Nat} {why : Reason} {detail : List Val}
    (h : FirstFails (u.recoveryTests c) why detail) (kind : Nat) :
    u.recoverable kind c = .error (refuse kind why detail) := by
  unfold State.recoverable
  rcases h with ⟨rfl, hm, rfl⟩ | ⟨hm, ⟨rfl, hr, rfl⟩ | h⟩
  · exact if_pos hm
  · rw [if_neg fun h => hm _ ⟨h, rfl⟩, hr]
  · exact h.2.elim

theorem State.recoveryTests_pass {u : State} {c : Nat} (h : ∀ x ∈ u.recoveryTests c, ∀ d, ¬ x.2 d) :
    u.mode ≠ .config ∧ ∃ r, u.carrier? c = some r := by
  simp only [State.recoveryTests, List.forall_mem_cons] at h
  obtain ⟨hmode, hnone, -⟩ := h
  exact ⟨fun hm => hmode _ ⟨hm, rfl⟩, Option.ne_none_iff_exists'.1 fun hn => hnone _ ⟨hn, rfl⟩⟩

/-! ## Ground that a carrier may stand on -/

section
variable {u : State} {front rear : Option Nat} {may : SegDyn → Bool}

theorem mem_groundOf {i : Nat} : i ∈ groundOf front rear ↔ front = some i ∨ rear = some i := by
  rw [groundOf_eq]
  by_cases h : rear = front
  · simp [h]
  · simp [h]

theorem State.firstHeldAgainst_none {ids : List Nat} (h : ∀ i ∈ ids, may (u.seg i) = true) :
    u.firstHeldAgainst ids may = none := by
  simpa [State.firstHeldAgainst] using h

/-- The front is named before the rear. -/
theorem State.firstHeldAgainst_front {i : Nat} (hf : front = some i) (hi : may (u.seg i) = false) :
    u.firstHeldAgainst (groundOf front rear) may = some (i, (u.seg i).holder) := by
  subst hf
  rw [groundOf_eq]
  simp [State.firstHeldAgainst, hi]

theorem State.firstHeldAgainst_rear {i : Nat} (hf : ∀ j, front = some j → may (u.seg j) = true) (hb : rear = some i)
    (hi : may (u.seg i) = false) : u.firstHeldAgainst (groundOf front rear) may = some (i, (u.seg i).holder) := by
  subst hb
  cases front with
  | none => simp [State.firstHeldAgainst, groundOf, hi]
  | some j =>
    have hj := hf j rfl
    have hne : ¬ j = i := fun h => by rw [h, hi] at hj; cases hj
    simp [State.firstHeldAgainst, groundOf, hne, hj, hi]

end

theorem SegDyn.mayStand_iff (r : SegDyn) (p : Party) :
    (r.isFree || r.heldBy p) = true ↔ r.hold = .free ∨ ∃ k, r.hold = .held p k := by
  rw [Bool.or_eq_true, r.isFree_iff, r.heldBy_iff]

theorem SegDyn.mayNotStand_iff (r : SegDyn) (p : Party) :
    (r.isFree || r.heldBy p) = false ↔ r.hold ≠ .free ∧ ∀ k, r.hold ≠ .held p k := by
  rw [← Bool.not_eq_true, r.mayStand_iff, not_or, not_exists]

theorem Grid.strays_false {g : Grid} {o : Option Nat} (h : ∀ i, o = some i → i < g.lanes * g.bays) :
    g.strays o = false := by
  cases o with
  | none => rfl
  | some i => simpa [Grid.strays, Grid.inside_iff] using h i rfl

theorem Grid.strays_some {g : Grid} {o : Option Nat} {i : Nat} (ho : o = some i) (h : g.lanes * g.bays ≤ i) :
    g.strays o = true := by
  subst ho
  simpa [Grid.strays, ← Bool.not_eq_true, Grid.inside_iff] using h

/-! ## CLEAR_EMERGENCY -/

section
variable {u : State} {c : Nat} {r : Carrier}

/-- The checks of CLEAR_EMERGENCY beside the mode and the roster (R72). -/
def State.clearTests (u : State) (c n : Nat) : List (Reason × (List Val → Prop)) := [
  (.badCarrierState, fun d => ∃ r, u.carrier? c = some r ∧ r.state ≠ .emergency ∧ d = []),
  (.moving, fun d => ∃ r, u.carrier? c = some r ∧ (0 < r.speed ∨ r.flags.fault = true) ∧ d = []),
  (.badSegment, fun d => ∃ r i, u.carrier? c = some r ∧ (r.front = some i ∨ r.rear = some i) ∧ n ≤ i ∧ d = []),
  (.conflict, fun d => ∃ r i, u.carrier? c = some r ∧ r.front = some i ∧ (u.seg i).hold ≠ .free ∧
    (∀ k, (u.seg i).hold ≠ .held (.carrier c) k) ∧ d = .half i :: partyVals (u.seg i).holder),
  (.conflict, fun d => ∃ r i, u.carrier? c = some r ∧ r.rear = some i ∧ (u.seg i).hold ≠ .free ∧
    (∀ k, (u.seg i).hold ≠ .held (.carrier c) k) ∧ d = .half i :: partyVals (u.seg i).holder)]

theorem ownClearEmergency_refused (hm : u.mode ≠ .config) (hr : u.carrier? c = some r) {why : Reason}
    {detail : List Val} (h : FirstFails (u.clearTests c (u.grid.lanes * u.grid.bays)) why detail) :
    ownClearEmergency c u = (u, ⟨0x32, .refused, why, false, detail⟩) := by
  unfold ownClearEmergency
  rw [State.recoverable_ok hm hr]
  dsimp only
  rcases h with ⟨rfl, x, hx, hs, rfl⟩ | ⟨hstate, h⟩
  · obtain rfl := Option.some.inj (hr.symm.trans hx)
    exact if_pos hs
  rw [if_neg fun h => hstate _ ⟨r, hr, h, rfl⟩]
  rcases h with ⟨rfl, x, hx, hmoving, rfl⟩ | ⟨hrest, h⟩
  · obtain rfl := Option.some.inj (hr.symm.trans hx)
    exact if_pos hmoving
  rw [if_neg fun h => hrest _ ⟨r, hr, h, rfl⟩]
  rcases h with ⟨rfl, x, i, hx, hi, hn, rfl⟩ | ⟨hinside, h⟩
  · obtain rfl := Option.some.inj (hr.symm.trans hx)
    refine if_pos ?_
    rcases hi with hi | hi
    · rw [Grid.strays_some hi hn, Bool.true_or]
    · rw [Grid.strays_some hi hn, Bool.or_true]
  have hin : ∀ i, r.front = some i ∨ r.rear = some i → i < u.grid.lanes * u.grid.bays := fun i hi =>
    Nat.lt_of_not_le fun hn => hinside _ ⟨r, i, hr, hi, hn, rfl⟩
  rw [Grid.strays_false fun i hi => hin i (.inl hi), Grid.strays_false fun i hi => hin i (.inr hi),
    if_neg (by decide)]
  rcases h with ⟨rfl, x, i, hx, hi, hfree, hown, rfl⟩ | ⟨hfront, h⟩
  · obtain rfl := Option.some.inj (hr.symm.trans hx)
    rw [State.firstHeldAgainst_front hi ((SegDyn.mayNotStand_iff _ _).2 ⟨hfree, hown⟩)]
    rfl
  rcases h with ⟨rfl, x, i, hx, hi, hfree, hown, rfl⟩ | h
  · obtain rfl := Option.some.inj (hr.symm.trans hx)
    rw [State.firstHeldAgainst_rear (fun j hj => ?_) hi ((SegDyn.mayNotStand_iff _ _).2 ⟨hfree, hown⟩)]
    · rfl
    · by_contra hno
      obtain ⟨hfree, hown⟩ := (SegDyn.mayNotStand_iff _ _).1 (Bool.eq_false_iff.2 hno)
      exact hfront _ ⟨r, j, hr, hj, hfree, hown, rfl⟩
  · exact h.2.elim

/-- A segment becomes FREE where ground is settled: one of the carrier's that is not of that ground. -/
theorem SegDyn.settled_iff (x : SegDyn) (p : Party) (inGround : Prop) [Decidable inGround] :
    (x.hold ≠ .free ∧ (if inGround then .held p .standing else if x.holder = some p then .free else x.hold) = .free) ↔
      ¬ inGround ∧ x.holder = some p := by
  by_cases hg : inGround
  · simp [hg]
  · by_cases hh : x.holder = some p
    · have hne : x.hold ≠ .free := fun h => by
        unfold SegDyn.holder at hh
        rw [h] at hh
        cases hh
      simp [hg, hh, hne]
    · simp [hg, hh]

theorem SegDyn.unmarked_iff (x : SegDyn) (p : Party) :
    (x.intruder ≠ none ∧ (if x.intruder = some p then none else x.intruder) = none) ↔ x.intruder = some p := by
  by_cases h : x.intruder = some p
  · simp [h]
  · simp [h]

/-- A carrier settled on its ground and cleared (R45, R72). -/
def settledAndCleared (u : State) (c : Nat) (ground : List Nat) (new : CarrierState) : Work :=
  ((Work.start u none).settleStanding c ground).clearTo c new

section
variable (hr : u.carrier? c = some r) (hs : u.segs.Sorted) (ground : List Nat) (new : CarrierState)
include hr

theorem carrier?_settled : ((Work.start u none).settleStanding c ground).s.carrier? c = some r :=
  ((Work.settleStanding_effect (Work.start u none) c ground).only.carrier? (by decide) c).trans hr

include hs

theorem seg_settledAndCleared (i : Nat) : (settledAndCleared u c ground new).s.seg i = { u.seg i with
    hold := if i ∈ ground then .held (.carrier c) .standing
      else if (u.seg i).holder = some (.carrier c) then .free else (u.seg i).hold
    intruder := if (u.seg i).intruder = some (.carrier c) then none else (u.seg i).intruder } := by
  refine (Work.seg_clearTo (carrier?_settled hr ground) new (Work.settleStanding_sorted hs c ground) i).trans ?_
  rw [Work.seg_settleStanding hs]
  rfl

theorem settledAndCleared_effect (hstate : r.state ≠ .idle) :
    Work.Effect [.segs, .routes, .carriers, .dispatch] (fun d => d = c)
      [⟨.carrierState, u.now, .carrier c, [.byte r.state.code, .byte new.code]⟩] (Work.start u none)
      (settledAndCleared u c ground new) := by
  have hsettle := (Work.start u none).settleStanding_effect c ground
  have hclear := Work.clearTo_effect (carrier?_settled hr ground) new hstate
  rw [hsettle.only.now] at hclear
  refine (hsettle.trans hclear fun i => .of_hold_intruder ⟨_, Work.seg_settleStanding hs ground i⟩
    ⟨_, Work.seg_clearTo (carrier?_settled hr ground) new (Work.settleStanding_sorted hs c ground) i⟩).said
      (by decide) (fun d => by simp) rfl

end

end

/-- Settles O31. -/
theorem clearEmergency : Obligations.ClearEmergency := by
  unfold Obligations.ClearEmergency
  refine ⟨
    fun s u l c r ground freed new hu hroom hs hm hr hstate hspeed hfault hground hin hmay hfreed hnodup hnew => ?_,
    fun s u l c n why detail hu hroom hn h => ?_⟩
  · rw [← groundOf_eq] at hground
    subst hground
    have hidle : r.state ≠ .idle := by rw [hstate]; decide
    have heffect := settledAndCleared_effect hr hs (groundOf r.front r.rear) new hidle
    have hseg := seg_settledAndCleared hr hs (groundOf r.front r.rear) new
    have hsettled := carrier?_settled hr (groundOf r.front r.rear)
    have hsettle := ((Work.start u none).settleStanding_effect c (groundOf r.front r.rear)).only
    have hcarrier : ∀ d, (settledAndCleared u c (groundOf r.front r.rear) new).s.carrier? d = _ :=
      Work.carrier?_clearTo hsettled new
    have hroute : ∀ d, (settledAndCleared u c (groundOf r.front r.rear) new).s.route? d = _ :=
      Work.route?_clearTo hsettled new
    refine ⟨settledAndCleared u c (groundOf r.front r.rear) new, next_takeRequest hu hroom ?_, heffect.grown, ?_,
      (hroute c).trans (if_pos rfl), fun d hd => ⟨?_, ?_⟩, fun i => ?_, fun m => (heffect.posts m).trans ?_,
      heffect.only.eq, ?_⟩
    · have hlength := length_eq_of_mem_iff (l := (u.ownedBy (.carrier c)).filter
        (fun i => !((groundOf r.front r.rear).contains i))) ((Table.nodup_keysWhere hs _).filter _) hnodup fun i => by
          rw [hfreed, List.mem_filter, State.mem_ownedBy hs, and_comm]
          simp
      unfold ownClearEmergency
      rw [State.recoverable_ok hm hr]
      dsimp only
      rw [if_neg (not_not.2 hstate), if_neg (by simp [hspeed, hfault]),
        Grid.strays_false fun i hi => hin i (mem_groundOf.2 (.inl hi)),
        Grid.strays_false fun i hi => hin i (mem_groundOf.2 (.inr hi)), if_neg (by decide),
        State.firstHeldAgainst_none fun i hi => (SegDyn.mayStand_iff _ _).2 (hmay i hi)]
      dsimp only
      rw [hlength, hnew]
      simp only [List.isEmpty_iff]
      rfl
    · rw [hcarrier, if_pos rfl, hsettle.route? (by decide), hnew]
      split <;> rfl
    · rw [hcarrier, if_neg hd, hsettle.carrier? (by decide)]
      rfl
    · rw [hroute, if_neg hd, hsettle.route? (by decide)]
      rfl
    · rw [hseg]
      by_cases hi : i ∈ groundOf r.front r.rear <;> simp [hfreed, hi]
    · rw [hstate]
      rfl
    · refine (heffect.reexam_iff.trans (or_iff_right Bool.false_ne_true)).trans (exists_congr fun i => ?_)
      rw [hseg]
      refine (SegDyn.callsFor_hold_intruder _ _ _).trans (or_congr ?_ (SegDyn.unmarked_iff _ _))
      rw [hfreed]
      exact SegDyn.settled_iff _ _ _
  · subst hn
    have hsplit : FirstFails (u.recoveryTests c ++ u.clearTests c (u.grid.lanes * u.grid.bays)) why detail := h
    rw [firstFails_append] at hsplit
    rcases hsplit with hrec | ⟨hpass, htests⟩
    · have howner : ownClearEmergency c u = (u, ⟨0x32, .refused, why, false, detail⟩) := by
        unfold ownClearEmergency
        rw [State.recoverable_refused hrec]
        rfl
      exact next_takeRequest hu hroom howner
    · obtain ⟨hm, r, hr⟩ := State.recoveryTests_pass hpass
      exact next_takeRequest hu hroom (ownClearEmergency_refused hm hr htests)

end Sys2Proof.Machine
end

section
/-! RECOVER_CARRIER and RELEASE_FROZEN of a LOST carrier (R45, R70, R71). -/

namespace Sys2Proof.Machine

theorem SegDyn.frozenBy_iff (r : SegDyn) (p : Party) : r.frozenBy p = true ↔ ∃ k, r.hold = .frozen p k := by
  unfold SegDyn.frozenBy
  cases r.hold <;> simp [eq_comm]

theorem State.mem_frozenBy {s : State} (hs : s.segs.Sorted) {p : Party} {i : Nat} :
    i ∈ s.frozenBy p ↔ ∃ k, (s.seg i).hold = .frozen p k :=
  (State.mem_segsWhere hs rfl).trans (SegDyn.frozenBy_iff _ _)

theorem SegDyn.mayRecover_iff (r : SegDyn) (p : Party) :
    (r.isFree || r.frozenBy p) = true ↔ r.hold = .free ∨ ∃ k, r.hold = .frozen p k := by
  rw [Bool.or_eq_true, r.isFree_iff, r.frozenBy_iff]

theorem SegDyn.mayNotRecover_iff (r : SegDyn) (p : Party) :
    (r.isFree || r.frozenBy p) = false ↔ r.hold ≠ .free ∧ ∀ k, r.hold ≠ .frozen p k := by
  rw [← Bool.not_eq_true, r.mayRecover_iff, not_or, not_exists]

variable {u : State} {c : Nat} {r : Carrier}

theorem Work.carrier?_onCarrier (w : Work) (c d : Nat) (f : Carrier → Carrier) : (w.onCarrier c f).s.carrier? d =
    if d = c then (w.s.carrier? d).map f else w.s.carrier? d := State.carrier?_onCarrier c d f

/-! ## RELEASE_FROZEN -/

/-- A LOST carrier's frozen segments, route and marks go, and it is OFFLINE (R71). -/
def releasedOffline (u : State) (c : Nat) : Work :=
  (((Work.start u none).release (u.frozenBy (.carrier c))).unrouted c).changeState c .offline []

theorem seg_released (i : Nat) : ((Work.start u none).release (u.frozenBy (.carrier c))).s.seg i =
    { u.seg i with hold := if i ∈ u.frozenBy (.carrier c) then .free else (u.seg i).hold } := by
  refine (Work.seg_onSegs _ _ _ Work.release_idem i).trans ?_
  split <;> rfl

theorem released_effect (u : State) (c : Nat) : Work.Effect [.segs] (fun _ => False) [] (Work.start u none)
    ((Work.start u none).release (u.frozenBy (.carrier c))) := Work.onSegs_effect _ _ Work.release_idem

theorem seg_releasedUnrouted (hs : u.segs.Sorted) (i : Nat) :
    (((Work.start u none).release (u.frozenBy (.carrier c))).unrouted c).s.seg i = { u.seg i with
      hold := if i ∈ u.frozenBy (.carrier c) then .free else (u.seg i).hold
      intruder := if (u.seg i).intruder = some (.carrier c) then none else (u.seg i).intruder } := by
  have hsorted : ((Work.start u none).release (u.frozenBy (.carrier c))).s.segs.Sorted := Work.onSegs_sorted hs _ _
  rw [Work.seg_unrouted hsorted, seg_released]

section
variable (hr : u.carrier? c = some r)
include hr

theorem carrier?_releasedUnrouted (d : Nat) :
    (((Work.start u none).release (u.frozenBy (.carrier c))).unrouted c).s.carrier? d =
      if d = c then some { r with
        auth := { r.auth with endPos := if (u.route? c).isSome then none else r.auth.endPos } }
      else u.carrier? d := by
  have hrel := (released_effect u c).only
  rw [Work.carrier?_unrouted ((hrel.carrier? (by decide) c).trans hr), hrel.route? (by decide),
    hrel.carrier? (by decide)]
  rfl

theorem releasedOffline_effect (hs : u.segs.Sorted) (hlost : r.state = .lost) :
    Work.Effect [.segs, .routes, .carriers, .dispatch] (fun d => d = c)
      [⟨.carrierState, u.now, .carrier c, [.byte 6, .byte 0]⟩] (Work.start u none) (releasedOffline u c) := by
  have hunrouted := (released_effect u c).trans (Work.unrouted_effect _ c) fun i =>
    .of_hold_intruder ⟨_, seg_released i⟩ ⟨_, Work.seg_unrouted (Work.onSegs_sorted hs _ _) i⟩
  have hchange := Work.changeState_stays ((carrier?_releasedUnrouted hr c).trans (if_pos rfl)) .offline []
    (by simp [CarrierState.leaves, hlost])
  rw [hunrouted.only.now] at hchange
  refine (hunrouted.aside hchange).said (by decide) (fun d => by tauto) ?_
  rw [hlost]
  rfl

end

/-- RELEASE_FROZEN of a LOST carrier (R45, R71). -/
theorem releaseFrozen_accepted {s : State} {l : DLink} {freed : List Nat} (hu : u = s.taken l) (hroom : s.hasRoom l)
    (hs : u.segs.Sorted) (hm : u.mode ≠ .config) (hr : u.carrier? c = some r) (hlost : r.state = .lost)
    (hfreed : ∀ i, i ∈ freed ↔ ∃ k, (u.seg i).hold = .frozen (.carrier c) k) (hnodup : freed.Nodup) :
    ∃ w : Work,
      exec (.releaseFrozen l c) s =
        .next (w.finish.answered l ⟨0x31, .accepted, .none_, false, [.byte freed.length]⟩) ∧
      (Work.start u none).Grown w (fun d => d = c) ∧
      w.s.carrier? c = some { Carrier.fresh (u.classVals (u.classOf c)) with earlyCount := r.earlyCount } ∧
      w.s.route? c = none ∧ (∀ d, d ≠ c → w.s.carrier? d = u.carrier? d ∧ w.s.route? d = u.route? d) ∧
      (∀ i, w.s.seg i = { u.seg i with
        hold := if i ∈ freed then .free else (u.seg i).hold
        intruder := if (u.seg i).intruder = some (.carrier c) then none else (u.seg i).intruder }) ∧
      (∀ m, w.s.dlink m =
        (u.dlink m).offers u.now [⟨.carrierState, u.now, .carrier c, [.byte 6, .byte 0]⟩]) ∧
      w.s = { u with segs := w.s.segs, routes := w.s.routes, carriers := w.s.carriers, dispatch := w.s.dispatch } ∧
      (w.reexam = true ↔ ∃ i, i ∈ freed ∨ (u.seg i).intruder = some (.carrier c)) := by
  let v := u.classVals (u.classOf c)
  let w := (releasedOffline u c).onCarrier c (Carrier.renewed v)
  have hrenew := (releasedOffline u c).onCarrier_effect c (Carrier.renewed v)
  have heffect := ((releasedOffline_effect hr hs hlost).aside hrenew).said
    (G := [.segs, .routes, .carriers, .dispatch]) (m := fun d => d = c) (by decide) (fun d => by simp) rfl
  have hunrouted := carrier?_releasedUnrouted hr
  have hchange := (Work.changeState_effect _ ((hunrouted c).trans (if_pos rfl)) .offline []).only
  have hmem : ∀ i, i ∈ u.frozenBy (.carrier c) ↔ i ∈ freed := fun i => (State.mem_frozenBy hs).trans (hfreed i).symm
  have hseg : ∀ i, w.s.seg i = { u.seg i with
      hold := if i ∈ freed then .free else (u.seg i).hold
      intruder := if (u.seg i).intruder = some (.carrier c) then none else (u.seg i).intruder } := fun i => by
    refine (hrenew.only.seg (by decide) i).trans ((hchange.seg (by decide) i).trans ?_)
    rw [seg_releasedUnrouted hs, if_congr (hmem i) rfl rfl]
  have hcarrier : ∀ d, w.s.carrier? d = if d = c then some { Carrier.fresh v with earlyCount := r.earlyCount }
      else u.carrier? d := fun d => by
    refine (State.carrier?_onCarrier _ _ _).trans ?_
    rw [releasedOffline, Work.carrier?_changeState, hunrouted]
    by_cases hd : d = c
    · simp only [if_pos hd]
      rfl
    · simp only [if_neg hd]
  have hroute : ∀ d, w.s.route? d = if d = c then none else u.route? d := fun d => by
    refine (hrenew.only.route? (by decide) d).trans ((hchange.route? (by decide) d).trans ?_)
    rw [Work.route?_unrouted, (released_effect u c).only.route? (by decide)]
    rfl
  have howner : ownReleaseFrozen c u = (w.finish, ⟨0x31, .accepted, .none_, false, [.byte freed.length]⟩) := by
    have hlength : (u.frozenBy (.carrier c)).length = freed.length :=
      length_eq_of_mem_iff (Table.nodup_keysWhere hs _) hnodup hmem
    unfold ownReleaseFrozen
    rw [State.recoverable_ok hm hr]
    dsimp only
    rw [if_neg (not_not.2 hlost), hlength]
    rfl
  refine ⟨w, next_takeRequest hu hroom howner, heffect.grown, (hcarrier c).trans (if_pos rfl),
    (hroute c).trans (if_pos rfl), fun d hd => ⟨(hcarrier d).trans (if_neg hd), (hroute d).trans (if_neg hd)⟩, hseg,
    heffect.posts, heffect.only.eq, ?_⟩
  refine (heffect.reexam_iff.trans (or_iff_right Bool.false_ne_true)).trans (exists_congr fun i => ?_)
  rw [hseg]
  refine (SegDyn.callsFor_hold_intruder _ _ _).trans (or_congr ?_ (SegDyn.unmarked_iff _ _))
  by_cases hi : i ∈ freed
  · obtain ⟨k, hk⟩ := (hfreed i).1 hi
    simp [hi, Work.start, hk]
  · simp [hi, Work.start]

/-! ## RECOVER_CARRIER -/

theorem Work.applyClass_effect (w : Work) (c : Nat) : Work.Effect [.carriers] (fun _ => False) [] w (w.applyClass c) :=
  w.onCarrier_effect c fun r => { r with applied := w.s.classVals (w.s.classOf c) }

/-- A LOST carrier's ground is settled, its route and marks go, and it is IDLE with the values of its class (R70). -/
def recoveredIdle (u : State) (c : Nat) (ground : List Nat) : Work :=
  ((((Work.start u none).settleStanding c ground).unrouted c).applyClass c).changeState c .idle []

theorem seg_settledUnrouted (hs : u.segs.Sorted) (ground : List Nat) (i : Nat) :
    (((Work.start u none).settleStanding c ground).unrouted c).s.seg i =
    { u.seg i with
      hold := if i ∈ ground then .held (.carrier c) .standing
        else if (u.seg i).holder = some (.carrier c) then .free else (u.seg i).hold
      intruder := if (u.seg i).intruder = some (.carrier c) then none else (u.seg i).intruder } := by
  rw [Work.seg_unrouted (Work.settleStanding_sorted hs c ground), Work.seg_settleStanding hs]
  rfl

section
variable (hr : u.carrier? c = some r) (ground : List Nat)
include hr

theorem carrier?_settledApplied (d : Nat) :
    ((((Work.start u none).settleStanding c ground).unrouted c).applyClass c).s.carrier? d =
      if d = c then some { r with
        applied := u.classVals (u.classOf c)
        auth := { r.auth with endPos := if (u.route? c).isSome then none else r.auth.endPos } }
      else u.carrier? d := by
  have hsettle := ((Work.start u none).settleStanding_effect c ground).only
  have hunrouted := (Work.unrouted_effect ((Work.start u none).settleStanding c ground) c).only
  refine (State.carrier?_onCarrier _ _ _).trans ?_
  rw [Work.carrier?_unrouted (carrier?_settled hr ground), hsettle.route? (by decide), hsettle.carrier? (by decide)]
  have hclass : (((Work.start u none).settleStanding c ground).unrouted c).s.classVals
      ((((Work.start u none).settleStanding c ground).unrouted c).s.classOf c) = u.classVals (u.classOf c) := by
    unfold State.classVals State.classOf
    rw [hunrouted.cfg, hsettle.cfg]
    rfl
  by_cases hd : d = c
  · simp only [if_pos hd, hclass]
    rfl
  · simp only [if_neg hd]
    rfl

theorem recoveredIdle_effect (hs : u.segs.Sorted) (hlost : r.state = .lost) :
    Work.Effect [.segs, .routes, .carriers, .dispatch] (fun d => d = c)
      [⟨.carrierState, u.now, .carrier c, [.byte 6, .byte 2]⟩] (Work.start u none) (recoveredIdle u c ground) := by
  have hsettle := (Work.start u none).settleStanding_effect c ground
  have hunrouted := hsettle.trans (Work.unrouted_effect _ c) fun i =>
    .of_hold_intruder ⟨_, Work.seg_settleStanding hs ground i⟩
      ⟨_, Work.seg_unrouted (Work.settleStanding_sorted hs c ground) i⟩
  have happly := hunrouted.aside (Work.applyClass_effect _ c)
  have hchange := Work.changeState_stays ((carrier?_settledApplied hr ground c).trans (if_pos rfl)) .idle []
    (by simp [CarrierState.leaves])
  rw [happly.only.now] at hchange
  refine (happly.aside hchange).said (by decide) (fun d => by tauto) ?_
  rw [hlost]
  rfl

theorem recoveredIdle_only : State.Only [.carriers, .waiting, .dispatch]
    (((Work.start u none).settleStanding c ground).unrouted c).s (recoveredIdle u c ground).s := by
  have happly := (Work.applyClass_effect (((Work.start u none).settleStanding c ground).unrouted c) c).only
  have hchange := (Work.changeState_effect _ ((carrier?_settledApplied hr ground c).trans (if_pos rfl)) .idle []).only
  exact (happly.trans hchange).mono (by decide)

theorem route?_recoveredIdle (d : Nat) :
    (recoveredIdle u c ground).s.route? d = if d = c then none else u.route? d := by
  rw [(recoveredIdle_only hr ground).route? (by decide), Work.route?_unrouted,
    ((Work.start u none).settleStanding_effect c ground).only.route? (by decide)]
  rfl

theorem carrier?_recoveredIdle (d : Nat) : (recoveredIdle u c ground).s.carrier? d =
    if d = c then some { r with
      state := .idle, applied := u.classVals (u.classOf c)
      auth := { r.auth with endPos := if (u.route? c).isSome then none else r.auth.endPos } }
    else u.carrier? d := by
  rw [recoveredIdle, Work.carrier?_changeState, carrier?_settledApplied hr]
  by_cases hd : d = c
  · simp only [if_pos hd]
    rfl
  · simp only [if_neg hd]

end

/-- RECOVER_CARRIER of a LOST carrier that was sighted at rest on ground that is free or frozen under it (R45, R70). -/
theorem recoverCarrier_accepted {s : State} {l : DLink} {f b n : Nat} {g : Sighting} {v : ClassVals}
    {ground freed : List Nat} (hu : u = s.taken l) (hroom : s.hasRoom l) (hs : u.segs.Sorted) (hm : u.mode ≠ .config)
    (hr : u.carrier? c = some r) (hlost : r.state = .lost) (hg : r.sighting = some g) (hspeed : g.speed = 0)
    (hfault : g.flags.fault = false) (hfront : g.front = some f) (hrear : g.rear = some b)
    (hn : n = u.grid.lanes * u.grid.bays) (hf : f < n) (hb : b < n)
    (hground : ground = (if f = b then [f] else [f, b]))
    (hmay : ∀ i ∈ ground, (u.seg i).hold = .free ∨ ∃ k, (u.seg i).hold = .frozen (.carrier c) k)
    (hfreed : ∀ i, i ∈ freed ↔ i ∉ ground ∧ ∃ k, (u.seg i).hold = .frozen (.carrier c) k) (hnodup : freed.Nodup)
    (hv : v = u.classVals (u.classOf c)) :
    ∃ w : Work,
      exec (.recoverCarrier l c) s = .next (w.finish.answered l ⟨0x30, .accepted, .none_, false,
        .byte ground.length :: ground.map Val.half ++ [.byte freed.length]⟩) ∧
      Work.Grown { Work.start u none with settled := [c] } w (fun d => d = c) ∧
      w.s.carrier? c = some { r with
        state := .idle, front := g.front, frontRem := g.frontRem, rear := g.rear, speed := g.speed, flags := g.flags
        sighting := none, lostSince := none, applied := v
        timer := some (max (v.period - (u.now - g.time).toNat) (v.period * v.window / 100))
        auth := { r.auth with endPos := if (u.route? c).isSome then none else r.auth.endPos } } ∧
      w.s.route? c = none ∧ (∀ d, d ≠ c → w.s.carrier? d = u.carrier? d ∧ w.s.route? d = u.route? d) ∧
      (∀ i, w.s.seg i = { u.seg i with
        hold := if i ∈ ground then .held (.carrier c) .standing
          else if (u.seg i).holder = some (.carrier c) then .free else (u.seg i).hold
        intruder := if (u.seg i).intruder = some (.carrier c) then none else (u.seg i).intruder }) ∧
      (∀ m, w.s.dlink m =
        (u.dlink m).offers u.now [⟨.carrierState, u.now, .carrier c, [.byte 6, .byte 2]⟩]) ∧
      w.s = { u with segs := w.s.segs, routes := w.s.routes, carriers := w.s.carriers, dispatch := w.s.dispatch } ∧
      (w.reexam = true ↔ ∃ i, (i ∉ ground ∧ (u.seg i).holder = some (.carrier c)) ∨
        (u.seg i).intruder = some (.carrier c)) := by
  subst hn
  have hgroundOf : groundOf g.front g.rear = ground := by rw [hfront, hrear, hground]; rfl
  obtain ⟨x, hx⟩ : ∃ x, x = (recoveredIdle u c ground).onCarrier c (fun r => r.recovered g u.now) := ⟨_, rfl⟩
  obtain ⟨w, hw, hws⟩ : ∃ w : Work, w = { x with settled := c :: x.settled } ∧ w.s = x.s := ⟨_, rfl, rfl⟩
  have hrecover : Work.Effect [.carriers] (fun _ => False) [] (recoveredIdle u c ground) x :=
    hx ▸ Work.onCarrier_effect _ _ _
  have heffect := (((recoveredIdle_effect hr ground hs hlost).aside hrecover).said
    (G := [.segs, .routes, .carriers, .dispatch]) (m := fun d => d = c) (by decide) (fun d => by simp) rfl).settle c
  rw [← hw] at heffect
  have hseg : ∀ i, w.s.seg i = { u.seg i with
      hold := if i ∈ ground then .held (.carrier c) .standing
        else if (u.seg i).holder = some (.carrier c) then .free else (u.seg i).hold
      intruder := if (u.seg i).intruder = some (.carrier c) then none else (u.seg i).intruder } := fun i => by
    rw [hws, hrecover.only.seg (by decide), (recoveredIdle_only hr ground).seg (by decide),
      seg_settledUnrouted hs ground]
  have hroute : ∀ d, w.s.route? d = if d = c then none else u.route? d := fun d => by
    rw [hws, hrecover.only.route? (by decide), route?_recoveredIdle hr ground]
  have hread : ∀ d, x.s.carrier? d = if d = c then ((recoveredIdle u c ground).s.carrier? d).map
      (fun r => r.recovered g u.now) else (recoveredIdle u c ground).s.carrier? d := fun d => by
    rw [hx, Work.carrier?_onCarrier]
  have hothers : ∀ d, d ≠ c → w.s.carrier? d = u.carrier? d := fun d hd => by
    rw [hws, hread, if_neg hd, carrier?_recoveredIdle hr, if_neg hd]
  have howner : ownRecover c u = (w.finish, ⟨0x30, .accepted, .none_, false,
      .byte ground.length :: ground.map Val.half ++ [.byte freed.length]⟩) := by
    have hlength := length_eq_of_mem_iff (l := (u.frozenBy (.carrier c)).filter (fun i => !(ground.contains i)))
      ((Table.nodup_keysWhere hs _).filter _) hnodup fun i => by
        rw [hfreed, List.mem_filter, State.mem_frozenBy hs, and_comm]
        simp
    have hinside : u.grid.firstOutside [g.front, g.rear] = none := by
      simp [Grid.firstOutside, hfront, hrear, Grid.inside_iff, hf, hb]
    unfold ownRecover
    rw [State.recoverable_ok hm hr]
    dsimp only
    rw [if_neg (not_not.2 hlost), hg]
    dsimp only
    rw [if_neg (by simp [hspeed, hfault]), hinside]
    dsimp only
    rw [hgroundOf, State.firstHeldAgainst_none fun i hi => (SegDyn.mayRecover_iff _ _).2 (hmay i hi)]
    dsimp only
    rw [hlength, hw, hx]
    rfl
  refine ⟨w, next_takeRequest hu hroom howner, heffect.grown, ?_, (hroute c).trans (if_pos rfl),
    fun d hd => ⟨hothers d hd, (hroute d).trans (if_neg hd)⟩, hseg, heffect.posts, heffect.only.eq, ?_⟩
  · rw [hws, hread, if_pos rfl, carrier?_recoveredIdle hr, if_pos rfl, ← hv]
    rfl
  · refine (heffect.reexam_iff.trans (or_iff_right Bool.false_ne_true)).trans (exists_congr fun i => ?_)
    refine (iff_of_eq (congrArg (fun y => SegDyn.callsFor (u.seg i) y = true) (hseg i))).trans ?_
    exact (SegDyn.callsFor_hold_intruder _ _ _).trans (or_congr (SegDyn.settled_iff _ _ _) (SegDyn.unmarked_iff _ _))

/-! ## The checks that refuse -/

/-- The checks of RECOVER_CARRIER beside the mode and the roster (R70). -/
def State.recoverTests (u : State) (c n : Nat) : List (Reason × (List Val → Prop)) := [
  (.badCarrierState, fun d => ∃ r, u.carrier? c = some r ∧ r.state ≠ .lost ∧ d = [.byte r.state.code]),
  (.noSighting, fun d => ∃ r, u.carrier? c = some r ∧ r.sighting = none ∧ d = []),
  (.moving, fun d => ∃ r g, u.carrier? c = some r ∧ r.sighting = some g ∧ (0 < g.speed ∨ g.flags.fault = true) ∧
    d = [.half g.speed, .byte g.flags.code]),
  (.badSegment, fun d => ∃ r g, u.carrier? c = some r ∧ r.sighting = some g ∧
    n ≤ g.front.getD 65535 ∧ d = [.half (g.front.getD 65535)]),
  (.badSegment, fun d => ∃ r g, u.carrier? c = some r ∧ r.sighting = some g ∧
    n ≤ g.rear.getD 65535 ∧ d = [.half (g.rear.getD 65535)]),
  (.conflict, fun d => ∃ r g i, u.carrier? c = some r ∧ r.sighting = some g ∧ g.front = some i ∧
    (u.seg i).hold ≠ .free ∧ (∀ k, (u.seg i).hold ≠ .frozen (.carrier c) k) ∧
    d = .half i :: partyVals (u.seg i).holder),
  (.conflict, fun d => ∃ r g i, u.carrier? c = some r ∧ r.sighting = some g ∧ g.rear = some i ∧
    (u.seg i).hold ≠ .free ∧ (∀ k, (u.seg i).hold ≠ .frozen (.carrier c) k) ∧
    d = .half i :: partyVals (u.seg i).holder)]

/-- An id that is NONE lies outside the grid as one that is too high does (R70). -/
def Grid.outside (g : Grid) (o : Option Nat) : Bool :=
  match o with
  | some x => !g.inside x
  | none => true

theorem Grid.outside_iff {g : Grid} (hn : g.lanes * g.bays ≤ 65535) (o : Option Nat) :
    g.outside o = true ↔ g.lanes * g.bays ≤ o.getD 65535 := by
  cases o with
  | none => simpa [Grid.outside] using hn
  | some x => simp [Grid.outside, ← Bool.not_eq_true, Grid.inside_iff]

theorem Grid.firstOutside_eq (g : Grid) (ids : List (Option Nat)) : g.firstOutside ids = ids.find? g.outside := rfl

theorem Grid.firstOutside_front {g : Grid} (hn : g.lanes * g.bays ≤ 65535) {front rear : Option Nat}
    (h : g.lanes * g.bays ≤ front.getD 65535) : g.firstOutside [front, rear] = some front := by
  rw [Grid.firstOutside_eq, List.find?_cons_of_pos ((Grid.outside_iff hn front).2 h)]

theorem Grid.firstOutside_rear {g : Grid} (hn : g.lanes * g.bays ≤ 65535) {front rear : Option Nat}
    (hf : ¬ g.lanes * g.bays ≤ front.getD 65535) :
    g.firstOutside [front, rear] = if g.lanes * g.bays ≤ rear.getD 65535 then some rear else none := by
  rw [Grid.firstOutside_eq, List.find?_cons_of_neg (mt (Grid.outside_iff hn front).1 hf)]
  split
  · next h => rw [List.find?_cons_of_pos ((Grid.outside_iff hn rear).2 h)]
  · next h => rw [List.find?_cons_of_neg (mt (Grid.outside_iff hn rear).1 h), List.find?_nil]

theorem ownRecover_refused (hn : u.grid.lanes * u.grid.bays ≤ 65535) (hm : u.mode ≠ .config)
    (hr : u.carrier? c = some r) {why : Reason} {detail : List Val}
    (h : FirstFails (u.recoverTests c (u.grid.lanes * u.grid.bays)) why detail) :
    ownRecover c u = (u, ⟨0x30, .refused, why, false, detail⟩) := by
  unfold ownRecover
  rw [State.recoverable_ok hm hr]
  dsimp only
  rcases h with ⟨rfl, x, hx, hs, rfl⟩ | ⟨hlost, h⟩
  · obtain rfl := Option.some.inj (hr.symm.trans hx)
    exact if_pos hs
  rw [if_neg fun h => hlost _ ⟨r, hr, h, rfl⟩]
  rcases h with ⟨rfl, x, hx, hg, rfl⟩ | ⟨hnone, h⟩
  · obtain rfl := Option.some.inj (hr.symm.trans hx)
    rw [hg]
    rfl
  obtain ⟨g, hg⟩ := Option.ne_none_iff_exists'.1 fun h => hnone _ ⟨r, hr, h, rfl⟩
  have huniq : ∀ {x : Carrier} {y : Sighting}, u.carrier? c = some x → x.sighting = some y → y = g := fun hx hy => by
    obtain rfl := Option.some.inj (hr.symm.trans hx)
    exact Option.some.inj (hy.symm.trans hg)
  rw [hg]
  dsimp only
  rcases h with ⟨rfl, x, y, hx, hy, hmoving, rfl⟩ | ⟨hrest, h⟩
  · obtain rfl := huniq hx hy
    exact if_pos hmoving
  rw [if_neg fun h => hrest _ ⟨r, g, hr, hg, h, rfl⟩]
  rcases h with ⟨rfl, x, y, hx, hy, hf, rfl⟩ | ⟨hfront, h⟩
  · obtain rfl := huniq hx hy
    rw [Grid.firstOutside_front hn hf]
    rfl
  have hfin := fun h => hfront _ ⟨r, g, hr, hg, h, rfl⟩
  rcases h with ⟨rfl, x, y, hx, hy, hb, rfl⟩ | ⟨hrear, h⟩
  · obtain rfl := huniq hx hy
    rw [Grid.firstOutside_rear hn hfin, if_pos hb]
    rfl
  rw [Grid.firstOutside_rear hn hfin, if_neg fun h => hrear _ ⟨r, g, hr, hg, h, rfl⟩]
  dsimp only
  rcases h with ⟨rfl, x, y, i, hx, hy, hi, hfree, hown, rfl⟩ | ⟨hconflict, h⟩
  · obtain rfl := huniq hx hy
    rw [State.firstHeldAgainst_front hi ((SegDyn.mayNotRecover_iff _ _).2 ⟨hfree, hown⟩)]
    rfl
  rcases h with ⟨rfl, x, y, i, hx, hy, hi, hfree, hown, rfl⟩ | h
  · obtain rfl := huniq hx hy
    rw [State.firstHeldAgainst_rear (fun j hj => ?_) hi ((SegDyn.mayNotRecover_iff _ _).2 ⟨hfree, hown⟩)]
    · rfl
    · by_contra hno
      obtain ⟨hfree, hown⟩ := (SegDyn.mayNotRecover_iff _ _).1 (Bool.eq_false_iff.2 hno)
      exact hconflict _ ⟨r, y, j, hr, hg, hj, hfree, hown, rfl⟩
  · exact h.2.elim

/-- Settles O30. -/
theorem lostCarriers : Obligations.LostCarriers := by
  unfold Obligations.LostCarriers
  refine ⟨fun s u l c f b n r g v ground freed hu hroom hs hm hr hlost hg hspeed hfault hfront hrear hn hf hb hground
    hmay hfreed hnodup hv => recoverCarrier_accepted hu hroom hs hm hr hlost hg hspeed hfault hfront hrear hn hf hb
      hground hmay hfreed hnodup hv,
    fun s u l c r freed hu hroom hs hm hr hlost hfreed hnodup =>
      releaseFrozen_accepted hu hroom hs hm hr hlost hfreed hnodup,
    fun s u l c n hu hroom hn => ⟨fun why detail h hle => ?_, fun why detail h => ?_⟩⟩
  · subst hn
    have hsplit : FirstFails (u.recoveryTests c ++ u.recoverTests c (u.grid.lanes * u.grid.bays)) why detail := h
    rw [firstFails_append] at hsplit
    rcases hsplit with hrec | ⟨hpass, htests⟩
    · have howner : ownRecover c u = (u, ⟨0x30, .refused, why, false, detail⟩) := by
        unfold ownRecover
        rw [State.recoverable_refused hrec]
        rfl
      exact next_takeRequest hu hroom howner
    · obtain ⟨hm, r, hr⟩ := State.recoveryTests_pass hpass
      exact next_takeRequest hu hroom (ownRecover_refused hle hm hr htests)
  · have hsplit : FirstFails (u.recoveryTests c ++ [(.badCarrierState, fun d =>
        ∃ r, u.carrier? c = some r ∧ r.state ≠ .lost ∧ d = [])]) why detail := h
    rw [firstFails_append] at hsplit
    rcases hsplit with hrec | ⟨hpass, htests⟩
    · have howner : ownReleaseFrozen c u = (u, ⟨0x31, .refused, why, false, detail⟩) := by
        unfold ownReleaseFrozen
        rw [State.recoverable_refused hrec]
        rfl
      exact next_takeRequest hu hroom howner
    · obtain ⟨hm, -⟩ := State.recoveryTests_pass hpass
      rcases htests with ⟨rfl, r, hr, hlost, rfl⟩ | h
      · have howner : ownReleaseFrozen c u = (u, ⟨0x31, .refused, .badCarrierState, false, []⟩) := by
          unfold ownReleaseFrozen
          rw [State.recoverable_ok hm hr]
          exact if_pos hlost
        exact next_takeRequest hu hroom howner
      · exact h.2.elim

end Sys2Proof.Machine
end

section
/-! DEREGISTER_CARRIER (R33, R36, R48, R126). -/

namespace Sys2Proof.Machine

variable {u : State} {c : Nat} {r : Carrier}

theorem State.nodup_standing {s : State} (hs : s.segs.Sorted) {c : Nat} {r : Carrier} (hr : s.carrier? c = some r) :
    (s.standing c).Nodup := by
  have hids : (s.standingIds c).Nodup := Table.nodup_keysWhere hs _
  rcases s.standing_cases hr with ⟨f, -, hf, heq⟩ | ⟨-, heq⟩
  · rw [heq]
    exact (List.perm_cons_erase hf).nodup_iff.1 hids
  · exact heq ▸ hids

theorem Work.release_effect (w : Work) (ids : List Nat) : Work.Effect [.segs] (fun _ => False) [] w (w.release ids) :=
  w.onSegs_effect ids Work.release_idem

theorem Work.seg_release (w : Work) (ids : List Nat) (i : Nat) :
    (w.release ids).s.seg i = if i ∈ ids then { w.s.seg i with hold := .free } else w.s.seg i :=
  w.seg_onSegs ids _ Work.release_idem i

/-! ## The authority run of a carrier being deregistered (R76, R81) -/

/-- The links that the routing of an authority names (R76, R127). -/
theorem State.mem_authorityLinks_iff (s : State) (f : Authority) (st : CarrierState) {k : Nat} (hk : k < 4) :
    k ∈ s.authorityLinks f st ↔ (s.radio k).state = .up ∧
      (((f.command = .stopNow ∨ f.command = .emergency) ∧ (st = .missing ∨ st = .lost)) ∨
        s.learning.get? f.carrier = none ∨ ∃ x, s.learning.get? f.carrier = some x ∧ x.link = k) := by
  have hbroad : (f.command.urgent && (decide (st = .missing) || decide (st = .lost))) = true ↔
      (f.command = .stopNow ∨ f.command = .emergency) ∧ (st = .missing ∨ st = .lost) := by
    rw [Bool.and_eq_true, Bool.or_eq_true, decide_eq_true_iff, decide_eq_true_iff, Command.urgent_iff]
  unfold State.authorityLinks
  by_cases hb : (f.command = .stopNow ∨ f.command = .emergency) ∧ (st = .missing ∨ st = .lost)
  · rw [if_pos (hbroad.2 hb), mem_upLinks_iff]
    simp [hk, hb]
  · rw [if_neg (mt hbroad.1 hb), or_iff_right hb]
    cases s.learning.get? f.carrier with
    | none => simp [mem_upLinks_iff, hk]
    | some x => simp [mem_upLinks_iff, hk, eq_comm]

theorem State.nodup_authorityLinks (s : State) (f : Authority) (st : CarrierState) : (s.authorityLinks f st).Nodup := by
  unfold State.authorityLinks
  split
  · exact nodup_upLinks s
  · split
    · exact (nodup_upLinks s).filter _
    · exact nodup_upLinks s

/-- An authority joins the queues of the links that its routing names, and of no other. -/
theorem State.radio_routeAuthority (s : State) (f : Authority) (st : CarrierState) (k : Nat) :
    (s.routeAuthority f st).radio k =
      if k ∈ s.authorityLinks f st then ((s.radio k).join f).transmit else s.radio k :=
  (State.foldl_offerAuthority f (s.nodup_authorityLinks f st) s).2 k

theorem State.routeAuthority_only (s : State) (f : Authority) (st : CarrierState) :
    State.Only [.radios] s (s.routeAuthority f st) :=
  .of_eq (State.foldl_offerAuthority f (s.nodup_authorityLinks f st) s).1

/-- The frame of a carrier being deregistered: STOP_NOW, with its end of authority as the only upcoming segment. -/
def State.leavingFrame (u : State) (c : Nat) (r : Carrier) : Authority :=
  ⟨c, r.lastSeq, u.version c, .stopNow, (u.endPoint c r true).seg, (u.endPoint c r true).off, 0,
    [(u.endPoint c r true).seg]⟩

section
variable (hr : u.carrier? c = some r) (hidle : r.state = .idle)
include hr hidle

theorem leavingRun_eq : (Work.start u none).authorityRun c true =
    ((Work.start u none).on (fun s => s.routeAuthority (u.leavingFrame c r) .idle)).onCarrier c (fun x => { x with
      auth := x.auth.record u.now x.applied false (u.leavingFrame c r) (u.endPoint c r true).pos }) := by
  have hcut : (Work.start u none).cutBack c r (u.endPoint c r true) = Work.start u none := by
    unfold Work.cutBack
    rw [hidle]
  have hframe : u.authorityFrame c r true (u.endPoint c r true) = u.leavingFrame c r := by
    unfold State.authorityFrame State.commandOf State.upcomingOf State.leavingFrame
    rw [hidle]
    rfl
  have hread : (Work.start u none).s.carrier? c = some r := hr
  unfold Work.authorityRun
  simp only [Work.start, reduceCtorEq, if_false] at hcut hread ⊢
  rw [hread]
  dsimp only
  rw [hcut, hframe, hidle]
  rfl

theorem leavingRun_effect :
    Work.Effect [.radios, .carriers] (fun _ => False) [] (Work.start u none)
      ((Work.start u none).authorityRun c true) := by
  rw [leavingRun_eq hr hidle]
  exact (((Work.start u none).on_effect [.radios] (f := fun s => s.routeAuthority (u.leavingFrame c r) .idle)
    (u.routeAuthority_only (u.leavingFrame c r) .idle)).aside
    (Work.onCarrier_effect _ c _)).said (by decide) (fun _ => by simp) rfl

theorem radio_leavingRun (k : Nat) : ((Work.start u none).authorityRun c true).s.radio k =
    if k ∈ u.authorityLinks (u.leavingFrame c r) .idle then ((u.radio k).join (u.leavingFrame c r)).transmit
    else u.radio k := by
  rw [leavingRun_eq hr hidle]
  exact (State.radio_onCarrier _ _ _ _).trans (State.radio_routeAuthority u _ _ k)

theorem carrier?_leavingRun {d : Nat} (hd : d ≠ c) :
    ((Work.start u none).authorityRun c true).s.carrier? d = u.carrier? d := by
  rw [leavingRun_eq hr hidle, Work.carrier?_onCarrier, if_neg hd]
  exact (u.routeAuthority_only (u.leavingFrame c r) .idle).carrier? (by decide) d

/-! ## The ground and the pending entry of an IDLE carrier that leaves -/

/-- An IDLE carrier's last run is done, its standing segments are free and its pending entry is gone (R48). -/
def vacated (u : State) (c : Nat) : Work :=
  (((Work.start u none).authorityRun c true).release (u.standing c)).dropStale c .deregistered

theorem vacated_effect : Work.Effect [.segs, .waiting, .carriers, .radios, .dispatch] (fun _ => False)
    (u.staleEntries c .deregistered) (Work.start u none) (vacated u c) := by
  have hrun := leavingRun_effect hr hidle
  have hrelease := ((Work.start u none).authorityRun c true).release_effect (u.standing c)
  have hfree := hrun.first hrelease
  have hstale := Work.dropStale_effect (((Work.start u none).authorityRun c true).release (u.standing c)) c .deregistered
  rw [State.staleEntries_congr (hfree.only.waiting (by decide)) hfree.only.now] at hstale
  exact (hfree.aside hstale).said (by decide) (fun _ => by simp) rfl

theorem seg_vacated (i : Nat) : (vacated u c).s.seg i =
    if i ∈ u.standing c then { u.seg i with hold := .free } else u.seg i := by
  rw [vacated, (Work.dropStale_effect _ c .deregistered).only.seg (by decide), Work.seg_release,
    (leavingRun_effect hr hidle).only.seg (by decide)]
  rfl

theorem waiting_vacated : (vacated u c).s.waiting = u.waiting.filter (fun e => decide (e.carrier ≠ c)) := by
  rw [vacated, Work.waiting_dropStale, (Work.release_effect _ _).only.waiting (by decide),
    (leavingRun_effect hr hidle).only.waiting (by decide)]
  rfl

theorem carrier?_vacated {d : Nat} (hd : d ≠ c) : (vacated u c).s.carrier? d = u.carrier? d := by
  rw [vacated, (Work.dropStale_effect _ c .deregistered).only.carrier? (by decide),
    (Work.release_effect _ _).only.carrier? (by decide), carrier?_leavingRun hr hidle hd]

end

theorem radios_vacated (u : State) (c : Nat) :
    (vacated u c).s.radios = ((Work.start u none).authorityRun c true).s.radios := by
  rw [vacated, (Work.dropStale_effect _ c .deregistered).only.radios (by decide),
    (Work.release_effect _ _).only.radios (by decide)]

/-! ## The carrier leaves the roster -/

section
variable (w : Work) (c) (st : CarrierState)

theorem discard_grown {w v : Work} {n : Nat → Prop} (h : v.Grown w n) : v.Grown (w.discard c st) n :=
  ⟨h.before, h.touched, h.runs, h.bumped, h.settled, h.report⟩

theorem carrier?_discard (d : Nat) : (w.discard c st).s.carrier? d = if d = c then none else w.s.carrier? d :=
  Table.get?_del _ _ _

theorem dlink_discard (m : DLink) : (w.discard c st).s.dlink m = (w.s.dlink m).offers w.s.now
    [⟨.carrierState, w.s.now, .carrier c, [.byte st.code, .byte 255]⟩] :=
  State.dlink_post _ _ _ _ m

theorem discard_rest {w : Work} (h : State.Only [.segs, .waiting, .carriers, .radios, .dispatch] u w.s) :
    (w.discard c st).s = { u with
      cfg := (w.discard c st).s.cfg, segs := (w.discard c st).s.segs, waiting := (w.discard c st).s.waiting
      carriers := (w.discard c st).s.carriers, learning := (w.discard c st).s.learning
      radios := (w.discard c st).s.radios, dispatch := (w.discard c st).s.dispatch } :=
  congrArg (fun x : State => { x with
    cfg := (w.discard c st).s.cfg, carriers := (w.discard c st).s.carriers
    learning := (w.discard c st).s.learning, dispatch := (w.discard c st).s.dispatch }) h.eq

end

/-- What a carrier that leaves the roster leaves of the part. -/
theorem discard_left (st : CarrierState) {v : Work} {ids : List Nat} {es : List Notif}
    (h : Work.Effect [.segs, .waiting, .carriers, .radios, .dispatch] (fun _ => False) es (Work.start u none) v)
    (hothers : ∀ d, d ≠ c → v.s.carrier? d = u.carrier? d)
    (hseg : ∀ i, v.s.seg i = if i ∈ ids then { u.seg i with hold := .free } else u.seg i)
    (hheld : ∀ i ∈ ids, (u.seg i).hold ≠ .free) (hradios : ∀ k, RadioLink.Fed (u.radio k) (v.s.radio k)) :
    (Work.start u none).Grown (v.discard c st) (fun _ => False) ∧
      (v.discard c st).s.carrier? c = none ∧ (∀ d, d ≠ c → (v.discard c st).s.carrier? d = u.carrier? d) ∧
      (v.discard c st).s.cfg = { u.cfg with roster := u.cfg.roster.del c } ∧
      (v.discard c st).s.learning = u.learning.del c ∧ (v.discard c st).s.radios = v.s.radios ∧
      (∀ i, (v.discard c st).s.seg i = if i ∈ ids then { u.seg i with hold := .free } else u.seg i) ∧
      (v.discard c st).s.waiting = v.s.waiting ∧
      (∀ m, (v.discard c st).s.dlink m = (u.dlink m).offers u.now
        (es ++ [⟨.carrierState, u.now, .carrier c, [.byte st.code, .byte 255]⟩])) ∧
      (∀ k, RadioLink.Fed (u.radio k) ((v.discard c st).s.radio k)) ∧
      (v.discard c st).s = { u with
        cfg := (v.discard c st).s.cfg, segs := (v.discard c st).s.segs, waiting := (v.discard c st).s.waiting
        carriers := (v.discard c st).s.carriers, learning := (v.discard c st).s.learning
        radios := (v.discard c st).s.radios, dispatch := (v.discard c st).s.dispatch } ∧
      ((v.discard c st).reexam = true ↔ ids ≠ []) := by
  have hnow : v.s.now = u.now := h.only.now
  refine ⟨discard_grown c st h.grown, (carrier?_discard c v st c).trans (if_pos rfl),
    fun d hd => (carrier?_discard c v st d).trans ((if_neg hd).trans (hothers d hd)), ?_, ?_, rfl, hseg, rfl, fun m => ?_,
    hradios, discard_rest c st h.only, ?_⟩
  · show { v.s.cfg with roster := v.s.cfg.roster.del c } = _
    rw [h.only.cfg]
    rfl
  · show v.s.learning.del c = _
    rw [h.only.learning (by decide)]
    rfl
  · rw [dlink_discard, h.posts, hnow]
    exact (DispatchLink.offers_append _ _ _ _).symm
  · show v.reexam = true ↔ _
    refine (h.reexam_iff.trans (or_iff_right Bool.false_ne_true)).trans ⟨?_, fun hne => ?_⟩
    · rintro ⟨i, hi⟩ rfl
      rw [hseg, if_neg List.not_mem_nil] at hi
      exact absurd hi (by rw [Bool.not_eq_true]; exact SegDyn.callsFor_self _)
    · obtain ⟨i, hi⟩ := List.exists_mem_of_ne_nil ids hne
      refine ⟨i, ?_⟩
      rw [hseg, if_pos hi]
      exact (SegDyn.callsFor_release (u.seg i)).2 (hheld i hi)

/-- Settles O28. -/
theorem deregisterCarrier : Obligations.DeregisterCarrier := by
  unfold Obligations.DeregisterCarrier
  intro s u l c hu hroom hs
  refine ⟨fun hr => ?_, fun r hr hstate => ?_, fun r ids stale hr hstate hids hnodup hstale => ?_⟩
  · have howner : ownDeregister c u = (u, ⟨0x2E, .refused, .unknownCarrier, false, []⟩) := by
      unfold ownDeregister
      rw [hr]
      rfl
    exact next_takeRequest hu hroom howner
  · have howner : ownDeregister c u = (u, ⟨0x2E, .refused, .badCarrierState, false, [.byte r.state.code]⟩) := by
      unfold ownDeregister
      rw [hr]
      rcases hstate with h | h | h | h <;> simp only [h] <;> rfl
    exact next_takeRequest hu hroom howner
  · have hheld : ∀ i ∈ ids, (u.seg i).hold ≠ .free := fun i hi => by
      rw [((hids i).1 hi).2]
      exact fun h => nomatch h
    by_cases hidle : r.state = .idle
    · have hmem : ∀ i, i ∈ u.standing c ↔ i ∈ ids := fun i =>
        (State.mem_standing hs hr).trans ((hids i).trans (and_iff_right hidle)).symm
      have howner : ownDeregister c u = (((vacated u c).discard c r.state).finish,
          ⟨0x2E, .accepted, .none_, false, [.byte r.state.code, .byte ids.length]⟩) := by
        have hlength := length_eq_of_mem_iff (State.nodup_standing hs hr) hnodup hmem
        unfold ownDeregister
        rw [hr]
        simp only [hidle, hlength]
        rfl
      have hradio := radio_leavingRun hr hidle
      have hseg := fun i => (seg_vacated hr hidle i).trans (if_congr (hmem i) rfl rfl)
      have hread : ∀ k, (vacated u c).s.radio k = ((Work.start u none).authorityRun c true).s.radio k := fun k => by
        unfold State.radio
        rw [radios_vacated]
      have hfed : ∀ k, RadioLink.Fed (u.radio k) ((vacated u c).s.radio k) := fun k => by
        rw [hread, leavingRun_eq hr hidle]
        exact (State.radio_onCarrier _ _ _ _).symm ▸ (routeAuthority_pictured u (u.leavingFrame c r) .idle).radios k
      obtain ⟨hgrown, hnone, hothers, hcfg, hlearning, hradios, hsegs, hwaiting, hdlink, hfed', hrest, hreexam⟩ :=
        discard_left r.state (vacated_effect hr hidle) (fun d hd => carrier?_vacated hr hidle hd) hseg hheld hfed
      have hupdate : ∀ e : EndPoint, e = u.endPoint c r true →
          (⟨c, r.lastSeq, u.version c, .stopNow, e.seg, e.off, 0, [e.seg]⟩ : Authority) = u.leavingFrame c r :=
        fun e he => by rw [he]; rfl
      refine ⟨(vacated u c).discard c r.state, next_takeRequest hu hroom howner, hgrown, hnone, hothers, hcfg, hlearning,
        fun h => absurd hidle h, fun _ e f he hf k hk goes hgoes => ?_, hsegs, ?_, fun m => (hdlink m).trans ?_, hfed',
        hrest, hreexam⟩
      · have hlinks : goes ↔ k ∈ u.authorityLinks (u.leavingFrame c r) .idle := by
          rw [hgoes, State.mem_authorityLinks_iff u _ _ hk]
          simp [State.leavingFrame]
        have hk' : ((vacated u c).discard c r.state).s.radio k = _ :=
          (congrArg (fun x : Table RadioLink => x.get k (RadioLink.fresh .unconfigured)) hradios).trans
            ((hread k).trans (hradio k))
        rw [hf, hupdate e he, hk', hlinks]
        exact ⟨fun h => if_pos h, fun h => if_neg h⟩
      · rw [hwaiting, waiting_vacated hr hidle, if_pos hidle]
      · rw [hstale, if_pos hidle]
        rfl
    · have hids' : ids = [] := List.eq_nil_iff_forall_not_mem.2 fun i hi => hidle ((hids i).1 hi).1
      have howner : ownDeregister c u = (((Work.start u none).discard c r.state).finish,
          ⟨0x2E, .accepted, .none_, false, [.byte r.state.code, .byte ids.length]⟩) := by
        have hstate' := hstate.imp_right fun h => h.resolve_right hidle
        unfold ownDeregister
        rw [hr, hids']
        rcases hstate' with h | h <;> simp only [h] <;> rfl
      have hnothing := (Work.Effect.refl (Work.start u none)).said
        (G := [.segs, .waiting, .carriers, .radios, .dispatch]) (m := fun _ => False) (by decide) (fun _ => Iff.rfl) rfl
      obtain ⟨hgrown, hnone, hothers, hcfg, hlearning, hradios, hsegs, hwaiting, hdlink, hfed, hrest, hreexam⟩ :=
        discard_left r.state hnothing (fun d _ => rfl)
          (fun i => by rw [if_neg (by rw [hids']; exact List.not_mem_nil)]; rfl) hheld fun _ => .refl _
      refine ⟨(Work.start u none).discard c r.state, next_takeRequest hu hroom howner, hgrown, hnone, hothers, hcfg,
        hlearning, fun _ => hradios, fun h => absurd h hidle, hsegs, ?_, fun m => (hdlink m).trans ?_, hfed, hrest,
        hreexam⟩
      · rw [hwaiting, if_neg hidle]
        rfl
      · rw [hstale, if_neg hidle]
        rfl

end Sys2Proof.Machine
end

section
/-! The end of a request (R21, R75, R76, R140): its re-examination, the report to the Picture Broadcaster, and one run of
the Authority Calculator for each concerned carrier, whose result depends on what the part holds of that carrier only. -/

namespace Sys2Proof.Machine

namespace Work

/-! ## Re-examination comes first -/

/-- A request that calls for re-examination, or one that does not. -/
def flagged (b : Bool) (w : Work) : Work := { w with reexam := b }

section
variable (w : Work) (b : Bool) (c : Nat)

theorem dropStale_flagged (cause : StaleCause) : (w.flagged b).dropStale c cause = (w.dropStale c cause).flagged b := by
  unfold dropStale
  show (match w.s.entry? c with
    | some e => _
    | none => _) = _
  cases w.s.entry? c <;> rfl

theorem changeState_flagged (new : CarrierState) (extra : List Val) :
    (w.flagged b).changeState c new extra = (w.changeState c new extra).flagged b := by
  cases hr : w.s.carrier? c with
  | none =>
    have hw : w.changeState c new extra = w := by unfold changeState; rw [hr]
    have hf : (w.flagged b).changeState c new extra = w.flagged b := by
      unfold changeState
      rw [show (w.flagged b).s.carrier? c = none from hr]
    rw [hw, hf]
  | some r =>
    rw [changeState_eq (w := w) hr, changeState_eq (w := w.flagged b) hr]
    split
    · exact dropStale_flagged (w.stateChanged c r.state new extra) b c .leftIdle
    · rfl

theorem enterEmergency_flagged (cause : EmergencyCause) (lock : Option Reasons) :
    (w.flagged b).enterEmergency c cause lock = (w.enterEmergency c cause lock).flagged b := by
  unfold enterEmergency
  show (match w.s.carrier? c with
    | none => _
    | some r => _) = _
  cases w.s.carrier? c with
  | none => rfl
  | some r =>
    dsimp only
    cases r.state
    case idle => exact changeState_flagged (w.onCarrier c fun r => { r with cause := some cause }) b c .emergency _
    case authorized => exact changeState_flagged (w.onCarrier c fun r => { r with cause := some cause }) b c .emergency _
    all_goals rfl

/-- The carrier's check cap promoted, as the first step of a run that its report has started (R89). -/
def promoted (w : Work) (c : Nat) : Work :=
  w.onCarrier c (fun r => { r with auth := r.auth.promote w.s.now })

/-- An overspeed counted and notified (R89). -/
def overspeedNoted (w : Work) (c : Nat) (r : Carrier) : Work :=
  (w.onCarrier c (fun r => { r with auth := { r.auth with overspeeds := bump16 r.auth.overspeeds } })).post .overspeed
    (.carrier c) [.half r.speed, .half r.auth.checkCap, .byte r.applied.overTol]

theorem testSpeed_eq (w : Work) (c : Nat) : w.testSpeed c =
    match (w.promoted c).s.carrier? c with
    | none => w.promoted c
    | some r =>
      if (decide (r.state = .idle) || decide (r.state = .authorized))
          && decide (r.speed > r.auth.checkCap + r.applied.overTol) then
        ((w.promoted c).overspeedNoted c r).enterEmergency c .overspeed none
      else w.promoted c := rfl

theorem testSpeed_flagged : (w.flagged b).testSpeed c = (w.testSpeed c).flagged b := by
  rw [testSpeed_eq, testSpeed_eq]
  show (match (w.promoted c).s.carrier? c with
    | none => (w.promoted c).flagged b
    | some r => if _ then (((w.promoted c).overspeedNoted c r).flagged b).enterEmergency c .overspeed none
      else (w.promoted c).flagged b) = _
  cases (w.promoted c).s.carrier? c with
  | none => rfl
  | some r =>
    dsimp only
    split
    · exact enterEmergency_flagged _ b c _ _
    · rfl

/-- A run's first step, taken where the carrier's report started the request (R76). -/
def tested (w : Work) (c : Nat) : Work := if w.report = some c then w.testSpeed c else w

theorem authorityRun_eq (w : Work) (c : Nat) (leaving : Bool) : w.authorityRun c leaving =
    match (w.tested c).s.carrier? c with
    | none => w.tested c
    | some r =>
      let e := (w.tested c).s.endPoint c r leaving
      let v := (w.tested c).cutBack c r e
      (v.on (fun s => s.routeAuthority (v.s.authorityFrame c r leaving e) r.state)).onCarrier c (fun x => { x with
        auth := x.auth.record v.s.now x.applied (v.settled.contains c) (v.s.authorityFrame c r leaving e) e.pos }) := rfl

theorem tested_flagged : (w.flagged b).tested c = (w.tested c).flagged b := by
  unfold tested
  rw [testSpeed_flagged]
  show (if w.report = some c then _ else _) = _
  split <;> rfl

theorem cutBack_flagged (r : Carrier) (e : EndPoint) :
    (w.flagged b).cutBack c r e = (w.cutBack c r e).flagged b := by
  unfold cutBack
  split
  · exact (apply_ite (flagged b) _ (w.bumpVersion c) w).symm
  · rfl

theorem authorityRun_flagged (leaving : Bool) :
    (w.flagged b).authorityRun c leaving = (w.authorityRun c leaving).flagged b := by
  rw [authorityRun_eq, authorityRun_eq, tested_flagged]
  show (match (w.tested c).s.carrier? c with
    | none => (w.tested c).flagged b
    | some r => _) = _
  cases (w.tested c).s.carrier? c with
  | none => rfl
  | some r =>
    dsimp only
    rw [cutBack_flagged]
    rfl

theorem runs_flagged (cs : List Nat) : cs.foldl (fun (v : Work) c => v.authorityRun c false) (w.flagged b) =
    (cs.foldl (fun (v : Work) c => v.authorityRun c false) w).flagged b := by
  induction cs generalizing w with
  | nil => rfl
  | cons c rest ih => rw [List.foldl_cons, authorityRun_flagged, ih, List.foldl_cons]

end

/-- What follows the re-examination at the end of a request. -/
theorem finish_of_quiet (w : Work) (h : w.reexam = false) : w.finish =
    (((w.on (fun s => s.pictureChange w.codeChanges)).s.carriers.keys.filter
      (w.on (fun s => s.pictureChange w.codeChanges)).concerns).foldl (fun (v : Work) c => v.authorityRun c false)
        (w.on (fun s => s.pictureChange w.codeChanges))).s := by
  unfold finish
  simp only [h]
  rfl

theorem finish_of_reexam (w : Work) (h : w.reexam = true) :
    w.finish = Work.finish { w.s.waiting.foldl Work.tryEntry w with reexam := false } := by
  rw [finish_of_quiet ({ w.s.waiting.foldl Work.tryEntry w with reexam := false }) rfl]
  unfold finish reexamine
  simp only [h, if_true]
  exact (congrArg Work.s (runs_flagged ((w.s.waiting.foldl Work.tryEntry w).on
    (fun s => s.pictureChange (w.s.waiting.foldl Work.tryEntry w).codeChanges)) false _)).symm

end Work

end Sys2Proof.Machine
end

section
/-! What a run of the Authority Calculator turns on: what the part holds of its carrier (R76 to R83, R86 to R89). -/

namespace Sys2Proof.Machine

namespace Work

/-- Two pieces of a request that a run for a carrier cannot tell apart. -/
structure Alike (c : Nat) (w v : Work) : Prop where
  report : v.report = w.report
  bumped : v.bumped = w.bumped
  settled : v.settled = w.settled
  carrier : v.s.carrier? c = w.s.carrier? c
  route : v.s.route? c = w.s.route? c
  version : v.s.version c = w.s.version c
  segs : v.s.segs = w.s.segs
  cfg : v.s.cfg = w.s.cfg
  mode : v.s.mode = w.s.mode
  now : v.s.now = w.s.now
  learning : v.s.learning = w.s.learning
  links : ∀ k, (v.s.radio k).state = (w.s.radio k).state

namespace Alike

variable {c : Nat} {w v u x : Work} {F : List Field} {n m : Nat → Prop} {es fs : List Notif}

theorem refl (c : Nat) (w : Work) : Alike c w w :=
  ⟨rfl, rfl, rfl, rfl, rfl, rfl, rfl, rfl, rfl, rfl, rfl, fun _ => rfl⟩

theorem symm (h : Alike c w v) : Alike c v w :=
  ⟨h.report.symm, h.bumped.symm, h.settled.symm, h.carrier.symm, h.route.symm, h.version.symm, h.segs.symm, h.cfg.symm,
    h.mode.symm, h.now.symm, h.learning.symm, fun k => (h.links k).symm⟩

theorem trans (h : Alike c w v) (g : Alike c v u) : Alike c w u :=
  ⟨g.report.trans h.report, g.bumped.trans h.bumped, g.settled.trans h.settled, g.carrier.trans h.carrier,
    g.route.trans h.route, g.version.trans h.version, g.segs.trans h.segs, g.cfg.trans h.cfg, g.mode.trans h.mode,
    g.now.trans h.now, g.learning.trans h.learning, fun k => (g.links k).trans (h.links k)⟩

/-- A change that leaves what the part holds of the carrier. -/
theorem of_effect (h : Effect F n es w v) (hcarrier : v.s.carrier? c = w.s.carrier? c)
    (hroute : v.s.route? c = w.s.route? c) (hversion : v.s.version c = w.s.version c)
    (hlinks : ∀ k, (v.s.radio k).state = (w.s.radio k).state)
    (hF : Field.segs ∉ F ∧ Field.learning ∉ F := by decide) : Alike c w v :=
  ⟨h.grown.report, h.grown.bumped, h.grown.settled, hcarrier, hroute, hversion, h.only.segs hF.1, h.only.cfg, h.only.mode,
    h.only.now, h.only.learning hF.2, hlinks⟩

/-- A change of two pieces that are alike, by which the part holds the same of the carrier. -/
theorem both (h : Alike c w v) (hw : Effect F n es w u) (hv : Effect F m fs v x)
    (hcarrier : x.s.carrier? c = u.s.carrier? c) (hroute : x.s.route? c = u.s.route? c)
    (hversion : x.s.version c = u.s.version c) (hlinks : ∀ k, (x.s.radio k).state = (u.s.radio k).state)
    (hF : Field.segs ∉ F ∧ Field.learning ∉ F := by decide) : Alike c u x where
  report := hv.grown.report.trans (h.report.trans hw.grown.report.symm)
  bumped := hv.grown.bumped.trans (h.bumped.trans hw.grown.bumped.symm)
  settled := hv.grown.settled.trans (h.settled.trans hw.grown.settled.symm)
  carrier := hcarrier
  route := hroute
  version := hversion
  segs := (hv.only.segs hF.1).trans (h.segs.trans (hw.only.segs hF.1).symm)
  cfg := hv.only.cfg.trans (h.cfg.trans hw.only.cfg.symm)
  mode := hv.only.mode.trans (h.mode.trans hw.only.mode.symm)
  now := hv.only.now.trans (h.now.trans hw.only.now.symm)
  learning := (hv.only.learning hF.2).trans (h.learning.trans (hw.only.learning hF.2).symm)
  links := hlinks

section
variable (h : Alike c w v)
include h

theorem seg (i : Nat) : v.s.seg i = w.s.seg i := by unfold State.seg; rw [h.segs]

theorem grid : v.s.grid = w.s.grid := congrArg Settings.grid h.cfg

theorem standing : v.s.standing c = w.s.standing c := by
  unfold State.standing
  rw [h.segs, h.carrier]

theorem endPoint (r : Carrier) (leaving : Bool) : v.s.endPoint c r leaving = w.s.endPoint c r leaving := by
  unfold State.endPoint State.routeEnd State.standEnd State.obstacleBetween
  simp only [h.route, h.grid, h.seg]

theorem commandOf (r : Carrier) (leaving : Bool) (e : EndPoint) :
    v.s.commandOf c r leaving e = w.s.commandOf c r leaving e := by
  unfold State.commandOf State.speedCode
  simp only [h.route, h.grid, h.seg, h.standing, h.mode]

theorem upcomingOf (r : Carrier) (cmd : Command) (e : EndPoint) :
    v.s.upcomingOf c r cmd e = w.s.upcomingOf c r cmd e := by
  unfold State.upcomingOf
  simp only [h.route]

theorem authorityFrame (r : Carrier) (leaving : Bool) (e : EndPoint) :
    v.s.authorityFrame c r leaving e = w.s.authorityFrame c r leaving e := by
  unfold State.authorityFrame
  simp only [h.commandOf, h.upcomingOf, h.version]

end

end Alike

end Work

/-! ## The first step of a run (R89) -/

/-- The speed of a carrier whose check cap is promoted is above it by more than the tolerance (R89). -/
def Carrier.overspeeds (r : Carrier) : Bool :=
  (decide (r.state = .idle) || decide (r.state = .authorized)) && decide (r.speed > r.auth.checkCap + r.applied.overTol)

/-- The record with its check cap promoted (R89). -/
def Carrier.promoted (now : Time) (r : Carrier) : Carrier := { r with auth := r.auth.promote now }

/-- The record after the first step of a run that its report has started (R89). -/
def Carrier.speedTested (now : Time) (r : Carrier) : Carrier :=
  if (r.promoted now).overspeeds then
    Carrier.asked { r.promoted now with
      auth := { (r.promoted now).auth with overspeeds := bump16 (r.promoted now).auth.overspeeds } } .overspeed
  else r.promoted now

namespace Work

section
variable {w : Work} {c : Nat} {r : Carrier} (hr : w.s.carrier? c = some r)
include hr

theorem carrier?_promoted : (w.promoted c).s.carrier? c = some (r.promoted w.s.now) := by
  rw [Work.promoted, carrier?_onCarrier, if_pos rfl, hr]
  rfl

theorem testSpeed_over (ho : (r.promoted w.s.now).overspeeds = true) : w.testSpeed c =
    ((w.promoted c).overspeedNoted c (r.promoted w.s.now)).enterEmergency c .overspeed none := by
  rw [testSpeed_eq, carrier?_promoted hr]
  exact if_pos ho

theorem testSpeed_under (ho : (r.promoted w.s.now).overspeeds = false) : w.testSpeed c = w.promoted c := by
  rw [testSpeed_eq, carrier?_promoted hr]
  exact if_neg (Bool.eq_false_iff.1 ho)

end

theorem promoted_effect (w : Work) (c : Nat) : Effect [.carriers] (fun _ => False) [] w (w.promoted c) :=
  w.onCarrier_effect c _

theorem overspeedNoted_effect (w : Work) (c : Nat) (r : Carrier) : Effect [.carriers, .dispatch] (fun _ => False)
    [⟨.overspeed, w.s.now, .carrier c, [.half r.speed, .half r.auth.checkCap, .byte r.applied.overTol]⟩] w
    (w.overspeedNoted c r) := by
  have hcount := w.onCarrier_effect c (fun r => { r with auth := { r.auth with overspeeds := bump16 r.auth.overspeeds } })
  have hpost := post_effect (w.onCarrier c (fun r => { r with
    auth := { r.auth with overspeeds := bump16 r.auth.overspeeds } })) .overspeed (.carrier c)
    [.half r.speed, .half r.auth.checkCap, .byte r.applied.overTol]
  rw [hcount.only.now] at hpost
  exact (hcount.aside hpost).said (by decide) (fun _ => by simp) rfl

theorem testSpeed_unknown {w : Work} {c : Nat} (hr : w.s.carrier? c = none) : w.testSpeed c = w.promoted c := by
  have hnone : (w.promoted c).s.carrier? c = none := by
    rw [Work.promoted, carrier?_onCarrier, if_pos rfl, hr]
    rfl
  rw [testSpeed_eq, hnone]

/-- The first step of a run changes the carrier's record, its pending entry and what is posted. -/
theorem testSpeed_effect (w : Work) (c : Nat) :
    ∃ n es, Effect [.carriers, .waiting, .dispatch] n es w (w.testSpeed c) := by
  cases hr : w.s.carrier? c with
  | none =>
    rw [testSpeed_unknown hr]
    exact ⟨_, _, (w.promoted_effect c).said (by decide) (fun _ => Iff.rfl) rfl⟩
  | some r =>
    cases ho : (r.promoted w.s.now).overspeeds with
    | false =>
      rw [testSpeed_under hr ho]
      exact ⟨_, _, (w.promoted_effect c).said (by decide) (fun _ => Iff.rfl) rfl⟩
    | true =>
      rw [testSpeed_over hr ho]
      exact ⟨_, _, (((w.promoted_effect c).aside (overspeedNoted_effect _ c _)).aside
        (enterEmergency_effect _ c .overspeed none)).said (by decide) (fun _ => Iff.rfl) rfl⟩

theorem carrier?_testSpeed (w : Work) (c d : Nat) : (w.testSpeed c).s.carrier? d =
    if d = c then (w.s.carrier? d).map (Carrier.speedTested w.s.now) else w.s.carrier? d := by
  cases hr : w.s.carrier? c with
  | none =>
    rw [testSpeed_unknown hr, promoted, carrier?_onCarrier]
    by_cases hd : d = c
    · subst hd; simp [hr]
    · simp [hd]
  | some r =>
    cases ho : (r.promoted w.s.now).overspeeds with
    | false =>
      rw [testSpeed_under hr ho, promoted, carrier?_onCarrier]
      by_cases hd : d = c
      · subst hd
        simp only [hr, Option.map_some, Carrier.speedTested, ho]
        rfl
      · simp [hd]
    | true =>
      have hnoted : ((w.promoted c).overspeedNoted c (r.promoted w.s.now)).s.carrier? d = if d = c then
          some { r.promoted w.s.now with
            auth := { (r.promoted w.s.now).auth with overspeeds := bump16 (r.promoted w.s.now).auth.overspeeds } }
          else w.s.carrier? d := by
        refine (carrier?_onCarrier (w.promoted c) c d _).trans ?_
        by_cases hd : d = c
        · subst hd
          rw [if_pos rfl, if_pos rfl, carrier?_promoted hr]
          rfl
        · rw [if_neg hd, if_neg hd, promoted, carrier?_onCarrier, if_neg hd]
      rw [testSpeed_over hr ho, carrier?_enterEmergency, hnoted]
      by_cases hd : d = c
      · subst hd
        simp only [if_true, hr, Option.map_some, Carrier.speedTested, ho]
      · simp [hd]

/-- A pending entry goes with the carrier that an overspeed takes out of IDLE (R36). -/
theorem waiting_testSpeed (w : Work) (c : Nat) : (w.testSpeed c).s.waiting =
    if (w.s.carrier? c).any (fun r => (r.promoted w.s.now).overspeeds && decide (r.state = .idle)) then
      w.s.waiting.filter (fun e => decide (e.carrier ≠ c))
    else w.s.waiting := by
  have hpromoted := (w.promoted_effect c).only.waiting (by decide)
  cases hr : w.s.carrier? c with
  | none => rw [testSpeed_unknown hr, hpromoted]; rfl
  | some r =>
    cases ho : (r.promoted w.s.now).overspeeds with
    | false => rw [testSpeed_under hr ho, hpromoted]; simp [ho]
    | true =>
      have hnoted := (overspeedNoted_effect (w.promoted c) c (r.promoted w.s.now)).only.waiting (by decide)
      have hidle : ((w.promoted c).overspeedNoted c (r.promoted w.s.now)).s.carrierIs c .idle =
          decide (r.state = .idle) := by
        have hread : ((w.promoted c).overspeedNoted c (r.promoted w.s.now)).s.carrier? c = some _ :=
          (carrier?_onCarrier (w.promoted c) c c _).trans (by rw [if_pos rfl, carrier?_promoted hr]; rfl)
        rw [State.carrierIs, hread]
        rfl
      rw [testSpeed_over hr ho, waiting_enterEmergency, hidle, hnoted, hpromoted]
      simp [ho]

end Work

end Sys2Proof.Machine
end

section
/-! The runs of the Authority Calculator at the end of a request, one after another (R75, R76, R83). -/

namespace Sys2Proof.Machine

namespace Work

/-! ## The version step of a run (R83) -/

/-- The end of a carrier's authority falls on the same route, and the request has not itself incremented the version. -/
def cutsBack (bumped : List Nat) (c : Nat) (r : Carrier) (e : EndPoint) : Bool :=
  match r.state, e.pos, r.auth.endPos with
  | .authorized, some new, some old => new < old && !(bumped.contains c)
  | _, _, _ => false

theorem cutBack_eq (w : Work) (c : Nat) (r : Carrier) (e : EndPoint) :
    w.cutBack c r e = if cutsBack w.bumped c r e then w.bumpVersion c else w := by
  unfold cutBack cutsBack
  cases r.state <;> cases e.pos <;> cases r.auth.endPos <;> rfl

theorem cutBack_effect (w : Work) (c : Nat) (r : Carrier) (e : EndPoint) :
    Effect [.routes, .versions] (fun _ => False) [] w (w.cutBack c r e) := by
  rw [cutBack_eq]
  split
  · exact w.bumpVersion_effect c
  · exact (Effect.refl w).said (by decide) (fun _ => Iff.rfl) rfl

theorem version_cutBack (w : Work) (c d : Nat) (r : Carrier) (e : EndPoint) : (w.cutBack c r e).s.version d =
    if cutsBack w.bumped c r e = true ∧ d = c then wrap8 (w.s.version c) else w.s.version d := by
  rw [cutBack_eq]
  split
  · next h => rw [version_bumpVersion]; simp [h]
  · next h => simp [h]

theorem route?_cutBack (w : Work) (c d : Nat) (r : Carrier) (e : EndPoint) : (w.cutBack c r e).s.route? d =
    if cutsBack w.bumped c r e = true ∧ d = c then
      (w.s.route? d).map (fun x => { x with version := wrap8 (w.s.version c) })
    else w.s.route? d := by
  rw [cutBack_eq]
  split
  · next h => rw [route?_bumpVersion]; simp [h]
  · next h => simp [h]

/-! ## The frame sent and the fields recorded (R77, R86, R87) -/

/-- The frame routed, and the carrier's authority fields changed. -/
def sent (w : Work) (c : Nat) (f : Authority) (st : CarrierState) (g : Carrier → Carrier) : Work :=
  (w.on (fun s => s.routeAuthority f st)).onCarrier c g

section
variable (w : Work) (c : Nat) (f : Authority) (st : CarrierState) (g : Carrier → Carrier)

theorem sent_effect : Effect [.radios, .carriers] (fun _ => False) [] w (w.sent c f st g) :=
  ((w.on_effect [.radios] (f := fun s => s.routeAuthority f st) (w.s.routeAuthority_only f st)).aside
    (onCarrier_effect _ c g)).said (by decide) (fun _ => by simp) rfl

theorem carrier?_sent (d : Nat) : (w.sent c f st g).s.carrier? d =
    if d = c then (w.s.carrier? d).map g else w.s.carrier? d := by
  have hroute := (w.s.routeAuthority_only f st).carrier? (by decide) d
  rw [sent, carrier?_onCarrier]
  exact if_congr Iff.rfl (congrArg (Option.map g) hroute) hroute

theorem radio_sent (k : Nat) : (w.sent c f st g).s.radio k =
    if k ∈ w.s.authorityLinks f st then ((w.s.radio k).join f).transmit else w.s.radio k :=
  (State.radio_onCarrier _ _ _ _).trans (State.radio_routeAuthority _ _ _ _)

theorem links_sent (k : Nat) : ((w.sent c f st g).s.radio k).state = (w.s.radio k).state :=
  (congrArg RadioLink.state (State.radio_onCarrier _ _ _ _)).trans
    ((routeAuthority_pictured w.s f st).radios k).state

end

/-! ## A run -/

/-- The frame of a run for a carrier with this record after the first step (R86). -/
def runFrame (w : Work) (c : Nat) (r : Carrier) (leaving : Bool) : Authority :=
  ((w.tested c).cutBack c r ((w.tested c).s.endPoint c r leaving)).s.authorityFrame c r leaving
    ((w.tested c).s.endPoint c r leaving)

/-- A run records what it sends in the carrier's authority fields (R87). -/
def recording (w : Work) (c : Nat) (r : Carrier) (leaving : Bool) (x : Carrier) : Carrier :=
  { x with
    auth := x.auth.record w.s.now x.applied (w.settled.contains c) (w.runFrame c r leaving)
      ((w.tested c).s.endPoint c r leaving).pos }

theorem tested_effect (w : Work) (c : Nat) : ∃ n es, Effect [.carriers, .waiting, .dispatch] n es w (w.tested c) := by
  unfold tested
  split
  · exact w.testSpeed_effect c
  · exact ⟨_, _, (Effect.refl w).said (by decide) (fun _ => Iff.rfl) rfl⟩

theorem authorityRun_unknown {w : Work} {c : Nat} (hr : (w.tested c).s.carrier? c = none) (leaving : Bool) :
    w.authorityRun c leaving = w.tested c := by
  rw [authorityRun_eq, hr]

theorem authorityRun_known {w : Work} {c : Nat} {r : Carrier} (hr : (w.tested c).s.carrier? c = some r)
    (leaving : Bool) : w.authorityRun c leaving =
      ((w.tested c).cutBack c r ((w.tested c).s.endPoint c r leaving)).sent c (w.runFrame c r leaving) r.state
        (w.recording c r leaving) := by
  obtain ⟨n, es, htested⟩ := w.tested_effect c
  have hcut := (w.tested c).cutBack_effect c r ((w.tested c).s.endPoint c r leaving)
  have hnow : ((w.tested c).cutBack c r ((w.tested c).s.endPoint c r leaving)).s.now = w.s.now :=
    hcut.only.now.trans htested.only.now
  have hsettled : ((w.tested c).cutBack c r ((w.tested c).s.endPoint c r leaving)).settled = w.settled :=
    hcut.grown.settled.trans htested.grown.settled
  rw [authorityRun_eq, hr]
  dsimp only
  rw [hnow, hsettled]
  rfl

/-- The fields that a run may change. -/
theorem authorityRun_effect (w : Work) (c : Nat) (leaving : Bool) :
    ∃ n es, Effect [.carriers, .waiting, .dispatch, .routes, .versions, .radios] n es w (w.authorityRun c leaving) := by
  obtain ⟨n, es, htested⟩ := w.tested_effect c
  cases hr : (w.tested c).s.carrier? c with
  | none =>
    rw [authorityRun_unknown hr]
    exact ⟨_, _, htested.said (by decide) (fun _ => Iff.rfl) rfl⟩
  | some r =>
    rw [authorityRun_known hr]
    exact ⟨_, _, ((htested.aside (cutBack_effect _ c r _)).aside (sent_effect _ c _ _ _)).said (by decide)
      (fun _ => Iff.rfl) rfl⟩

theorem links_authorityRun (w : Work) (c : Nat) (leaving : Bool) (k : Nat) :
    ((w.authorityRun c leaving).s.radio k).state = (w.s.radio k).state :=
  ((w.authorityRun_within c leaving).radios k).state

theorem carrier?_tested_ne (w : Work) {c d : Nat} (hd : d ≠ c) : (w.tested c).s.carrier? d = w.s.carrier? d := by
  unfold tested
  split
  · rw [carrier?_testSpeed, if_neg hd]
  · rfl

/-- A run for another carrier leaves what the part holds of this one. -/
theorem alike_of_other (w : Work) {c d : Nat} (hd : d ≠ c) (leaving : Bool) : Alike d w (w.authorityRun c leaving) := by
  obtain ⟨n, es, htested⟩ := w.tested_effect c
  obtain ⟨n', es', hrun⟩ := w.authorityRun_effect c leaving
  refine .of_effect hrun ?_ ?_ ?_ (w.links_authorityRun c leaving)
  all_goals cases hr : (w.tested c).s.carrier? c with
    | none => ?_
    | some r => ?_
  · rw [authorityRun_unknown hr, carrier?_tested_ne w hd]
  · rw [authorityRun_known hr, carrier?_sent, if_neg hd, (cutBack_effect _ c r _).only.carrier? (by decide),
      carrier?_tested_ne w hd]
  · rw [authorityRun_unknown hr, htested.only.route? (by decide)]
  · rw [authorityRun_known hr, (sent_effect _ c _ _ _).only.route? (by decide), route?_cutBack,
      if_neg fun h => hd h.2, htested.only.route? (by decide)]
  · rw [authorityRun_unknown hr, htested.only.version (by decide)]
  · rw [authorityRun_known hr, (sent_effect _ c _ _ _).only.version (by decide), version_cutBack,
      if_neg fun h => hd h.2, htested.only.version (by decide)]

namespace Alike

variable {c : Nat} {w v : Work} (h : Alike c w v)
include h

theorem tested : Alike c (w.tested c) (v.tested c) := by
  by_cases hrep : w.report = some c
  · have hw : w.tested c = w.testSpeed c := if_pos hrep
    have hv : v.tested c = v.testSpeed c := if_pos (h.report.trans hrep)
    obtain ⟨n, es, heffect⟩ := w.testSpeed_effect c
    obtain ⟨n', es', heffect'⟩ := v.testSpeed_effect c
    have hradio : ∀ k, ((v.testSpeed c).s.radio k).state = ((w.testSpeed c).s.radio k).state := fun k => by
      unfold State.radio
      rw [heffect.only.radios (by decide), heffect'.only.radios (by decide)]
      exact h.links k
    rw [hw, hv]
    refine h.both heffect heffect' ?_ ?_ ?_ hradio
    · rw [carrier?_testSpeed, carrier?_testSpeed, h.carrier, h.now]
    · rw [heffect.only.route? (by decide), heffect'.only.route? (by decide), h.route]
    · rw [heffect.only.version (by decide), heffect'.only.version (by decide), h.version]
  · have hw : w.tested c = w := if_neg hrep
    have hv : v.tested c = v := if_neg fun hx => hrep (h.report.symm.trans hx)
    rw [hw, hv]
    exact h

theorem waiting_tested (hwaiting : v.s.waiting = w.s.waiting) : (v.tested c).s.waiting = (w.tested c).s.waiting := by
  unfold Work.tested
  rw [h.report]
  split
  · rw [waiting_testSpeed, waiting_testSpeed, h.carrier, h.now, hwaiting]
  · exact hwaiting

theorem cutBack (r : Carrier) (e : EndPoint) : Alike c (w.cutBack c r e) (v.cutBack c r e) := by
  have hw := w.cutBack_effect c r e
  have hv := v.cutBack_effect c r e
  refine h.both hw hv ?_ ?_ ?_ fun k => ?_
  · rw [hw.only.carrier? (by decide), hv.only.carrier? (by decide), h.carrier]
  · rw [route?_cutBack, route?_cutBack, h.bumped, h.route, h.version]
  · rw [version_cutBack, version_cutBack, h.bumped, h.version]
  · unfold State.radio
    rw [hw.only.radios (by decide), hv.only.radios (by decide)]
    exact h.links k

theorem runFrame (r : Carrier) (leaving : Bool) : v.runFrame c r leaving = w.runFrame c r leaving := by
  unfold Work.runFrame
  rw [h.tested.endPoint, (h.tested.cutBack r _).authorityFrame]

/-- What a run leaves of its carrier turns on what the part holds of it. -/
theorem authorityRun (leaving : Bool) : Alike c (w.authorityRun c leaving) (v.authorityRun c leaving) := by
  have htested := h.tested
  cases hr : (w.tested c).s.carrier? c with
  | none =>
    rw [authorityRun_unknown hr, authorityRun_unknown (htested.carrier.trans hr)]
    exact htested
  | some r =>
    have hcut := htested.cutBack r ((w.tested c).s.endPoint c r leaving)
    rw [authorityRun_known hr, authorityRun_known (htested.carrier.trans hr), htested.endPoint, h.runFrame]
    refine hcut.both (sent_effect _ c _ _ _) (sent_effect _ c _ _ _) ?_ ?_ ?_ fun k => ?_
    · have hrecord : v.recording c r leaving = w.recording c r leaving := by
        unfold recording
        simp only [h.now, h.settled, h.runFrame, htested.endPoint]
      rw [carrier?_sent, carrier?_sent, hcut.carrier, hrecord]
    · rw [(sent_effect _ c _ _ _).only.route? (by decide), (sent_effect _ c _ _ _).only.route? (by decide), hcut.route]
    · rw [(sent_effect _ c _ _ _).only.version (by decide), (sent_effect _ c _ _ _).only.version (by decide),
        hcut.version]
    · rw [links_sent, links_sent, hcut.links]

end Alike

end Work

end Sys2Proof.Machine
end

section
/-! Settles the end of a request (R21, R75, R76, R140). -/

namespace Sys2Proof.Machine

namespace Work

/-! ## The frame of a run, by what the part holds before its version step -/

theorem standing_cutBack (w : Work) (c : Nat) (r : Carrier) (e : EndPoint) :
    (w.cutBack c r e).s.standing c = w.s.standing c := by
  have hcut := (w.cutBack_effect c r e).only
  unfold State.standing
  rw [hcut.segs (by decide), hcut.carrier? (by decide)]

theorem commandOf_cutBack (w : Work) (c : Nat) (r : Carrier) (e : EndPoint) (leaving : Bool) :
    (w.cutBack c r e).s.commandOf c r leaving e = w.s.commandOf c r leaving e := by
  have hcut := (w.cutBack_effect c r e).only
  unfold State.commandOf State.speedCode
  simp only [hcut.grid, hcut.mode, hcut.seg (by decide), standing_cutBack, route?_cutBack, and_true]
  by_cases hb : cutsBack w.bumped c r e = true
  · simp only [hb, if_true]
    cases w.s.route? c <;> rfl
  · simp only [hb]
    rfl

theorem upcomingOf_cutBack (w : Work) (c : Nat) (r : Carrier) (e : EndPoint) (cmd : Command) :
    (w.cutBack c r e).s.upcomingOf c r cmd e = w.s.upcomingOf c r cmd e := by
  unfold State.upcomingOf
  rw [route?_cutBack]
  by_cases hb : cutsBack w.bumped c r e = true
  · simp only [hb, true_and, if_true]
    cases w.s.route? c with
    | none => rfl
    | some x => cases r.state <;> rfl
  · simp only [hb]
    rfl

theorem runFrame_eq (w : Work) (c : Nat) (r : Carrier) (leaving : Bool) (hr : (w.tested c).s.carrier? c = some r) :
    w.runFrame c r leaving = ⟨c, r.lastSeq, (w.authorityRun c leaving).s.version c,
      ((w.tested c).s.commandOf c r leaving ((w.tested c).s.endPoint c r leaving)).1,
      ((w.tested c).s.endPoint c r leaving).seg, ((w.tested c).s.endPoint c r leaving).off,
      ((w.tested c).s.commandOf c r leaving ((w.tested c).s.endPoint c r leaving)).2,
      (w.tested c).s.upcomingOf c r ((w.tested c).s.commandOf c r leaving ((w.tested c).s.endPoint c r leaving)).1
        ((w.tested c).s.endPoint c r leaving)⟩ := by
  have hversion := (sent_effect ((w.tested c).cutBack c r ((w.tested c).s.endPoint c r leaving)) c
    (w.runFrame c r leaving) r.state (w.recording c r leaving)).only.version (by decide) c
  rw [authorityRun_known hr, hversion]
  unfold runFrame State.authorityFrame
  simp only [commandOf_cutBack, upcomingOf_cutBack]

/-! ## Runs one after another -/

/-- One run for each of some carriers, in order. -/
def runEach (w : Work) (cs : List Nat) : Work := cs.foldl (fun v c => v.authorityRun c false) w

section
variable (w : Work)

theorem runEach_cons (c : Nat) (cs : List Nat) : w.runEach (c :: cs) = (w.authorityRun c false).runEach cs := rfl

theorem runEach_append (cs ds : List Nat) : w.runEach (cs ++ ds) = (w.runEach cs).runEach ds := List.foldl_append

theorem runEach_effect (cs : List Nat) :
    ∃ n es, Effect [.carriers, .waiting, .dispatch, .routes, .versions, .radios] n es w (w.runEach cs) := by
  induction cs generalizing w with
  | nil => exact ⟨_, _, (Effect.refl w).said (by decide) (fun _ => Iff.rfl) rfl⟩
  | cons c rest ih =>
    obtain ⟨n, es, hrun⟩ := w.authorityRun_effect c false
    obtain ⟨m, fs, hrest⟩ := ih (w.authorityRun c false)
    exact ⟨_, _, (hrun.aside hrest).said (by decide) (fun _ => Iff.rfl) rfl⟩

theorem alike_runEach {cs : List Nat} {d : Nat} (hd : d ∉ cs) : Alike d w (w.runEach cs) := by
  induction cs generalizing w with
  | nil => exact .refl d w
  | cons c rest ih =>
    rw [List.mem_cons, not_or] at hd
    exact (w.alike_of_other hd.1 false).trans (ih _ hd.2)

theorem waiting_authorityRun (c : Nat) (leaving : Bool) :
    (w.authorityRun c leaving).s.waiting = (w.tested c).s.waiting := by
  cases hr : (w.tested c).s.carrier? c with
  | none => rw [authorityRun_unknown hr]
  | some r =>
    rw [authorityRun_known hr, (sent_effect _ c _ _ _).only.waiting (by decide),
      (cutBack_effect _ c r _).only.waiting (by decide)]

theorem waiting_runEach {cs : List Nat} (h : ∀ c ∈ cs, w.report ≠ some c) :
    (w.runEach cs).s.waiting = w.s.waiting := by
  induction cs generalizing w with
  | nil => rfl
  | cons c rest ih =>
    obtain ⟨n, es, hrun⟩ := w.authorityRun_effect c false
    have htested : w.tested c = w := if_neg (h c List.mem_cons_self)
    rw [runEach_cons, ih _ (fun d hd => hrun.grown.report.symm ▸ h d (List.mem_cons_of_mem c hd)), waiting_authorityRun,
      htested]

end

/-- What a run puts on the radio links (R127, R128). -/
theorem radio_authorityRun {w : Work} {c : Nat} {r : Carrier} (hr : (w.tested c).s.carrier? c = some r)
    (leaving : Bool) {k : Nat} (hk : k < 4) (goes : Prop)
    (hgoes : goes ↔ (w.s.radio k).state = .up ∧
      ((((w.runFrame c r leaving).command = .stopNow ∨ (w.runFrame c r leaving).command = .emergency) ∧
        (r.state = .missing ∨ r.state = .lost)) ∨
        w.s.learning.get? c = none ∨ ∃ a, w.s.learning.get? c = some a ∧ a.link = k)) :
    (goes → (w.authorityRun c leaving).s.radio k = ((w.s.radio k).join (w.runFrame c r leaving)).transmit) ∧
      (¬ goes → (w.authorityRun c leaving).s.radio k = w.s.radio k) := by
  obtain ⟨n, es, htested⟩ := w.tested_effect c
  have hcut := (w.tested c).cutBack_effect c r ((w.tested c).s.endPoint c r leaving)
  have hradio : ((w.tested c).cutBack c r ((w.tested c).s.endPoint c r leaving)).s.radio k = w.s.radio k := by
    unfold State.radio
    rw [hcut.only.radios (by decide), htested.only.radios (by decide)]
  have hlearning := (hcut.only.learning (by decide)).trans (htested.only.learning (by decide))
  have hlinks := State.mem_authorityLinks_iff
    ((w.tested c).cutBack c r ((w.tested c).s.endPoint c r leaving)).s (w.runFrame c r leaving) r.state hk
  rw [hradio, hlearning] at hlinks
  rw [authorityRun_known hr, radio_sent, hradio, hgoes]
  exact ⟨fun h => if_pos (hlinks.2 h), fun h => if_neg (mt hlinks.1 h)⟩

/-! ## The concerned carriers, and the report to the Picture Broadcaster -/

theorem concerns_iff (w : Work) (c : Nat) : w.concerns c = true ↔ c ∈ w.runs ∨ ∃ i ∈ w.touched,
    (w.s.seg i).holder = some (.carrier c) ∨ (w.s.seg i).intruder = some (.carrier c) := by
  unfold concerns
  simp [SegDyn.ownedBy_iff]

/-- The registered carriers that a request concerns, by ascending id (R75). -/
def concernedIds (w : Work) : List Nat := w.s.carriers.keys.filter w.concerns

theorem mem_concernedIds (w : Work) (c : Nat) :
    c ∈ w.concernedIds ↔ w.s.carrier? c ≠ none ∧ w.concerns c = true := by
  rw [concernedIds, List.mem_filter, Table.mem_keys, Option.isSome_iff_ne_none]
  rfl

theorem concernedIds_sorted {w : Work} (h : w.s.carriers.Sorted) : w.concernedIds.Pairwise (fun c d => c < d) :=
  (List.pairwise_map.2 h).filter _

theorem pictureChange_unchanged {w : Work}
    (h : ¬ (w.s.mode = .active ∧ w.s.cfg.broadcast.mode = .onChange ∧ ∃ i ∈ w.touched,
      (w.before.get i SegDyn.fresh).picture ≠ (w.s.seg i).picture ∧ inWindow w.s.window w.s.grid i = true)) :
    w.s.pictureChange w.codeChanges = w.s := by
  unfold State.pictureChange
  refine if_neg fun hx => h ?_
  simpa [State.effectiveMode_onChange, codeChanges, and_assoc] using hx

theorem pictureChange_changed {w : Work}
    (h : w.s.mode = .active ∧ w.s.cfg.broadcast.mode = .onChange ∧ ∃ i ∈ w.touched,
      (w.before.get i SegDyn.fresh).picture ≠ (w.s.seg i).picture ∧ inWindow w.s.window w.s.grid i = true) :
    w.s.pictureChange w.codeChanges = w.s.startOrRerun := by
  unfold State.pictureChange
  refine if_pos ?_
  simpa [State.effectiveMode_onChange, codeChanges, and_assoc] using h

/-- The report to the Picture Broadcaster leaves what the part holds of the carriers. -/
theorem alike_pictured {w : Work} {p : State} (h : Pictured w.s p) (c : Nat) : Alike c w { w with s := p } := by
  have hrest := h.rest
  refine ⟨rfl, rfl, rfl, ?_, ?_, ?_, ?_, ?_, ?_, ?_, ?_, fun k => (h.radios k).state⟩
  all_goals
    show _ = _
    rw [hrest]
    try rfl

theorem concernedIds_pictured {w : Work} {p : State} (h : Pictured w.s p) :
    ({ w with s := p } : Work).concernedIds = w.concernedIds := by
  have hcarriers : p.carriers = w.s.carriers := by rw [h.rest]
  have hseg : ∀ i, p.seg i = w.s.seg i := fun i => by unfold State.seg; rw [h.rest]
  show p.carriers.keys.filter _ = _
  rw [hcarriers]
  refine List.filter_congr fun c _ => ?_
  show (w.runs.contains c || w.touched.any (fun i =>
    (p.seg i).ownedBy (.carrier c) || decide ((p.seg i).intruder = some (.carrier c)))) = _
  simp only [hseg]
  rfl

theorem waiting_ran {w : Work} {p : State} (hp : Pictured w.s p) {cs : List Nat} (h : ∀ c ∈ cs, w.report ≠ some c) :
    (({ w with s := p } : Work).runEach cs).s.waiting = w.s.waiting := by
  refine (waiting_runEach ({ w with s := p } : Work) h).trans ?_
  show p.waiting = _
  rw [hp.rest]

/-- What the runs at the end of a request leave of each carrier and put on the radio links, with what the report to
the Picture Broadcaster left (R75 to R77, R83, R127, R128). -/
theorem ran_of_split {w : Work} {p : State} (hp : Pictured w.s p) {pre post : List Nat} {c : Nat}
    (hnodup : (pre ++ c :: post).Nodup) {u v : Work}
    (hu : u = ({ w with s := p } : Work).runEach (pre ++ c :: post))
    (hv : v = ({ w with s := p } : Work).runEach pre) :
    Alike c (w.authorityRun c false) u ∧ (w.report = some c → u.s.waiting = (w.tested c).s.waiting) ∧
      ({ w with s := p } : Work).runEach (pre ++ [c]) = v.authorityRun c false ∧
      Alike c w v := by
  obtain ⟨hpre, hpost⟩ : c ∉ pre ∧ c ∉ post := by
    rw [List.nodup_middle, List.nodup_cons, List.mem_append, not_or] at hnodup
    exact hnodup.1
  have hlike : Alike c w v := hv ▸ (alike_pictured hp c).trans (alike_runEach _ hpre)
  have hlast : u = (v.authorityRun c false).runEach post := by rw [hu, hv, runEach_append, runEach_cons]
  refine ⟨hlast ▸ (hlike.authorityRun false).trans (alike_runEach _ hpost), fun hreport => ?_,
    by rw [hv, runEach_append]; rfl, hlike⟩
  have hnot : ∀ cs : List Nat, c ∉ cs → ∀ x : Work, x.report = some c → ∀ d ∈ cs, x.report ≠ some d :=
    fun cs hcs x hx d hd heq => hcs (Option.some.inj (hx.symm.trans heq) ▸ hd)
  have hwaiting : v.s.waiting = w.s.waiting := by
    rw [hv]
    exact waiting_ran hp (hnot pre hpre w hreport)
  have hran : (v.authorityRun c false).report = some c := (hlike.authorityRun false).report.trans
    ((w.authorityRun_effect c false).choose_spec.choose_spec.grown.report.trans hreport)
  rw [hlast, waiting_runEach _ (hnot post hpost _ hran), waiting_authorityRun, hlike.waiting_tested hwaiting]

/-- The end of a request without re-examination: the report to the Picture Broadcaster and then the runs (R21, R75). -/
theorem finish_ran (w : Work) (h : w.reexam = false) :
    w.finish = (({ w with s := w.s.pictureChange w.codeChanges } : Work).runEach w.concernedIds).s := by
  have hx : w.on (fun s => s.pictureChange w.codeChanges) = { w with s := w.s.pictureChange w.codeChanges } := rfl
  rw [w.finish_of_quiet h, hx, ← concernedIds_pictured (pictureChange_pictured w.s w.codeChanges)]
  rfl

end Work

/-- Settles O25. -/
theorem endOfRequest : Obligations.EndOfRequest := by
  unfold Obligations.EndOfRequest
  intro w
  refine ⟨w.finish_of_reexam, fun hquiet hsorted concerned p changed hconcerned hchanged hsame hstart hrerun => ?_⟩
  have hp : p = w.s.pictureChange w.codeChanges := by
    by_cases hc : changed
    · rw [Work.pictureChange_changed (hchanged.1 hc), State.startOrRerun]
      cases hsince : w.s.cycle.since with
      | none => exact hstart hc hsince
      | some t => exact hrerun hc (by simp [hsince])
    · rw [Work.pictureChange_unchanged (mt hchanged.2 hc)]
      exact hsame hc
  have hpictured : Pictured w.s p := hp ▸ pictureChange_pictured w.s w.codeChanges
  have hmem : ∀ c, c ∈ w.concernedIds ↔ w.s.carrier? c ≠ none ∧ concerned c := fun c => by
    rw [w.mem_concernedIds, w.concerns_iff, hconcerned]
  have hfinish : w.finish = (({ w with s := p } : Work).runEach w.concernedIds).s := by
    rw [hp]
    exact w.finish_ran hquiet
  have hnodup : w.concernedIds.Nodup := (Work.concernedIds_sorted hsorted).imp (fun h => Nat.ne_of_lt h)
  obtain ⟨n, es, hruns⟩ := ({ w with s := p } : Work).runEach_effect w.concernedIds
  refine ⟨fun c r hr hc => ?_, ?_, fun hreport => w.finish_onlyRuns hreport (.inl hquiet), hpictured.rest,
    hpictured.radios, hpictured.dlinks, w.concernedIds, hmem, Work.concernedIds_sorted hsorted, hfinish, ?_,
    fun hnone => ?_⟩
  · have hlike := (Work.alike_pictured hpictured c).trans (Work.alike_runEach _ (mt (fun h => ((hmem c).1 h).2) hc))
    rw [hfinish]
    exact ⟨hlike.carrier.trans hr, hlike.route, hlike.version⟩
  · rw [hfinish, hruns.only.eq]
    show _ = _
    rw [hpictured.rest]
    rfl
  · intro pre post c x r e f t y z hcs hx hr he ht hf hy hz
    have hx' : x = w.tested c := hx
    subst hx'
    obtain ⟨hlike, hwaiting, hran, hbefore⟩ := Work.ran_of_split hpictured (hcs ▸ hnodup)
      (congrArg (Work.runEach _) hcs) rfl
    have hframe : f = w.runFrame c r false := by
      rw [Work.runFrame_eq w c r false hr, hf, he, ht]
    rw [hfinish, ht]
    refine ⟨hlike.carrier, hlike.route, hlike.version, hwaiting, fun k hk goes hgoes => ?_⟩
    have hz' : z = ((({ w with s := p } : Work).runEach pre).authorityRun c false).s := hz.trans (congrArg Work.s hran)
    rw [hz', hy, hframe, ← hbefore.runFrame]
    refine Work.radio_authorityRun (hbefore.tested.carrier.trans hr) false hk goes ?_
    rw [hgoes, hbefore.links, hbefore.learning, hbefore.runFrame, hframe]
  · rw [hfinish]
    exact Work.waiting_ran hpictured hnone

end Sys2Proof.Machine
end

section
/-! Cranes: their requests, their hoist locks and the ground of their legs (R40 to R42, R96, R98, R108). -/

namespace Sys2Proof.Machine

/-! ## A request of a crane (R108) -/

/-- A request of a present crane that finds room is answered as its owner answers it. -/
theorem next_craneRequest {s u t : State} {k : Nat} {owner : Owner} {r : Reply} (hu : u = s.craneArrival k)
    (hp : (s.craneCfg k).present = true) (hroom : s.craneRoom k) (howner : owner u = (t, r)) :
    (Host.Outcome.next (s.craneRequest k owner).pump : Host.Outcome State Fault Refusal) =
      .next (t.craneAnswered k r) := by
  rw [craneRequest_room s k owner hp hroom, ← hu, howner]

theorem State.craneCfg_craneArrival {s u : State} {k : Nat} (hu : u = s.craneArrival k) (m : Nat) :
    u.craneCfg m = s.craneCfg m := by
  rw [hu]
  rfl

namespace Work

theorem onCrane_effect (w : Work) (k : Nat) (f : Crane → Crane) :
    Effect [.cranes] (fun _ => False) [] w (w.onCrane k f) :=
  w.on_effect [.cranes] (.of_eq (t := w.s.onCrane k f) rfl)

theorem crane_onCrane (w : Work) (k m : Nat) (f : Crane → Crane) :
    (w.onCrane k f).s.crane m = if m = k then f (w.s.crane k) else w.s.crane m := State.crane_onCrane _ _ _

end Work

/-! ## Hoist locks (R40, R96) -/

theorem Reasons.join_join (a b : Reasons) : (a.join b).join b = a.join b := by
  simp [Reasons.join]

theorem Reasons.without_without (a b : Reasons) : (a.without b).without b = a.without b := by
  simp [Reasons.without]

theorem Table.del_del {α : Type} (t : Table α) (k : Nat) : (t.del k).del k = t.del k := by
  simp [Table.del, List.filter_filter]

theorem Table.get_del {α : Type} (t : Table α) (k m : Nat) (d : α) :
    (t.del k).get m d = if m = k then d else t.get m d := by
  unfold Table.get
  rw [Table.get?_del]
  split <;> rfl

namespace SegDyn

theorem reasonsOf_addLock (k m : Nat) (rs : Reasons) (r : SegDyn) :
    (r.addLock k rs).reasonsOf m = if m = k then (r.reasonsOf k).join rs else r.reasonsOf m :=
  Table.get_put _ _ _ _ _

theorem reasonsOf_removeLock (k m : Nat) (rs : Reasons) (r : SegDyn) :
    (r.removeLock k rs).reasonsOf m = if m = k then (r.reasonsOf k).without rs else r.reasonsOf m := by
  unfold removeLock
  by_cases h : (r.reasonsOf k).without rs = Reasons.none_
  · simp only [h, if_true]
    exact Table.get_del _ _ _ _
  · simp only [h, if_false]
    exact Table.get_put _ _ _ _ _

theorem addLock_idem (k : Nat) (rs : Reasons) (r : SegDyn) : (r.addLock k rs).addLock k rs = r.addLock k rs := by
  have hjoin : ((r.addLock k rs).reasonsOf k).join rs = (r.reasonsOf k).join rs := by
    rw [reasonsOf_addLock, if_pos rfl, Reasons.join_join]
  show ({ r.addLock k rs with lock := (r.addLock k rs).lock.put k (((r.addLock k rs).reasonsOf k).join rs) } : SegDyn) = _
  rw [hjoin]
  exact congrArg (fun t => { r with lock := t }) (Table.put_put _ _ _ _)

theorem removeLock_eq {r : SegDyn} {k : Nat} {rs left : Reasons} (h : (r.reasonsOf k).without rs = left) :
    r.removeLock k rs = { r with lock := if left = Reasons.none_ then r.lock.del k else r.lock.put k left } := by
  rw [← h]
  rfl

theorem removeLock_idem (k : Nat) (rs : Reasons) (r : SegDyn) :
    (r.removeLock k rs).removeLock k rs = r.removeLock k rs := by
  have hleft : ((r.removeLock k rs).reasonsOf k).without rs = (r.reasonsOf k).without rs := by
    rw [reasonsOf_removeLock, if_pos rfl, Reasons.without_without]
  rw [removeLock_eq hleft, removeLock_eq (r := r) rfl]
  by_cases h : (r.reasonsOf k).without rs = Reasons.none_
  · simp only [h, if_true, Table.del_del]
  · simp only [h, if_false, Table.put_put]

end SegDyn

namespace Work

theorem removeLock_effect (w : Work) (k i : Nat) (rs : Reasons) :
    Effect [.segs] (fun _ => False) [] w (w.removeLock k i rs) :=
  w.onSegs_effect [i] (SegDyn.removeLock_idem k rs)

theorem seg_removeLock (w : Work) (k i : Nat) (rs : Reasons) (j : Nat) :
    (w.removeLock k i rs).s.seg j = if j = i then (w.s.seg j).removeLock k rs else w.s.seg j :=
  w.seg_onSeg i j _

/-- A lock that asks no AUTHORIZED carrier into EMERGENCY. -/
theorem addLock_of_quiet {w : Work} {i : Nat}
    (h : ∀ c x, (w.s.seg i).hold = .held (.carrier c) x → w.s.carrierIs c .authorized = false) (k : Nat)
    (rs : Reasons) : w.addLock k i rs = w.onSeg i (SegDyn.addLock k rs) := by
  unfold addLock
  split
  · next c x hhold => rw [h c x hhold]; rfl
  · rfl

end Work

/-- The reasons of all cranes together name a reason where the lock of one does. -/
theorem joined_iff (p : Reasons → Bool) (hjoin : ∀ a b, p (a.join b) = (p a || p b)) (l : List (Nat × Reasons))
    (a : Reasons) :
    p (l.foldl (fun a r => a.join r.2) a) = true ↔ p a = true ∨ ∃ x ∈ l, p x.2 = true := by
  induction l generalizing a with
  | nil => simp
  | cons x rest ih => simp [ih, hjoin, or_assoc]

theorem lockReasons_eq {t : Table Reasons} {reasons : Reasons}
    (hclaim : reasons.claim = true ↔ ∃ x ∈ t.rows, x.2.claim = true)
    (hviolation : reasons.violation = true ↔ ∃ x ∈ t.rows, x.2.violation = true)
    (hfault : reasons.fault = true ↔ ∃ x ∈ t.rows, x.2.fault = true)
    (hlink : reasons.link = true ↔ ∃ x ∈ t.rows, x.2.link = true) : lockReasons t = reasons := by
  have key : ∀ (p : Reasons → Bool), (∀ a b, p (a.join b) = (p a || p b)) → p Reasons.none_ = false →
      (p reasons = true ↔ ∃ x ∈ t.rows, p x.2 = true) → p (lockReasons t) = p reasons := fun p hjoin hnone h =>
    Bool.eq_iff_iff.2 ((joined_iff p hjoin t.rows _).trans (by rw [hnone, h]; simp))
  have h1 := key Reasons.claim (fun _ _ => rfl) rfl hclaim
  have h2 := key Reasons.violation (fun _ _ => rfl) rfl hviolation
  have h3 := key Reasons.fault (fun _ _ => rfl) rfl hfault
  have h4 := key Reasons.link (fun _ _ => rfl) rfl hlink
  show (⟨(lockReasons t).claim, (lockReasons t).violation, (lockReasons t).fault, (lockReasons t).link⟩ : Reasons) = _
  rw [h1, h2, h3, h4]

/-! ## The bays of a travel and the cells of its legs (R42, R109) -/

/-- The bays after one up to another, in order. -/
def baysBeyond (a b : Nat) : List Nat :=
  if a ≤ b then (List.range (b - a)).map (fun i => a + (i + 1)) else (List.range (a - b)).map (fun i => a - (i + 1))

theorem baysFrom_eq (a b : Nat) : baysFrom a b = a :: baysBeyond a b := by
  unfold baysFrom baysBeyond
  split <;> simp [List.range_succ_eq_map, Function.comp_def]

theorem mem_baysBeyond {a b x : Nat} : x ∈ baysBeyond a b ↔ (a < x ∧ x ≤ b) ∨ (b ≤ x ∧ x < a) := by
  unfold baysBeyond
  split
  · simp only [List.mem_map, List.mem_range]
    constructor
    · rintro ⟨i, hi, rfl⟩
      omega
    · exact fun h => ⟨x - a - 1, by omega, by omega⟩
  · simp only [List.mem_map, List.mem_range]
    constructor
    · rintro ⟨i, hi, rfl⟩
      omega
    · exact fun h => ⟨a - x - 1, by omega, by omega⟩

theorem length_baysBeyond (a b : Nat) : (baysBeyond a b).length = b - a + (a - b) := by
  unfold baysBeyond
  split <;> simp <;> omega

/-- The bays but the first are the bays beyond it. -/
theorem baysFrom_filter (a b : Nat) : (baysFrom a b).filter (fun x => decide (x ≠ a)) = baysBeyond a b := by
  rw [baysFrom_eq, List.filter_cons_of_neg (by simp), List.filter_eq_self]
  intro x hx
  have h := mem_baysBeyond.1 hx
  exact decide_eq_true (by omega)

theorem State.travelCells_eq (s : State) (k a b : Nat) :
    s.travelCells k a b = (baysBeyond a b).flatMap (s.legCells k) :=
  congrArg (List.flatMap (s.legCells k)) (baysFrom_filter a b)

theorem State.mem_legCells {s : State} {k x i : Nat} : i ∈ s.legCells k x ↔
    i = (s.craneCfg k).waterside * s.grid.bays + x ∨ i = (s.craneCfg k).landside * s.grid.bays + x := by
  simp [State.legCells, Grid.idAt]

theorem State.length_travelCells (s : State) (k a b : Nat) :
    (s.travelCells k a b).length = 2 * (b - a + (a - b)) := by
  rw [State.travelCells_eq, ← length_baysBeyond]
  generalize baysBeyond a b = l
  induction l with
  | nil => rfl
  | cons x rest ih => rw [List.flatMap_cons, List.length_append, ih]; simp [State.legCells]; omega

/-- The legs at a bay and beyond, without those at it. -/
theorem State.legsFrom_drop (s : State) (k a b : Nat) : (s.legsFrom k a b).drop 2 = s.travelCells k a b := by
  have h : s.legsFrom k a b = (baysFrom a b).flatMap (s.legCells k) := rfl
  rw [h, baysFrom_eq, State.travelCells_eq]
  rfl

end Sys2Proof.Machine
end

section
/-! GANTRY_REQUEST: a travel granted, or refused by the first check that fails (R42, R109). -/

namespace Sys2Proof.Machine

theorem SegDyn.travelCause_none {r : SegDyn} (hhold : r.hold = .free) (hoos : r.oos = ⟨false, false, false⟩)
    (hmark : r.intruder = none) : r.travelCause = none := by
  simp [SegDyn.travelCause, r.isFree_iff.2 hhold, r.inService_iff.2 hoos, hmark]

section
variable {u : State} {k b : Nat}

/-- Checks 1 to 6 of GANTRY_REQUEST pass (R109). -/
structure State.MayTravel (u : State) (k b : Nat) : Prop where
  mode : u.mode = .active
  state : (u.crane k).state = .standing
  bay : b < u.grid.bays
  other : b ≠ (u.crane k).at
  hoist : (u.crane k).filtered = .up
  claim : (u.crane k).claim = none

theorem State.gantryChecks_eq (h : u.MayTravel k b) : u.gantryChecks k b =
    match (u.slotCells k (u.crane k).at).find? (fun i => (u.seg i).isLocked) with
    | some i => .error (refuse 0x13 .locked [.half i, .byte (lockReasons (u.seg i).lock).code])
    | none => match (u.travelCells k (u.crane k).at b).find? (fun i => (u.seg i).travelCause.isSome) with
      | some i => .error (refuse 0x13 ((u.seg i).travelCause.getD .conflict)
          ((if (u.seg i).travelCause.getD .conflict = .conflict then partyVals (u.seg i).holder else []) ++ [.half i]))
      | none => .ok (u.travelCells k (u.crane k).at b) := by
  have hclaim : ¬ (u.crane k).claim.isSome = true := by simp [h.claim]
  exact (if_neg (not_not.2 h.mode)).trans <| (if_neg (not_not.2 h.state)).trans <| (if_neg (Nat.not_le.2 h.bay)).trans <|
    (if_neg h.other).trans <| (if_neg (not_not.2 h.hoist)).trans (if_neg hclaim)

theorem State.slotCells_unlocked {g : Nat}
    (h : ∀ lane ∈ (u.craneCfg k).slotLanes, (u.seg (lane * u.grid.bays + g)).lock.rows = []) :
    (u.slotCells k g).find? (fun i => (u.seg i).isLocked) = none := by
  simp only [State.slotCells, List.find?_eq_none, List.mem_map, SegDyn.isLocked_iff, not_not]
  rintro _ ⟨lane, hlane, rfl⟩
  exact h lane hlane

theorem State.slotCells_locked {g lane : Nat} {pre post : List Nat}
    (hlanes : (u.craneCfg k).slotLanes = pre ++ lane :: post)
    (hpre : ∀ x ∈ pre, (u.seg (x * u.grid.bays + g)).lock.rows = [])
    (hlocked : (u.seg (lane * u.grid.bays + g)).lock.rows ≠ []) :
    (u.slotCells k g).find? (fun i => (u.seg i).isLocked) = some (lane * u.grid.bays + g) := by
  rw [State.slotCells, hlanes, List.map_append, List.map_cons, List.find?_eq_some_iff_append]
  refine ⟨(SegDyn.isLocked_iff _).2 hlocked, _, _, rfl, fun i hi => ?_⟩
  obtain ⟨x, hx, rfl⟩ := List.mem_map.1 hi
  rw [Bool.not_eq_true', ← Bool.not_eq_true, SegDyn.isLocked_iff, not_not]
  exact hpre x hx

/-- A travel takes its cells, and the crane is TRAVELLING (R42, R109). -/
def Work.travelled (u : State) (k b : Nat) : Work :=
  ((Work.start u none).takeTravel k (u.travelCells k (u.crane k).at b)).onCrane k (fun c => { c with
    state := .travelling, target := some b })

theorem Work.travelled_effect (u : State) (k b : Nat) :
    Work.Effect [.segs, .cranes] (fun _ => False) [] (Work.start u none) (Work.travelled u k b) :=
  (((Work.start u none).onSegs_effect (u.travelCells k (u.crane k).at b) (Work.hold_idem (.crane k) .travel)).aside
    (Work.onCrane_effect _ k _)).said (by decide) (fun _ => by simp) rfl

theorem Work.seg_travelled (u : State) (k b i : Nat) : (Work.travelled u k b).s.seg i =
    if i ∈ u.travelCells k (u.crane k).at b then { u.seg i with hold := .held (.crane k) .travel } else u.seg i :=
  Work.seg_onSegs (Work.start u none) (u.travelCells k (u.crane k).at b) _ (Work.hold_idem (.crane k) .travel) i

theorem Work.crane_travelled (u : State) (k b m : Nat) : (Work.travelled u k b).s.crane m =
    if m = k then { u.crane k with state := .travelling, target := some b } else u.crane m := by
  have htake := (Work.start u none).onSegs_effect (u.travelCells k (u.crane k).at b) (Work.hold_idem (.crane k) .travel)
  rw [Work.travelled, Work.crane_onCrane, Work.takeTravel, htake.only.crane (by decide), htake.only.crane (by decide)]
  rfl

end

/-- Settles O46. -/
theorem gantryRequest : Obligations.GantryRequest := by
  unfold Obligations.GantryRequest
  intro s u k c b g cells hu hc hp hroom hg
  have hcfg : u.craneCfg k = s.craneCfg k := State.craneCfg_craneArrival hu k
  have hbay : g = (u.crane k).at := by rw [hg, hc]; rfl
  have hrefused : ∀ reply, u.gantryChecks k b = .error reply → ownGantry k b u = (u, reply) := fun reply h => by
    unfold ownGantry
    rw [h]
  subst hc
  subst hbay
  rw [← hcfg]
  refine ⟨fun why detail h => ?_, fun pre post lane i reasons hmode hstate hb hother hhoist hclaim hlanes hi hpre hlocked
    hcl hvi hfa hli => ?_, fun pre post i why detail hmode hstate hb hother hhoist hclaim hunlocked hcells hpre h => ?_,
    fun hmode hstate hb hother hhoist hclaim hunlocked hcells hopen => ?_⟩
  · refine next_craneRequest hu hp hroom (hrefused _ ?_)
    unfold State.gantryChecks
    rcases h with ⟨hmode, rfl, rfl⟩ | ⟨hmode, hstate, rfl, rfl⟩ | ⟨hmode, hstate, h⟩
    · simp [hmode, refuse]
    · simp [hmode, hstate, refuse]
    · rcases h with ⟨hb, rfl, rfl⟩ | ⟨hb, rfl, rfl, rfl⟩ | ⟨hb, hother, hhoist, rfl, rfl⟩ |
        ⟨hb, hother, hhoist, hclaim, rfl, rfl⟩
      · simp [hmode, hstate, hb, refuse]
      · simp [hmode, hstate, hb, refuse]
      · simp [hmode, hstate, Nat.not_le.2 hb, hother, hhoist, refuse]
      · simp [hmode, hstate, Nat.not_le.2 hb, hother, hhoist, Option.isSome_iff_ne_none.2 hclaim, refuse]
  · refine next_craneRequest hu hp hroom (hrefused _ ?_)
    rw [State.gantryChecks_eq ⟨hmode, hstate, hb, hother, hhoist, hclaim⟩,
      State.slotCells_locked hlanes hpre (hi ▸ hlocked), ← hi]
    dsimp only
    rw [lockReasons_eq hcl hvi hfa hli]
    rfl
  · refine next_craneRequest hu hp hroom (hrefused _ ?_)
    rw [State.legsFrom_drop] at hcells
    have hfind : ∀ why', (u.seg i).travelCause = some why' →
        (u.travelCells k (u.crane k).at b).find? (fun i => (u.seg i).travelCause.isSome) = some i := fun why' hwhy => by
      rw [hcells, List.find?_eq_some_iff_append]
      refine ⟨by rw [hwhy]; rfl, _, _, rfl, fun j hj => ?_⟩
      obtain ⟨hhold, hoos, hmark⟩ := hpre j hj
      rw [SegDyn.travelCause_none hhold hoos hmark]
      rfl
    have hcheck : ∀ why', (u.seg i).travelCause = some why' → u.gantryChecks k b = .error (refuse 0x13 why'
        ((if why' = .conflict then partyVals (u.seg i).holder else []) ++ [.half i])) := fun why' hwhy => by
      rw [State.gantryChecks_eq ⟨hmode, hstate, hb, hother, hhoist, hclaim⟩,
        State.slotCells_unlocked hunlocked, hfind why' hwhy]
      dsimp only
      rw [hwhy]
      rfl
    rcases h with ⟨hhold, rfl, rfl⟩ | ⟨hhold, hoos, rfl, rfl⟩ | ⟨hhold, hoos, hmark, rfl, rfl⟩
    · refine hcheck .conflict ?_
      simp [SegDyn.travelCause, mt (u.seg i).isFree_iff.1 hhold]
    · refine hcheck .outOfService ?_
      simp [SegDyn.travelCause, (u.seg i).isFree_iff.2 hhold, mt (u.seg i).inService_iff.1 hoos]
    · refine hcheck .intruded ?_
      simp [SegDyn.travelCause, (u.seg i).isFree_iff.2 hhold, (u.seg i).inService_iff.2 hoos,
        Option.isSome_iff_ne_none.2 hmark]
  · have hmem : ∀ i, i ∈ u.travelCells k (u.crane k).at b ↔ i ∈ cells := fun i => by
      rw [hcells, State.travelCells_eq, List.mem_flatMap]
      simp only [mem_baysBeyond, State.mem_legCells]
    have hnone : (u.travelCells k (u.crane k).at b).find? (fun i => (u.seg i).travelCause.isSome) = none := by
      rw [List.find?_eq_none]
      intro i hi
      obtain ⟨hhold, hoos, hmark⟩ := hopen i ((hmem i).1 hi)
      rw [SegDyn.travelCause_none hhold hoos hmark]
      exact Bool.false_ne_true
    have heffect := Work.travelled_effect u k b
    refine ⟨Work.travelled u k b, next_craneRequest hu hp hroom ?_, heffect.grown, ?_, ?_, fun j hj => ?_, fun i => ?_,
      heffect.only.eq⟩
    · unfold ownGantry
      rw [State.gantryChecks_eq ⟨hmode, hstate, hb, hother, hhoist, hclaim⟩,
        State.slotCells_unlocked hunlocked, hnone]
      dsimp only
      rw [State.length_travelCells]
      rfl
    · exact heffect.reexam_eq fun i => by
        rw [Work.seg_travelled]
        split
        · exact Work.hold_calm (.crane k) .travel (u.seg i)
        · exact SegDyn.callsFor_self _
    · rw [Work.crane_travelled, if_pos rfl]
    · rw [Work.crane_travelled, if_neg hj]
    · rw [Work.seg_travelled]
      exact if_congr (hmem i) rfl rfl

end Sys2Proof.Machine
end

section
/-! Claims: LOWER_REQUEST and SLOT_RELEASE with their refusals, and the deadline of a claim (R103 to R106). -/

namespace Sys2Proof.Machine

namespace Work

/-! ## A claim that ends (R105, R106) -/

theorem Grown.flagged {w v : Work} {n : Nat → Prop} (h : w.Grown v n) (b : Bool) : w.Grown (v.flagged b) n :=
  ⟨h.before, h.touched, h.runs, h.bumped, h.settled, h.report⟩

theorem craneSend_effect (w : Work) (k : Nat) (f : CraneFrame) :
    Effect [.craneLinks] (fun _ => False) [] w (w.on (fun s => s.craneSend k f)) :=
  w.on_effect [.craneLinks] (.of_eq (t := w.s.craneSend k f) rfl)

theorem craneLink_craneSend (w : Work) (k m : Nat) (f : CraneFrame) :
    (w.on (fun s => s.craneSend k f)).s.craneLink m =
      if m = k then ((w.s.craneLink k).join f).transmit else w.s.craneLink m :=
  State.craneLink_onCraneLink _ _ _

/-- CLAIM leaves the lock of a segment, and the claim its crane. -/
def claimOff (w : Work) (k i : Nat) : Work := (w.removeLock k i Reasons.ofClaim).onCrane k Crane.dropClaim

section
variable (w : Work) (k i : Nat)

theorem claimOff_effect : Effect [.segs, .cranes] (fun _ => False) [] w (w.claimOff k i) :=
  ((w.removeLock_effect k i Reasons.ofClaim).aside (onCrane_effect _ k _)).said (by decide) (fun _ => by simp) rfl

theorem seg_claimOff (j : Nat) : (w.claimOff k i).s.seg j =
    if j = i then (w.s.seg j).removeLock k Reasons.ofClaim else w.s.seg j := w.seg_removeLock k i Reasons.ofClaim j

theorem crane_claimOff (m : Nat) : (w.claimOff k i).s.crane m =
    if m = k then { w.s.crane k with claim := none } else w.s.crane m := by
  have hlock := (w.removeLock_effect k i Reasons.ofClaim).only
  rw [claimOff, crane_onCrane, hlock.crane (by decide), hlock.crane (by decide)]
  rfl

end

/-- LOWER_REVOKED is sent to a crane (R105, R108). -/
def revoked (w : Work) (k slot : Nat) : Work := w.on (fun s => s.lowerRevoked k slot)

theorem revoked_effect (w : Work) (k slot : Nat) : Effect [.craneLinks] (fun _ => False) [] w (w.revoked k slot) :=
  w.craneSend_effect k (.lowerRevoked (w.s.crane k).lastSeq slot)

theorem craneLink_revoked (w : Work) (k slot m : Nat) : (w.revoked k slot).s.craneLink m =
    if m = k then ((w.s.craneLink k).join (.lowerRevoked (w.s.crane k).lastSeq slot)).transmit
    else w.s.craneLink m := w.craneLink_craneSend k m (.lowerRevoked (w.s.crane k).lastSeq slot)

theorem craneLink_of_only {F : List Field} {s t : State} (h : State.Only F s t) (hF : Field.craneLinks ∉ F) (m : Nat) :
    t.craneLink m = s.craneLink m := by
  unfold State.craneLink
  rw [h.craneLinks hF]

/-- A claim lapses, whether or not that calls for re-examination. -/
def lapsed (w : Work) (k : Nat) (m : Claim) (cause : LapseCause) : Work :=
  ((w.claimOff k (w.s.claimCell k m)).revoked k m.slot).post .claimLapsed (.crane k)
    [.byte m.slot, .half (w.s.claimCell k m), .byte cause.code]

section
variable (w : Work) (k : Nat) (m : Claim) (cause : LapseCause)

theorem lapse_eq : w.lapse k m cause =
    if cause.reexamines = true then (w.lapsed k m cause).flagged true else w.lapsed k m cause := by
  unfold lapse
  split <;> rfl

theorem revokedOff_effect (i : Nat) :
    Effect [.segs, .cranes, .craneLinks] (fun _ => False) [] w ((w.claimOff k i).revoked k m.slot) :=
  ((w.claimOff_effect k i).aside (revoked_effect _ k m.slot)).said (by decide) (fun _ => by simp) rfl

theorem lapsed_effect : Effect [.segs, .cranes, .craneLinks, .dispatch] (fun _ => False)
    [⟨.claimLapsed, w.s.now, .crane k, [.byte m.slot, .half (w.s.claimCell k m), .byte cause.code]⟩] w
    (w.lapsed k m cause) := by
  have hoff := w.revokedOff_effect k m (w.s.claimCell k m)
  have hpost := post_effect ((w.claimOff k (w.s.claimCell k m)).revoked k m.slot) .claimLapsed (.crane k)
    [.byte m.slot, .half (w.s.claimCell k m), .byte cause.code]
  rw [hoff.only.now] at hpost
  exact (hoff.aside hpost).said (by decide) (fun _ => by simp) rfl

theorem seg_lapsed (j : Nat) : (w.lapsed k m cause).s.seg j =
    if j = w.s.claimCell k m then (w.s.seg j).removeLock k Reasons.ofClaim else w.s.seg j := by
  rw [lapsed, (post_effect _ _ _ _).only.seg (by decide), (revoked_effect _ k m.slot).only.seg (by decide),
    seg_claimOff]

theorem crane_lapsed (n : Nat) : (w.lapsed k m cause).s.crane n =
    if n = k then { w.s.crane k with claim := none } else w.s.crane n := by
  rw [lapsed, (post_effect _ _ _ _).only.crane (by decide), (revoked_effect _ k m.slot).only.crane (by decide),
    crane_claimOff]

theorem craneLink_lapsed (n : Nat) : (w.lapsed k m cause).s.craneLink n =
    if n = k then ((w.s.craneLink k).join (.lowerRevoked (w.s.crane k).lastSeq m.slot)).transmit
    else w.s.craneLink n := by
  have hoff := (w.claimOff_effect k (w.s.claimCell k m)).only
  rw [lapsed, craneLink_of_only (post_effect _ _ _ _).only (by decide), craneLink_revoked,
    craneLink_of_only hoff (by decide), craneLink_of_only hoff (by decide), crane_claimOff, if_pos rfl]

end

end Work

/-- CLAIM leaves the lock of one segment, and no other reason (R96). -/
theorem claim_leaves {u t : State} {k i : Nat}
    (h : ∀ j, t.seg j = if j = i then (u.seg j).removeLock k Reasons.ofClaim else u.seg j) :
    (t.seg i).reasonsOf k = { (u.seg i).reasonsOf k with claim := false } ∧
      (∀ j, j ≠ k → (t.seg i).reasonsOf j = (u.seg i).reasonsOf j) ∧ (∀ j, j ≠ i → t.seg j = u.seg j) ∧
      (t.seg i).hold = (u.seg i).hold ∧ (t.seg i).oos = (u.seg i).oos ∧ (t.seg i).intruder = (u.seg i).intruder := by
  rw [h i, if_pos rfl]
  refine ⟨?_, fun j hj => ?_, fun j hj => ?_, rfl, rfl, rfl⟩
  · rw [SegDyn.reasonsOf_removeLock, if_pos rfl]
    simp [Reasons.without, Reasons.ofClaim]
  · rw [SegDyn.reasonsOf_removeLock, if_neg hj]
  · rw [h j, if_neg hj]

/-! ## The checks of LOWER_REQUEST (R103) -/

section
variable {u : State} {k t i : Nat}

theorem State.lowerable_iff : u.lowerable i = true ↔ (u.seg i).hold = .free ∨ ∃ b r,
    (u.seg i).hold = .held (.carrier b) .standing ∧ u.carrier? b = some r ∧ r.state = .idle ∧ r.speed = 0 := by
  unfold State.lowerable
  split
  · next h => simp [h]
  · next b h =>
    rw [h]
    cases hr : u.carrier? b with
    | none => simp [hr]
    | some r => simp [hr]
  · next hfree hstanding =>
    refine iff_of_false Bool.false_ne_true ?_
    rintro (h | ⟨b, r, h, -⟩)
    · exact hfree h
    · exact hstanding b h

/-- The checks of LOWER_REQUEST before those of the segment pass (R103). -/
structure State.MayLower (u : State) (k t : Nat) : Prop where
  mode : u.mode = .active
  state : (u.crane k).state = .standing
  claim : (u.crane k).claim = none
  slot : t < (u.craneCfg k).slotLanes.length
  enabled : (u.craneCfg k).enable.getLsbD t = true

/-- The checks of the slot segment (R103). -/
def State.lowerSegment (u : State) (i : Nat) : Except Reply Nat :=
  if !(u.seg i).inService then .error (refuse 0x11 .outOfService [.half i])
  else if (u.seg i).intruder.isSome then .error (refuse 0x11 .intruded [.half i])
  else if (u.seg i).isLocked then .error (refuse 0x11 .locked (.half i :: lockCranes (u.seg i).lock))
  else if !u.lowerable i then .error (refuse 0x11 .conflict (.half i :: partyVals (u.seg i).holder))
  else .ok i

theorem State.lowerChecks_eq (h : u.MayLower k t) :
    u.lowerChecks k t = u.lowerSegment (u.slotCell k t (u.crane k).at) := by
  unfold State.lowerChecks
  dsimp only
  rw [if_neg (not_not.2 h.mode), if_neg (by rw [h.state]; decide), if_neg (not_not.2 h.state), h.claim]
  dsimp only
  rw [if_neg (Nat.not_le.2 h.slot), if_neg (by rw [h.enabled]; decide)]
  rfl

theorem SegDyn.not_inService_iff (r : SegDyn) : r.inService = false ↔ r.oos ≠ ⟨false, false, false⟩ := by
  rw [← Bool.not_eq_true, r.inService_iff]

theorem SegDyn.not_isLocked_iff (r : SegDyn) : r.isLocked = false ↔ r.lock.rows = [] := by
  rw [← Bool.not_eq_true, r.isLocked_iff, not_not]

end

/-! ## A claim granted (R103) -/

/-- CLAIM joins the lock of the slot segment, and the claim is GRANTED. -/
def Work.claimed (u : State) (k i : Nat) (m : Claim) : Work :=
  ((Work.start u none).onSegs [i] (SegDyn.addLock k Reasons.ofClaim)).onCrane k (fun c => { c with claim := some m })

section
variable (u : State) (k i : Nat) (m : Claim)

theorem Work.claimed_effect :
    Work.Effect [.segs, .cranes] (fun _ => False) [] (Work.start u none) (Work.claimed u k i m) :=
  (((Work.start u none).onSegs_effect [i] (SegDyn.addLock_idem k Reasons.ofClaim)).aside
    (Work.onCrane_effect _ k _)).said (by decide) (fun _ => by simp) rfl

theorem Work.seg_claimed (j : Nat) : (Work.claimed u k i m).s.seg j =
    if j = i then (u.seg j).addLock k Reasons.ofClaim else u.seg j := (Work.start u none).seg_onSeg i j _

theorem Work.crane_claimed (n : Nat) : (Work.claimed u k i m).s.crane n =
    if n = k then { u.crane k with claim := some m } else u.crane n := by
  have hlock := ((Work.start u none).onSegs_effect [i] (SegDyn.addLock_idem k Reasons.ofClaim)).only
  rw [Work.claimed, Work.crane_onCrane, hlock.crane (by decide), hlock.crane (by decide)]
  rfl

end

theorem SegDyn.addLock_first {r : SegDyn} (h : r.lock.rows = []) (k : Nat) (rs : Reasons) :
    r.addLock k rs = { r with lock := ⟨[(k, rs)]⟩ } := by
  have hlock : r.lock = ⟨[]⟩ := congrArg Table.mk h
  have hnone : r.reasonsOf k = Reasons.none_ := by rw [SegDyn.reasonsOf, hlock]; rfl
  unfold SegDyn.addLock
  rw [hnone, hlock]
  simp [Reasons.join, Reasons.none_, Table.put, putRow]

/-- LOWER_REQUEST of ground that is open to it is GRANTED (R103). -/
theorem ownLower_granted {u : State} {k t i : Nat} (h : u.MayLower k t) (hi : i = u.slotCell k t (u.crane k).at)
    (hoos : (u.seg i).oos = ⟨false, false, false⟩) (hmark : (u.seg i).intruder = none)
    (hlock : (u.seg i).lock.rows = []) (hlower : u.lowerable i = true) : ownLower k t u =
      ((Work.claimed u k i ⟨t, .granted, u.now, 1000 * (u.craneCfg k).window, false⟩).finish,
        ⟨0x11, .granted, .none_, false, [.byte t, .half i]⟩) := by
  have hok : u.lowerChecks k t = .ok i := by
    rw [State.lowerChecks_eq h, ← hi]
    unfold State.lowerSegment
    rw [(u.seg i).inService_iff.2 hoos, hmark, (u.seg i).not_isLocked_iff.2 hlock, hlower]
    rfl
  have hquiet : (Work.start u none).addLock k i Reasons.ofClaim =
      (Work.start u none).onSegs [i] (SegDyn.addLock k Reasons.ofClaim) := by
    refine Work.addLock_of_quiet (w := Work.start u none) (fun c x hhold => ?_) k Reasons.ofClaim
    rcases State.lowerable_iff.1 hlower with hfree | ⟨b, r, hstanding, hr, hidle, -⟩
    · exact absurd (hhold.symm.trans hfree) (fun h => nomatch h)
    · obtain rfl : b = c := Party.carrier.inj (Hold.held.inj (hstanding.symm.trans hhold)).1
      show u.carrierIs b .authorized = false
      rw [State.carrierIs, hr]
      exact decide_eq_false (by rw [hidle]; decide)
  unfold ownLower
  rw [hok]
  dsimp only
  unfold State.request
  dsimp only
  rw [hquiet]
  rfl

/-- A frame of a crane that is absent is counted and no more; a request of a present one that finds no room is
discarded (R98, R108). -/
theorem craneRequest_unheard {s u : State} {k : Nat} (hu : u = s.craneArrival k) (owner : Owner) :
    ((s.craneCfg k).present = false → s.craneRequest k owner = u) ∧
      ((s.craneCfg k).present = true → ¬ s.craneRoom k → s.craneRequest k owner =
        u.onCraneLink k (fun x => { x with unusable := min (x.unusable + 1) 65535 })) := by
  refine ⟨fun h => (takeCrane_absent s k _ h).trans hu.symm, fun h hfull => ?_⟩
  have hreplies : (u.craneLink k).replies = (s.craneLink k).replies := by
    rw [hu, State.craneArrival, State.craneLink_onCrane, State.craneLink_onCraneLink, if_pos rfl]
    rfl
  rw [State.craneRequest, takeCrane_present s k _ h, ← hu]
  exact if_pos (hreplies ▸ Nat.not_lt.1 hfull)

/-- Settles O45. -/
theorem claims : Obligations.Claims := by
  unfold Obligations.Claims
  intro s u k c hu hc _
  have hcfg : s.craneCfg k = u.craneCfg k := (State.craneCfg_craneArrival hu k).symm
  subst hc
  rw [hcfg]
  refine ⟨fun t i m hp hroom hmode hstate hclaim ht henable hi hoos hmark hlock hhold hm => ?_,
    fun m i hp hroom hmode hstate hclaim hphase hi => ?_, fun t i r why detail hp hroom hi hr h => ?_,
    fun hp hroom => ?_, fun t b i h => ?_, fun m i hclaim hvoid hphase hi => ?_⟩
  · have heffect := Work.claimed_effect u k i m
    have hlower : u.lowerable i = true := State.lowerable_iff.2 hhold
    refine ⟨Work.claimed u k i m, next_craneRequest hu (hcfg ▸ hp) hroom ?_, heffect.grown, ?_, ?_, fun j hj => ?_,
      fun j => ?_, heffect.only.eq⟩
    · rw [ownLower_granted ⟨hmode, hstate, hclaim, ht, henable⟩ hi hoos hmark hlock hlower, hm]
    · exact heffect.reexam_eq fun j => by
        rw [Work.seg_claimed]
        split
        · exact Work.addLock_calm k Reasons.ofClaim (u.seg j)
        · exact SegDyn.callsFor_self _
    · rw [Work.crane_claimed, if_pos rfl]
    · rw [Work.crane_claimed, if_neg hj]
    · rw [Work.seg_claimed]
      split
      · next h => rw [h, SegDyn.addLock_first hlock]; rfl
      · rfl
  · have heffect := (Work.start u none).claimOff_effect k i
    refine ⟨((Work.start u none).claimOff k i).flagged true, next_craneRequest hu (hcfg ▸ hp) hroom ?_,
      heffect.grown.flagged true, rfl, ?_, fun j hj => ?_, ?_⟩
    · unfold ownRelease
      dsimp only
      rw [if_neg (not_not.2 hmode), if_neg hstate, hclaim]
      dsimp only
      rw [if_neg hphase, ← hi]
      rfl
    · exact ((Work.start u none).crane_claimOff k i k).trans (if_pos rfl)
    · exact ((Work.start u none).crane_claimOff k i j).trans (if_neg hj)
    · obtain ⟨h1, h2, h3, h4, h5, h6⟩ := claim_leaves ((Work.start u none).seg_claimOff k i)
      exact ⟨h1, h2, h3, h4, h5, h6, heffect.only.eq⟩
  · have hrefused : u.lowerChecks k t = .error (refuse 0x11 why detail) →
        exec (.lowerRequest k t) s = .next (u.craneAnswered k ⟨0x11, .refused, why, false, detail⟩) := fun h =>
      next_craneRequest (owner := ownLower k t) hu (hcfg ▸ hp) hroom (by unfold ownLower; rw [h]; rfl)
    refine hrefused ?_
    subst hr
    rcases h with ⟨hmode, rfl, rfl⟩ | ⟨hmode, hstate, rfl, rfl⟩ | ⟨hmode, hmoving, hstate, rfl, rfl⟩ |
      ⟨hmode, hstate, h⟩
    · simp [State.lowerChecks, hmode]
    · simp [State.lowerChecks, hmode, hstate]
    · simp [State.lowerChecks, hmode, hmoving, hstate]
    rcases h with ⟨m, hclaim, rfl, rfl⟩ | ⟨hclaim, ht, rfl, rfl⟩ | ⟨hclaim, ht, h⟩
    · simp [State.lowerChecks, hmode, hstate, hclaim]
    · simp [State.lowerChecks, hmode, hstate, hclaim, ht]
    rcases h with ⟨henable, rfl, rfl⟩ | ⟨henable, h⟩
    · simp [State.lowerChecks, hmode, hstate, hclaim, Nat.not_le.2 ht, henable]
    have hi' : u.slotCell k t (u.crane k).at = i := hi.symm
    rw [State.lowerChecks_eq ⟨hmode, hstate, hclaim, ht, henable⟩, hi', State.lowerSegment]
    rcases h with ⟨hoos, rfl, rfl⟩ | ⟨hoos, hmark, rfl, rfl⟩ | ⟨hoos, hmark, hlock, rfl, rfl⟩ |
      ⟨hoos, hmark, hlock, hhold, hnot, rfl, rfl⟩
    · simp [(u.seg i).not_inService_iff.2 hoos]
    · simp [(u.seg i).inService_iff.2 hoos, Option.isSome_iff_ne_none.2 hmark]
    · simp [(u.seg i).inService_iff.2 hoos, hmark, (u.seg i).isLocked_iff.2 hlock, lockCranes, listVals, Table.keys,
        Function.comp_def]
    · have hlower : u.lowerable i = false := by
        rw [← Bool.not_eq_true, State.lowerable_iff]
        rintro (hfree | ⟨b, x, hstanding, hx, hidle, hspeed⟩)
        · exact hhold hfree
        · exact Nat.ne_of_gt (hnot b x hstanding hx hidle) hspeed
      simp [(u.seg i).inService_iff.2 hoos, hmark, (u.seg i).not_isLocked_iff.2 hlock, hlower]
  · have hrefused : ∀ why, ownRelease k u = (u, ⟨0x12, .refused, why, false, []⟩) →
        exec (.slotRelease k) s = .next (u.craneAnswered k ⟨0x12, .refused, why, false, []⟩) := fun why h =>
      next_craneRequest hu (hcfg ▸ hp) hroom h
    refine ⟨fun hmode => hrefused _ ?_, fun hmode hstate => hrefused _ ?_, fun hmode hstate hclaim => hrefused _ ?_,
      fun m hmode hstate hclaim hphase => hrefused _ ?_⟩
    · simp [ownRelease, hmode, refuse]
    · simp [ownRelease, hmode, hstate, refuse]
    · simp [ownRelease, hmode, hstate, hclaim, refuse]
    · simp [ownRelease, hmode, hstate, hclaim, hphase, refuse]
  · obtain ⟨owner, howner⟩ : ∃ owner, exec i s = .next (s.craneRequest k owner).pump := by
      rcases h with rfl | rfl | rfl
      exacts [⟨ownLower k t, rfl⟩, ⟨ownRelease k, rfl⟩, ⟨ownGantry k b, rfl⟩]
    obtain ⟨habsent, hfull⟩ := craneRequest_unheard hu owner
    rw [howner]
    exact ⟨fun hp => by rw [habsent (hcfg ▸ hp)], fun hp hroom => by rw [hfull (hcfg ▸ hp) hroom]⟩
  · have hlapse : exec (.claimLapsed k) s = .next (s.lapseClaim k).pump := rfl
    obtain ⟨cause, hcause, hreexam, hcode⟩ : ∃ cause : LapseCause,
        (m.window ≤ (s.now - m.start).toNat → m.lapseCause s.now = some cause) ∧ cause.reexamines = true ∧
        cause.code = if m.phase = .raised then 1 else 0 := by
      have hlapsed : m.window ≤ (s.now - m.start).toNat →
          (m.void || decide (elapsed s.now m.start < m.window)) = false := fun hdue => by
        rw [hvoid, Bool.false_or]
        exact decide_eq_false (Nat.not_lt.2 hdue)
      cases hph : m.phase with
      | inUse => exact absurd hph hphase
      | granted => exact ⟨.granted, fun hdue => by simp [Claim.lapseCause, hlapsed hdue, hph], rfl, rfl⟩
      | raised => exact ⟨.raised, fun hdue => by simp [Claim.lapseCause, hlapsed hdue, hph], rfl, rfl⟩
    rw [hlapse, State.lapseClaim, hclaim]
    dsimp only
    refine ⟨fun hearly => ?_, fun hdue => ?_⟩
    · have hnone : m.lapseCause s.now = none := if_pos (by
        rw [Bool.or_eq_true]
        exact .inr (decide_eq_true hearly))
      rw [hnone]
    · have heffect := (Work.start s none).lapsed_effect k m cause
      have hseg := (Work.start s none).seg_lapsed k m cause
      have hcrane := (Work.start s none).crane_lapsed k m cause
      have hlink := (Work.start s none).craneLink_lapsed k m cause
      obtain ⟨h1, h2, h3, h4, h5, h6⟩ := claim_leaves hseg
      have hcell : (Work.start s none).s.claimCell k m = i := hi.symm
      rw [hcell] at h1 h2 h3 h4 h5 h6
      refine ⟨((Work.start s none).lapsed k m cause).flagged true, ?_, heffect.grown.flagged true, rfl,
        (hcrane k).trans (if_pos rfl), fun j hj => (hcrane j).trans (if_neg hj), h1, h2, h3, h4, h5, h6,
        (hlink k).trans (if_pos rfl), fun j hj => (hlink j).trans (if_neg hj), fun l => ?_, heffect.only.eq⟩
      · rw [hcause hdue]
        dsimp only
        rw [State.request, Work.lapse_eq, if_pos hreexam]
      · have hpost := heffect.posts l
        rw [hcell, hcode] at hpost
        exact hpost

end Sys2Proof.Machine
end

section
/-! What every CLEAR_CRANE takes off: lock reasons of the crane and its marks (R96, R112). -/

namespace Sys2Proof.Machine

/-- A change of the hold and a change that leaves it share no field. -/
theorem SegDyn.Apart.of_hold {a b c : SegDyn} (hb : ∃ h, b = { a with hold := h }) (hc : c.hold = b.hold) :
    SegDyn.Apart a b c := by
  obtain ⟨h, rfl⟩ := hb
  exact ⟨.inr hc, .inl rfl, .inl rfl, .inl rfl⟩

theorem Reasons.without_of_not_meets {a b : Reasons} (h : a.meets b = false) : a.without b = a := by
  obtain ⟨a1, a2, a3, a4⟩ := a
  obtain ⟨b1, b2, b3, b4⟩ := b
  simp only [Reasons.meets, Bool.or_eq_false_iff] at h
  obtain ⟨⟨⟨h1, h2⟩, h3⟩, h4⟩ := h
  have key : ∀ x y : Bool, (x && y) = false → (x && !y) = x := by decide
  simp [Reasons.without, key _ _ h1, key _ _ h2, key _ _ h3, key _ _ h4]

theorem Reasons.meets_all (a : Reasons) : a.meets Reasons.all = true ↔ a ≠ ⟨false, false, false, false⟩ := by
  obtain ⟨a1, a2, a3, a4⟩ := a
  simp only [Reasons.meets, Reasons.all, Bool.and_true, ne_eq, Reasons.mk.injEq, Bool.or_eq_true]
  grind

theorem Reasons.without_all (a : Reasons) : a.without Reasons.all = ⟨false, false, false, false⟩ := by
  simp [Reasons.without, Reasons.all]

theorem Reasons.meets_ofViolation (a : Reasons) : a.meets Reasons.ofViolation = a.violation := by
  simp [Reasons.meets, Reasons.ofViolation]

theorem Reasons.without_ofViolation (a : Reasons) : a.without Reasons.ofViolation = { a with violation := false } := by
  simp [Reasons.without, Reasons.ofViolation]

/-- Lock reasons of a crane that a record holds, and its mark, taken off it. -/
def SegDyn.clearedOf (k : Nat) (rs : Reasons) (r : SegDyn) : SegDyn :=
  { (if (r.reasonsOf k).meets rs = true then r.removeLock k rs else r) with
    intruder := if r.intruder = some (.crane k) then none else r.intruder }

namespace SegDyn

variable (k : Nat) (rs : Reasons) (r : SegDyn)

theorem clearedOf_hold : (r.clearedOf k rs).hold = r.hold := by
  unfold clearedOf
  split <;> rfl

theorem clearedOf_oos : (r.clearedOf k rs).oos = r.oos := by
  unfold clearedOf
  split <;> rfl

theorem reasonsOf_clearedOf (m : Nat) : (r.clearedOf k rs).reasonsOf m =
    if m = k then (r.reasonsOf k).without rs else r.reasonsOf m := by
  unfold clearedOf
  split
  · exact reasonsOf_removeLock k m rs r
  · next h =>
    rw [Reasons.without_of_not_meets (Bool.not_eq_true _ ▸ h)]
    show r.reasonsOf m = _
    split
    · next hm => rw [hm]
    · rfl

end SegDyn

namespace Work

variable {w : Work} (k : Nat) (rs : Reasons)

/-- Lock reasons of a crane and its marks taken off every segment, before what that asks for. -/
def cleanedOf (w : Work) (k : Nat) (rs : Reasons) : Work := (w.removeLocks k rs).clearMarks (.crane k)

theorem clearOf_eq (w : Work) : w.clearOf k rs =
    (w.cleanedOf k rs).flagged ((w.cleanedOf k rs).reexam || !(w.s.lockedWith k rs).isEmpty) := rfl

theorem removeLocks_effect (w : Work) : Effect [.segs] (fun _ => False) [] w (w.removeLocks k rs) :=
  w.onSegs_effect _ (SegDyn.removeLock_idem k rs)

theorem mem_lockedWith {s : State} (hs : s.segs.Sorted) {i : Nat} :
    i ∈ s.lockedWith k rs ↔ ((s.seg i).reasonsOf k).meets rs = true := State.mem_segsWhere hs rfl

section
variable (hs : w.s.segs.Sorted)
include hs

theorem seg_removeLocks (i : Nat) : (w.removeLocks k rs).s.seg i =
    if ((w.s.seg i).reasonsOf k).meets rs = true then (w.s.seg i).removeLock k rs else w.s.seg i :=
  (seg_onSegs _ _ _ (SegDyn.removeLock_idem k rs) i).trans (if_congr (mem_lockedWith k rs hs) rfl rfl)

theorem removeLocks_sorted : (w.removeLocks k rs).s.segs.Sorted := onSegs_sorted hs _ _

theorem seg_cleanedOf (i : Nat) : (w.cleanedOf k rs).s.seg i = (w.s.seg i).clearedOf k rs := by
  have hmark : ((w.removeLocks k rs).s.seg i).intruder = (w.s.seg i).intruder := by
    rw [seg_removeLocks k rs hs]
    split <;> rfl
  rw [cleanedOf, seg_clearMarks (removeLocks_sorted k rs hs), hmark, seg_removeLocks k rs hs]
  rfl

theorem cleanedOf_effect : Effect [.segs] (fun _ => False) [] w (w.cleanedOf k rs) := by
  refine ((w.removeLocks_effect k rs).trans (clearMarks_effect _ (.crane k)) fun i => ?_).said (by decide)
    (fun _ => by simp) rfl
  have hlocks := seg_removeLocks k rs hs i
  have hmarks := seg_clearMarks (removeLocks_sorted k rs hs) (.crane k) i
  have hmark : ((w.removeLocks k rs).s.seg i).intruder = (w.s.seg i).intruder := by
    rw [hlocks]
    split <;> rfl
  rw [hmarks]
  exact ⟨.inr rfl, .inr rfl, .inr rfl, .inl hmark⟩

theorem lockedWith_isEmpty : (!(w.s.lockedWith k rs).isEmpty) = true ↔
    ∃ i, ((w.s.seg i).reasonsOf k).meets rs = true := by
  rw [Bool.not_eq_true', List.isEmpty_eq_false_iff_exists_mem]
  simp only [mem_lockedWith k rs hs]

/-- Each reason removed calls for re-examination, though another reason keeps the lock (R21, log entry 27). -/
theorem clearOf_reexam : (w.clearOf k rs).reexam = true ↔ w.reexam = true ∨ ∃ i,
    (w.s.seg i).intruder = some (.crane k) ∨ ((w.s.seg i).reasonsOf k).meets rs = true := by
  show ((w.cleanedOf k rs).reexam || !(w.s.lockedWith k rs).isEmpty) = true ↔ _
  rw [Bool.or_eq_true, (cleanedOf_effect k rs hs).reexam_iff, lockedWith_isEmpty k rs hs, or_assoc, ← exists_or]
  refine or_congr_right (exists_congr fun i => ?_)
  rw [seg_cleanedOf k rs hs, SegDyn.callsFor_iff, SegDyn.clearedOf_hold, SegDyn.clearedOf_oos]
  unfold SegDyn.clearedOf
  by_cases hm : ((w.s.seg i).reasonsOf k).meets rs = true
  · simp [hm]
  · by_cases hi : (w.s.seg i).intruder = some (.crane k) <;> simp [hm, hi]

end

end Work

end Sys2Proof.Machine
end

section
/-! CLEAR_CRANE by state, and its refusals (R42, R45, R112). -/

namespace Sys2Proof.Machine

/-! ## The checks (R112) -/

section
variable {u : State} {k : Nat}

/-- The checks of CLEAR_CRANE: those that refuse it, in order (R112). -/
def State.clearCraneTests (u : State) (k : Nat) (legs : List Nat) (moves : Prop) : List (Reason × (List Val → Prop)) := [
  (.badMode, fun d => u.mode = .config ∧ d = []), (.unknownCrane, fun d => 8 ≤ k ∧ d = []),
  (.badCraneState, fun d => (u.crane k).state = .offline ∧ d = []),
  (.hoistDown, fun d => (u.crane k).state ≠ .linkLost ∧ (u.crane k).filtered ≠ .up ∧ d = []),
  (.moving, fun d => moves ∧ (u.crane k).flags.stopped = false ∧ d = []),
  (.faultActive, fun d => moves ∧ (u.crane k).episode = true ∧ d = []),
  (.conflict, fun d => moves ∧ ∃ pre i post, legs = pre ++ i :: post ∧
    (∀ j ∈ pre, (u.seg j).hold = .free ∨ ∃ x, (u.seg j).hold = .held (.crane k) x) ∧ (u.seg i).hold ≠ .free ∧
    (∀ x, (u.seg i).hold ≠ .held (.crane k) x) ∧ d = .half i :: partyVals (u.seg i).holder)]

theorem State.firstHeldAgainst_first {u : State} {may : SegDyn → Bool} {ids pre post : List Nat} {i : Nat}
    (hids : ids = pre ++ i :: post) (hpre : ∀ j ∈ pre, may (u.seg j) = true) (hi : may (u.seg i) = false) :
    u.firstHeldAgainst ids may = some (i, (u.seg i).holder) := by
  have hfind : ids.find? (fun j => !(may (u.seg j))) = some i :=
    List.find?_eq_some_iff_append.2 ⟨by rw [hi]; rfl, pre, post, hids, fun j hj => by rw [hpre j hj]; rfl⟩
  rw [State.firstHeldAgainst, hfind]
  rfl

/-- The reply of an accepted CLEAR_CRANE (R112). -/
def State.clearedReply (t : State) (k n : Nat) : Reply :=
  accept 0x35 false [.byte (t.crane k).state.code, byteVal? (t.crane k).bay, .byte n]

/-- CLEAR_CRANE of a crane that travels or is halted, with its hoist up. -/
theorem ownClearCrane_moves (hmode : u.mode ≠ .config) (hk : k < 8)
    (hstate : (u.crane k).state = .travelling ∨ (u.crane k).state = .halted) (hup : (u.crane k).filtered = .up) :
    ownClearCrane k u =
      if !(u.crane k).flags.stopped then (u, refuse 0x35 .moving [])
      else if (u.crane k).episode then (u, refuse 0x35 .faultActive [])
      else match u.legConflict k (u.legCells k (u.crane k).at) with
        | some (i, holder) => (u, refuse 0x35 .conflict (.half i :: partyVals holder))
        | none => (u.request (fun w => w.clearHalted k), (u.request (fun w => w.clearHalted k)).clearedReply k
            (u.holdsBeyond k (u.legCells k (u.crane k).at)).length) := by
  unfold ownClearCrane
  rw [if_neg hmode, if_neg (Nat.not_le.2 hk)]
  dsimp only
  rcases hstate with h | h
  · rw [h]
    exact if_neg (not_not.2 hup)
  · rw [h]
    exact if_neg (not_not.2 hup)

theorem ownClearCrane_refused {moves : Prop}
    (hmoves : moves ↔ (u.crane k).state = .travelling ∨ (u.crane k).state = .halted) {why : Reason} {detail : List Val}
    (h : FirstFails (u.clearCraneTests k (u.legCells k (u.crane k).at) moves) why detail) :
    ownClearCrane k u = (u, refuse 0x35 why detail) := by
  rcases h with ⟨rfl, hm, rfl⟩ | ⟨hm, h⟩
  · exact if_pos hm
  have hmode : u.mode ≠ .config := fun h => hm _ ⟨h, rfl⟩
  rcases h with ⟨rfl, hk, rfl⟩ | ⟨hk, h⟩
  · exact (if_neg hmode).trans (if_pos hk)
  have hk' : ¬ k ≥ 8 := fun h => hk _ ⟨h, rfl⟩
  rcases h with ⟨rfl, hoff, rfl⟩ | ⟨hoff, h⟩
  · unfold ownClearCrane
    rw [if_neg hmode, if_neg hk']
    dsimp only
    rw [hoff]
  rcases h with ⟨rfl, hstate, hhoist, rfl⟩ | ⟨hhoist, h⟩
  · unfold ownClearCrane
    rw [if_neg hmode, if_neg hk']
    dsimp only
    cases hst : (u.crane k).state with
    | offline => exact absurd ⟨hst, rfl⟩ (hoff _)
    | linkLost => exact absurd hst hstate
    | standing => exact if_pos hhoist
    | travelling => exact if_pos hhoist
    | halted => exact if_pos hhoist
  obtain ⟨hst, h⟩ : moves ∧ FirstFails [
      (Reason.moving, fun d => (u.crane k).flags.stopped = false ∧ d = []),
      (.faultActive, fun d => (u.crane k).episode = true ∧ d = []),
      (.conflict, fun d => ∃ pre i post, u.legCells k (u.crane k).at = pre ++ i :: post ∧
        (∀ j ∈ pre, (u.seg j).hold = .free ∨ ∃ x, (u.seg j).hold = .held (.crane k) x) ∧ (u.seg i).hold ≠ .free ∧
        (∀ x, (u.seg i).hold ≠ .held (.crane k) x) ∧ d = .half i :: partyVals (u.seg i).holder)] why detail := by
    by_cases hmv : moves
    · simpa [hmv] using h
    · simp [FirstFails, hmv] at h
  have hlost : (u.crane k).state ≠ .linkLost := by
    rcases hmoves.1 hst with h | h <;> rw [h] <;> decide
  have hup : (u.crane k).filtered = .up := by_contra fun h => hhoist _ ⟨hlost, h, rfl⟩
  rw [ownClearCrane_moves hmode (Nat.not_le.1 hk') (hmoves.1 hst) hup]
  rcases h with ⟨rfl, hstop, rfl⟩ | ⟨hstop, h⟩
  · exact if_pos (by rw [hstop]; rfl)
  rw [if_neg (by simpa using hstop [])]
  rcases h with ⟨rfl, hep, rfl⟩ | ⟨hep, h⟩
  · exact if_pos hep
  rw [if_neg fun h => hep _ ⟨h, rfl⟩]
  rcases h with ⟨rfl, pre, i, post, hlegs, hpre, hfree, hother, rfl⟩ | h
  · rw [State.legConflict, State.firstHeldAgainst_first hlegs
      (fun j hj => (SegDyn.mayStand_iff _ _).2 (hpre j hj)) ((SegDyn.mayNotStand_iff _ _).2 ⟨hfree, hother⟩)]
  · exact h.2.elim

end

/-! ## The crane settles at its bay (R42, R112) -/

namespace Work

/-- The legs of a crane are taken where it stands, and its other holds go (R42). -/
def settledAt (u : State) (k : Nat) : Work :=
  ((Work.start u none).takeLegs k (u.legCells k (u.crane k).at)).release
    (u.holdsBeyond k (u.legCells k (u.crane k).at))

section
variable {u : State} {k : Nat} (hs : u.segs.Sorted)

theorem mem_holdsBeyond {u : State} {k : Nat} (hs : u.segs.Sorted) {cells : List Nat} {i : Nat} :
    i ∈ u.holdsBeyond k cells ↔ i ∉ cells ∧ ∃ x, (u.seg i).hold = .held (.crane k) x := by
  rw [State.holdsBeyond, List.mem_filter, State.mem_heldBy hs, and_comm]
  simp

include hs

theorem seg_settledAt (i : Nat) : (settledAt u k).s.seg i = { u.seg i with
    hold := if i ∈ u.legCells k (u.crane k).at then .held (.crane k) .leg
      else if i ∈ u.holdsBeyond k (u.legCells k (u.crane k).at) then .free else (u.seg i).hold } := by
  have hlegs : ((Work.start u none).takeLegs k (u.legCells k (u.crane k).at)).s.seg i = _ :=
    seg_onSegs (Work.start u none) _ _ (hold_idem (.crane k) .leg) i
  rw [settledAt, seg_release, hlegs]
  by_cases hi : i ∈ u.legCells k (u.crane k).at
  · have hnot : i ∉ u.holdsBeyond k (u.legCells k (u.crane k).at) := fun h => ((mem_holdsBeyond hs).1 h).1 hi
    simp [hi, hnot, SegDyn.hold_, Work.start]
  · by_cases hf : i ∈ u.holdsBeyond k (u.legCells k (u.crane k).at) <;> simp [hi, hf, Work.start]

theorem settledAt_effect : Effect [.segs] (fun _ => False) [] (Work.start u none) (settledAt u k) := by
  have hlegs : Effect [.segs] (fun _ => False) [] (Work.start u none)
      ((Work.start u none).takeLegs k (u.legCells k (u.crane k).at)) :=
    (Work.start u none).onSegs_effect _ (hold_idem (.crane k) .leg)
  refine (hlegs.trans (release_effect _ _) fun i => ?_).said (by decide) (fun _ => by simp) rfl
  by_cases hi : i ∈ u.legCells k (u.crane k).at
  · exact .of_right (seg_onSegs_of_not_mem _ _ _ fun h => ((mem_holdsBeyond hs).1 h).1 hi)
  · exact .of_left (seg_onSegs_of_not_mem _ _ _ hi)

theorem settledAt_reexam :
    (settledAt u k).reexam = true ↔ ∃ i, i ∈ u.holdsBeyond k (u.legCells k (u.crane k).at) := by
  refine ((settledAt_effect hs).reexam_iff.trans (or_iff_right Bool.false_ne_true)).trans (exists_congr fun i => ?_)
  rw [seg_settledAt hs, SegDyn.callsFor_iff]
  have hheld : i ∈ u.holdsBeyond k (u.legCells k (u.crane k).at) → (u.seg i).hold ≠ .free := fun h => by
    obtain ⟨x, hx⟩ := ((mem_holdsBeyond hs).1 h).2
    rw [hx]
    exact fun h => nomatch h
  have hbeyond : i ∈ u.holdsBeyond k (u.legCells k (u.crane k).at) → i ∉ u.legCells k (u.crane k).at :=
    fun h => ((mem_holdsBeyond hs).1 h).1
  by_cases hf : i ∈ u.holdsBeyond k (u.legCells k (u.crane k).at)
  · simp [hf, hbeyond hf, Work.start, hheld hf]
  · by_cases hi : i ∈ u.legCells k (u.crane k).at <;> simp [hi, hf, Work.start]

end

/-- A crane settled at its bay is STANDING, its violation and its marks off. -/
def rested (u : State) (k : Nat) : Work :=
  ((settledAt u k).cleanedOf k Reasons.ofViolation).onCrane k (fun c => { c with target := none, state := .standing })

/-- The end of a travel that a CLEAR_CRANE makes is notified (R112, log entry 57). -/
def reseated (u : State) (k : Nat) : Work :=
  if (u.crane k).state = .travelling then
    (rested u k).post .travelDone (.crane k) [.byte (u.crane k).at, .byte 1]
  else rested u k

section
variable {u : State} {k : Nat} (hs : u.segs.Sorted)
include hs

theorem settledAt_sorted : (settledAt u k).s.segs.Sorted :=
  Machine.Within.sorted (((Work.start u none).takeLegs_within k _).trans (release_within _ _)) hs

theorem seg_rested (i : Nat) : (rested u k).s.seg i = SegDyn.clearedOf k Reasons.ofViolation { u.seg i with
    hold := if i ∈ u.legCells k (u.crane k).at then .held (.crane k) .leg
      else if i ∈ u.holdsBeyond k (u.legCells k (u.crane k).at) then .free else (u.seg i).hold } := by
  rw [rested, (onCrane_effect _ k _).only.seg (by decide), seg_cleanedOf _ _ (settledAt_sorted hs), seg_settledAt hs]

theorem rested_effect : Effect [.segs, .cranes] (fun _ => False) [] (Work.start u none) (rested u k) := by
  have hsettle := settledAt_effect (k := k) hs
  have hclean := cleanedOf_effect k Reasons.ofViolation (settledAt_sorted (k := k) hs)
  refine ((hsettle.trans hclean fun i => ?_).aside (onCrane_effect _ k _)).said (by decide) (fun _ => by simp) rfl
  rw [seg_cleanedOf k Reasons.ofViolation (settledAt_sorted hs), seg_settledAt hs]
  exact .of_hold ⟨_, rfl⟩ (SegDyn.clearedOf_hold _ _ _)

theorem crane_rested (m : Nat) : (rested u k).s.crane m =
    if m = k then { u.crane k with state := .standing, target := none } else u.crane m := by
  have hsettle := (settledAt_effect (k := k) hs).only
  have hclean := (cleanedOf_effect k Reasons.ofViolation (settledAt_sorted (k := k) hs)).only
  rw [rested, crane_onCrane, hclean.crane (by decide), hclean.crane (by decide), hsettle.crane (by decide),
    hsettle.crane (by decide)]
  rfl

theorem reseated_effect : Effect [.segs, .cranes, .dispatch] (fun _ => False)
    (if (u.crane k).state = .travelling then [⟨.travelDone, u.now, .crane k, [.byte (u.crane k).at, .byte 1]⟩] else [])
    (Work.start u none) (reseated u k) := by
  have hrest := rested_effect (k := k) hs
  unfold reseated
  split
  · have hpost := post_effect (rested u k) .travelDone (.crane k) [.byte (u.crane k).at, .byte 1]
    rw [hrest.only.now] at hpost
    exact (hrest.aside hpost).said (by decide) (fun _ => by simp) rfl
  · exact hrest.said (by decide) (fun _ => Iff.rfl) rfl

end

theorem seg_reseated (u : State) (k i : Nat) : (reseated u k).s.seg i = (rested u k).s.seg i := by
  unfold reseated
  split
  · exact (post_effect _ _ _ _).only.seg (by decide) i
  · rfl

theorem crane_reseated (u : State) (k m : Nat) : (reseated u k).s.crane m = (rested u k).s.crane m := by
  unfold reseated
  split
  · exact (post_effect _ _ _ _).only.crane (by decide) m
  · rfl

theorem s_flagged (w : Work) (b : Bool) : (w.flagged b).s = w.s := rfl

theorem crane_flagged (w : Work) (b : Bool) (m : Nat) : (w.flagged b).s.crane m = w.s.crane m := rfl

theorem reexam_flagged (w : Work) (b : Bool) : (w.flagged b).reexam = b := rfl

theorem flagged_onCrane (w : Work) (b : Bool) (k : Nat) (f : Crane → Crane) :
    (w.flagged b).onCrane k f = (w.onCrane k f).flagged b := rfl

theorem flagged_post (w : Work) (b : Bool) (kind : NotifKind) (subject : Subject) (detail : List Val) :
    (w.flagged b).post kind subject detail = (w.post kind subject detail).flagged b := rfl

theorem clearHalted_unfold (w : Work) (k : Nat) : w.clearHalted k =
    if (w.s.crane k).state = .travelling then
      (((((w.takeLegs k (w.s.legCells k (w.s.crane k).at)).release
        (w.s.holdsBeyond k (w.s.legCells k (w.s.crane k).at))).clearOf k Reasons.ofViolation).onCrane k (fun c => { c with
          target := none, state := .standing })).post .travelDone (.crane k) [.byte (w.s.crane k).at, .byte 1])
    else ((((w.takeLegs k (w.s.legCells k (w.s.crane k).at)).release
        (w.s.holdsBeyond k (w.s.legCells k (w.s.crane k).at))).clearOf k Reasons.ofViolation).onCrane k (fun c => { c with
          target := none, state := .standing })) := rfl

/-- What CLEAR_CRANE makes of a crane that travels or is halted, and what that asks for. -/
theorem clearHalted_eq (u : State) (k : Nat) : (Work.start u none).clearHalted k =
    (reseated u k).flagged ((settledAt u k).clearOf k Reasons.ofViolation).reexam := by
  rw [clearHalted_unfold, reseated]
  show (if (u.crane k).state = .travelling then
    (((settledAt u k).clearOf k Reasons.ofViolation).onCrane k (fun c => { c with
      target := none, state := .standing })).post .travelDone (.crane k) [.byte (u.crane k).at, .byte 1]
    else ((settledAt u k).clearOf k Reasons.ofViolation).onCrane k (fun c => { c with
      target := none, state := .standing })) = _
  rw [clearOf_eq, flagged_onCrane, flagged_post, ← apply_ite (flagged _)]
  rfl

/-! ## The crane returned to new (R45, R112) -/

/-- The holds of a crane go, and its claim with LOWER_REVOKED and CLAIM_LAPSED (R106). -/
def unclaimed (u : State) (k : Nat) : Work :=
  match (u.crane k).claim with
  | some m => (((Work.start u none).release (u.ownedBy (.crane k))).lapsed k m .cleared).flagged true
  | none => (Work.start u none).release (u.ownedBy (.crane k))

theorem clearLost_unfold (w : Work) (k : Nat) : w.clearLost k =
    ((match ((w.release (w.s.ownedBy (.crane k))).s.crane k).claim with
    | some m => (w.release (w.s.ownedBy (.crane k))).lapse k m .cleared
    | none => w.release (w.s.ownedBy (.crane k)) : Work).clearOf k Reasons.all).onCrane k
      (fun c => Crane.fresh c.frames c.repeats c.implausible) := rfl

theorem clearLost_eq (u : State) (k : Nat) : (Work.start u none).clearLost k =
    ((unclaimed u k).clearOf k Reasons.all).onCrane k (fun c => Crane.fresh c.frames c.repeats c.implausible) := by
  have hcrane : ((Work.start u none).release ((Work.start u none).s.ownedBy (.crane k))).s.crane k = u.crane k :=
    (release_effect (Work.start u none) (u.ownedBy (.crane k))).only.crane (by decide) k
  rw [clearLost_unfold, hcrane, unclaimed]
  cases (u.crane k).claim with
  | none => rfl
  | some m => rfl

section
variable {u : State} {k : Nat}

theorem unclaimed_some {m : Claim} (hclaim : (u.crane k).claim = some m) : unclaimed u k =
    (((Work.start u none).release (u.ownedBy (.crane k))).lapsed k m .cleared).flagged true := by
  rw [unclaimed, hclaim]

theorem unclaimed_none (hclaim : (u.crane k).claim = none) :
    unclaimed u k = (Work.start u none).release (u.ownedBy (.crane k)) := by
  rw [unclaimed, hclaim]

theorem claimCell_release (m : Claim) :
    ((Work.start u none).release (u.ownedBy (.crane k))).s.claimCell k m = u.claimCell k m := by
  have hfree := ((Work.start u none).release_effect (u.ownedBy (.crane k))).only
  unfold State.claimCell State.slotCell State.craneCfg
  rw [hfree.cfg, hfree.grid, hfree.crane (by decide)]
  rfl

/-- The records after the holds and the claim of a crane have gone. -/
theorem seg_unclaimed (i : Nat) : ∃ b, (unclaimed u k).s.seg i =
    if b = true then SegDyn.removeLock k Reasons.ofClaim { u.seg i with
      hold := if i ∈ u.ownedBy (.crane k) then .free else (u.seg i).hold }
    else { u.seg i with hold := if i ∈ u.ownedBy (.crane k) then .free else (u.seg i).hold } := by
  have hfree : ((Work.start u none).release (u.ownedBy (.crane k))).s.seg i =
      { u.seg i with hold := if i ∈ u.ownedBy (.crane k) then .free else (u.seg i).hold } := by
    rw [seg_release]
    split <;> rfl
  cases hclaim : (u.crane k).claim with
  | none => exact ⟨false, by rw [unclaimed_none hclaim, hfree]; rfl⟩
  | some m =>
    have hlapsed := seg_lapsed ((Work.start u none).release (u.ownedBy (.crane k))) k m .cleared i
    rw [hfree] at hlapsed
    refine ⟨decide (i = ((Work.start u none).release (u.ownedBy (.crane k))).s.claimCell k m), ?_⟩
    rw [unclaimed_some hclaim]
    exact hlapsed.trans (if_congr decide_eq_true_iff.symm rfl rfl)

theorem owned_not_free (hs : u.segs.Sorted) {i : Nat} (hi : i ∈ u.ownedBy (.crane k)) : (u.seg i).hold ≠ .free := by
  have hholder := (State.mem_ownedBy hs).1 hi
  intro h
  rw [SegDyn.holder, h] at hholder
  exact nomatch hholder

/-- What the end of the holds and of the claim of a crane changes, posts and asks for. -/
theorem unclaimed_effect (hs : u.segs.Sorted) (k : Nat) :
    (Work.start u none).Grown (unclaimed u k) (fun _ => False) ∧
      State.Only [.segs, .cranes, .craneLinks, .dispatch] u (unclaimed u k).s ∧
      (∀ l, (unclaimed u k).s.dlink l = (u.dlink l).offers u.now ((u.crane k).claim.toList.map (fun x =>
        ⟨.claimLapsed, u.now, .crane k, [.byte x.slot, .half (u.claimCell k x), .byte 4]⟩))) ∧
      ((unclaimed u k).reexam = true ↔ (u.crane k).claim ≠ none ∨ ∃ i, i ∈ u.ownedBy (.crane k)) := by
  have hfree := (Work.start u none).release_effect (u.ownedBy (.crane k))
  cases hclaim : (u.crane k).claim with
  | none =>
    rw [unclaimed_none hclaim]
    refine ⟨hfree.grown, hfree.only.mono (by decide), hfree.posts, ?_⟩
    refine (hfree.reexam_iff.trans (or_congr (by simp [Work.start]) (exists_congr fun i => ?_)))
    rw [seg_release]
    split
    · next hi => exact iff_of_true ((SegDyn.callsFor_release _).2 (owned_not_free hs hi)) hi
    · next hi => exact iff_of_false (by rw [SegDyn.callsFor_self]; decide) hi
  | some m =>
    have hlapsed := ((Work.start u none).release (u.ownedBy (.crane k))).lapsed_effect k m .cleared
    rw [claimCell_release, hfree.only.now] at hlapsed
    have hboth := (hfree.trans hlapsed fun i => by
      rw [seg_lapsed, seg_release]
      refine SegDyn.Apart.of_hold ?_ ?_
      · split
        exacts [⟨_, rfl⟩, ⟨(u.seg i).hold, rfl⟩]
      · split <;> rfl).said
      (G := [.segs, .cranes, .craneLinks, .dispatch]) (m := fun _ => False) (by decide) (fun _ => by simp) rfl
    rw [unclaimed_some hclaim]
    exact ⟨hboth.grown.flagged true, hboth.only, hboth.posts, iff_of_true rfl (.inl (by simp))⟩

theorem crane_unclaimed (u : State) (k m : Nat) : (unclaimed u k).s.crane m =
    if m = k then { u.crane k with claim := none } else u.crane m := by
  have hfree := ((Work.start u none).release_effect (u.ownedBy (.crane k))).only
  cases hclaim : (u.crane k).claim with
  | none =>
    rw [unclaimed_none hclaim, hfree.crane (by decide)]
    split
    · next h => rw [h, ← hclaim]; rfl
    · rfl
  | some x =>
    have hlapsed := crane_lapsed ((Work.start u none).release (u.ownedBy (.crane k))) k x .cleared m
    rw [hfree.crane (by decide), hfree.crane (by decide)] at hlapsed
    rw [unclaimed_some hclaim]
    exact hlapsed

theorem craneLinks_unclaimed (hclaim : (u.crane k).claim = none) : (unclaimed u k).s.craneLinks = u.craneLinks := by
  rw [unclaimed_none hclaim]
  exact ((Work.start u none).release_effect (u.ownedBy (.crane k))).only.craneLinks (by decide)

theorem craneLink_unclaimed {x : Claim} (hclaim : (u.crane k).claim = some x) (m : Nat) :
    (unclaimed u k).s.craneLink m = if m = k then
      ((u.craneLink k).join (.lowerRevoked (u.crane k).lastSeq x.slot)).transmit else u.craneLink m := by
  have hfree := ((Work.start u none).release_effect (u.ownedBy (.crane k))).only
  have hlapsed := craneLink_lapsed ((Work.start u none).release (u.ownedBy (.crane k))) k x .cleared m
  rw [craneLink_of_only hfree (by decide), craneLink_of_only hfree (by decide), hfree.crane (by decide)] at hlapsed
  rw [unclaimed_some hclaim]
  exact hlapsed

end

/-- A crane returned to new, but for its counters. -/
def renewed (u : State) (k : Nat) : Work :=
  ((unclaimed u k).clearOf k Reasons.all).onCrane k (fun c => Crane.fresh c.frames c.repeats c.implausible)

section
variable {u : State} {k : Nat} (hs : u.segs.Sorted)
include hs

theorem unclaimed_sorted : (unclaimed u k).s.segs.Sorted := by
  have hfree := onSegs_sorted (w := Work.start u none) hs (u.ownedBy (.crane k)) SegDyn.release
  cases hclaim : (u.crane k).claim with
  | none =>
    rw [unclaimed_none hclaim]
    exact hfree
  | some m =>
    have hlapse := Machine.Within.sorted
      (((Work.start u none).release (u.ownedBy (.crane k))).lapse_within k m .cleared) hfree
    rw [lapse_eq] at hlapse
    rw [unclaimed_some hclaim]
    exact hlapse

theorem seg_renewed (i : Nat) : (renewed u k).s.seg i = ((unclaimed u k).s.seg i).clearedOf k Reasons.all := by
  rw [renewed, (onCrane_effect _ k _).only.seg (by decide)]
  exact seg_cleanedOf k Reasons.all (unclaimed_sorted hs) i

/-- What CLEAR_CRANE takes off does not bring back what the end of the claim took off. -/
theorem seg_unclaimed_kept {i : Nat} (h : (renewed u k).s.seg i = u.seg i) : (unclaimed u k).s.seg i = u.seg i := by
  rw [seg_renewed hs] at h
  obtain ⟨hhold, hoos, hmark⟩ : ((unclaimed u k).s.seg i).hold = (u.seg i).hold ∧ ((unclaimed u k).s.seg i).oos =
      (u.seg i).oos ∧ ((unclaimed u k).s.seg i).intruder = (u.seg i).intruder := by
    obtain ⟨b, hb⟩ := seg_unclaimed (u := u) (k := k) i
    refine ⟨(SegDyn.clearedOf_hold k Reasons.all _).symm.trans (congrArg SegDyn.hold h),
      (SegDyn.clearedOf_oos k Reasons.all _).symm.trans (congrArg SegDyn.oos h), ?_⟩
    rw [hb]
    split <;> rfl
  have hreasons : ((unclaimed u k).s.seg i).reasonsOf k = ⟨false, false, false, false⟩ := by
    have hnone := (SegDyn.reasonsOf_clearedOf k Reasons.all ((unclaimed u k).s.seg i) k).trans (if_pos rfl)
    rw [h, Reasons.without_all] at hnone
    obtain ⟨b, hb⟩ := seg_unclaimed (u := u) (k := k) i
    rw [hb]
    split
    · rw [SegDyn.reasonsOf_removeLock, if_pos rfl]
      show ((u.seg i).reasonsOf k).without _ = _
      rw [hnone]
      rfl
    · exact hnone
  have hlock : ((unclaimed u k).s.seg i).lock = (u.seg i).lock := by
    rw [← congrArg SegDyn.lock h, SegDyn.clearedOf, if_neg (by rw [hreasons]; decide)]
  exact SegDyn.eq_of_fields hhold hoos hlock hmark

theorem renewed_grown : (Work.start u none).Grown (renewed u k) (fun _ => False) := by
  have hclean := (cleanedOf_effect k Reasons.all (unclaimed_sorted (k := k) hs)).grown
  have hclear := hclean.flagged ((unclaimed u k).clearOf k Reasons.all).reexam
  have hfresh := (onCrane_effect ((unclaimed u k).clearOf k Reasons.all) k
    (fun c => Crane.fresh c.frames c.repeats c.implausible))
  have hboth : (unclaimed u k).Grown (renewed u k) (fun c => False ∨ False) :=
    hclear.trans hfresh.grown fun i hi => (hfresh.only.seg (by decide) i).symm.trans hi
  have hall := (unclaimed_effect hs k).1.trans hboth fun i hi => seg_unclaimed_kept hs hi
  exact ⟨hall.before, hall.touched, fun c => (hall.runs c).trans (by simp), hall.bumped, hall.settled, hall.report⟩

theorem renewed_only : State.Only [.segs, .cranes, .craneLinks, .dispatch] u (renewed u k).s :=
  ((unclaimed_effect hs k).2.1.trans ((cleanedOf_effect k Reasons.all (unclaimed_sorted (k := k) hs)).only.trans
    (onCrane_effect ((unclaimed u k).clearOf k Reasons.all) k
      (fun c => Crane.fresh c.frames c.repeats c.implausible)).only)).mono (by decide)

theorem renewed_after : State.Only [.segs, .cranes] (unclaimed u k).s (renewed u k).s :=
  ((cleanedOf_effect k Reasons.all (unclaimed_sorted (k := k) hs)).only.trans
    (onCrane_effect ((unclaimed u k).clearOf k Reasons.all) k
      (fun c => Crane.fresh c.frames c.repeats c.implausible)).only).mono (by decide)

theorem crane_renewed (m : Nat) : (renewed u k).s.crane m =
    if m = k then Crane.fresh (u.crane k).frames (u.crane k).repeats (u.crane k).implausible else u.crane m := by
  have hclean := (cleanedOf_effect k Reasons.all (unclaimed_sorted (k := k) hs)).only
  have hread : ∀ n, ((unclaimed u k).clearOf k Reasons.all).s.crane n = (unclaimed u k).s.crane n :=
    fun n => hclean.crane (by decide) n
  rw [renewed, crane_onCrane, hread, hread, crane_unclaimed, crane_unclaimed]
  split <;> simp

theorem renewed_reexam : (renewed u k).reexam = true ↔ (u.crane k).claim ≠ none ∨ ∃ i, i ∈ u.ownedBy (.crane k) ∨
    (u.seg i).intruder = some (.crane k) ∨ (u.seg i).reasonsOf k ≠ ⟨false, false, false, false⟩ := by
  show ((unclaimed u k).clearOf k Reasons.all).reexam = true ↔ _
  rw [clearOf_reexam k Reasons.all (unclaimed_sorted hs), (unclaimed_effect hs k).2.2.2, or_assoc]
  cases hclaim : (u.crane k).claim with
  | some m => simp
  | none =>
    rw [← exists_or]
    simp only [ne_eq, not_true_eq_false, false_or]
    refine exists_congr fun i => or_congr_right ?_
    have hseg : (unclaimed u k).s.seg i =
        { u.seg i with hold := if i ∈ u.ownedBy (.crane k) then .free else (u.seg i).hold } := by
      rw [unclaimed_none hclaim, seg_release]
      split <;> rfl
    rw [hseg, Reasons.meets_all]
    rfl

/-- The records after CLEAR_CRANE of a lost crane. -/
theorem renewed_records (i : Nat) :
    ((renewed u k).s.seg i).hold = (if i ∈ u.ownedBy (.crane k) then .free else (u.seg i).hold) ∧
      ((renewed u k).s.seg i).oos = (u.seg i).oos ∧
      ((renewed u k).s.seg i).intruder =
        (if (u.seg i).intruder = some (.crane k) then none else (u.seg i).intruder) ∧
      ((renewed u k).s.seg i).reasonsOf k = ⟨false, false, false, false⟩ ∧
      (∀ m, m ≠ k → ((renewed u k).s.seg i).reasonsOf m = (u.seg i).reasonsOf m) := by
  rw [seg_renewed hs, SegDyn.clearedOf_hold, SegDyn.clearedOf_oos]
  obtain ⟨b, hb⟩ := seg_unclaimed (u := u) (k := k) i
  refine ⟨?_, ?_, ?_, ?_, fun m hm => ?_⟩
  · rw [hb]
    split <;> rfl
  · rw [hb]
    split <;> rfl
  · show (if _ = _ then _ else _) = _
    rw [show ((unclaimed u k).s.seg i).intruder = (u.seg i).intruder by rw [hb]; split <;> rfl]
  · rw [SegDyn.reasonsOf_clearedOf, if_pos rfl, Reasons.without_all]
  · rw [SegDyn.reasonsOf_clearedOf, if_neg hm, hb]
    split
    · rw [SegDyn.reasonsOf_removeLock, if_neg hm]
      rfl
    · rfl

end

/-- The records after the other forms of CLEAR_CRANE, of ground with these holds. -/
theorem clearedOf_violation {k : Nat} {r r' : SegDyn} (hr : ∃ h, r' = { r with hold := h }) :
    (r'.clearedOf k Reasons.ofViolation).hold = r'.hold ∧ (r'.clearedOf k Reasons.ofViolation).oos = r.oos ∧
      (r'.clearedOf k Reasons.ofViolation).intruder = (if r.intruder = some (.crane k) then none else r.intruder) ∧
      (r'.clearedOf k Reasons.ofViolation).reasonsOf k = { r.reasonsOf k with violation := false } ∧
      (∀ m, m ≠ k → (r'.clearedOf k Reasons.ofViolation).reasonsOf m = r.reasonsOf m) := by
  obtain ⟨h, rfl⟩ := hr
  refine ⟨SegDyn.clearedOf_hold _ _ _, SegDyn.clearedOf_oos _ _ _, rfl, ?_, fun m hm => ?_⟩
  · rw [SegDyn.reasonsOf_clearedOf, if_pos rfl, Reasons.without_ofViolation]
    rfl
  · rw [SegDyn.reasonsOf_clearedOf, if_neg hm]
    rfl

end Work

section
variable {u : State} {k : Nat}

/-- The reply of an accepted CLEAR_CRANE names the state and the bay that the request itself leaves (R112). -/
theorem clearedReply_finish (w : Work) (k n : Nat) : w.finish.clearedReply k n =
    accept 0x35 false [.byte (w.s.crane k).state.code, byteVal? (w.s.crane k).bay, .byte n] := by
  have hcrane : w.finish.crane k = w.s.crane k := by
    unfold State.crane
    rw [w.finish_holdsOnly.cranes]
  rw [State.clearedReply, hcrane]

theorem ownClearCrane_standing (hmode : u.mode ≠ .config) (hk : k < 8) (hstate : (u.crane k).state = .standing)
    (hup : (u.crane k).filtered = .up) : ownClearCrane k u =
      (((Work.start u none).clearOf k Reasons.ofViolation).finish,
        ((Work.start u none).clearOf k Reasons.ofViolation).finish.clearedReply k 0) := by
  unfold ownClearCrane
  rw [if_neg hmode, if_neg (Nat.not_le.2 hk)]
  dsimp only
  rw [hstate]
  exact if_neg (not_not.2 hup)

theorem ownClearCrane_lost (hmode : u.mode ≠ .config) (hk : k < 8) (hstate : (u.crane k).state = .linkLost) :
    ownClearCrane k u = (((Work.start u none).clearLost k).finish,
      ((Work.start u none).clearLost k).finish.clearedReply k (u.ownedBy (.crane k)).length) := by
  refine (if_neg hmode).trans ((if_neg (Nat.not_le.2 hk)).trans ?_)
  dsimp only
  rw [hstate]
  exact rfl

end

/-- Settles O42. -/
theorem clearCrane : Obligations.ClearCrane := by
  unfold Obligations.ClearCrane
  intro s u l k c legs hu hroom hs hc hlegs
  subst hc
  have hlegs' : legs = u.legCells k (u.crane k).at := hlegs
  subst hlegs'
  refine ⟨fun why detail moves hmoves h => next_takeRequest hu hroom (ownClearCrane_refused hmoves h),
    fun hmode hk hstate hup => ?_, fun freed hmode hk hstate hup hstop hepisode hmay hfreed hnodup => ?_,
    fun freed hmode hk hstate hfreed hnodup => ?_⟩
  · have hclean := Work.cleanedOf_effect (w := Work.start u none) k Reasons.ofViolation hs
    have hcrane : ((Work.start u none).clearOf k Reasons.ofViolation).s.crane k = u.crane k :=
      hclean.only.crane (by decide) k
    refine ⟨(Work.start u none).clearOf k Reasons.ofViolation, next_takeRequest hu hroom ?_, hclean.grown.flagged _,
      hclean.only.eq, fun i => ?_, ?_⟩
    · rw [ownClearCrane_standing hmode hk hstate hup, clearedReply_finish, hcrane, hstate]
      rfl
    · have hseg : ((Work.start u none).clearOf k Reasons.ofViolation).s.seg i =
          (u.seg i).clearedOf k Reasons.ofViolation :=
        Work.seg_cleanedOf (w := Work.start u none) k Reasons.ofViolation hs i
      have hrecord := Work.clearedOf_violation (k := k) (r := u.seg i) (r' := u.seg i) ⟨_, rfl⟩
      rw [hseg]
      exact hrecord
    · rw [Work.clearOf_reexam (w := Work.start u none) k Reasons.ofViolation hs]
      simp only [Reasons.meets_ofViolation]
      exact or_iff_right Bool.false_ne_true
  · have hmem : ∀ i, i ∈ u.holdsBeyond k (u.legCells k (u.crane k).at) ↔ i ∈ freed := fun i =>
      (Work.mem_holdsBeyond hs).trans (hfreed i).symm
    have hlength : (u.holdsBeyond k (u.legCells k (u.crane k).at)).length = freed.length :=
      length_eq_of_mem_iff ((Table.nodup_keysWhere hs _).filter _) hnodup hmem
    have heffect := Work.reseated_effect (k := k) hs
    have hcrane := fun m => (Work.crane_reseated u k m).trans (Work.crane_rested hs m)
    have hagainst : u.legConflict k (u.legCells k (u.crane k).at) = none :=
      State.firstHeldAgainst_none fun i hi => (SegDyn.mayStand_iff _ _).2 (hmay i hi)
    refine ⟨(Work.start u none).clearHalted k, next_takeRequest hu hroom ?_, ?_⟩
    · rw [ownClearCrane_moves hmode hk hstate hup, hstop, hepisode, hagainst]
      simp only [Bool.not_true, Bool.false_eq_true, if_false]
      rw [State.request, clearedReply_finish, Work.clearHalted_eq, hlength, Work.crane_flagged, hcrane k, if_pos rfl]
      rfl
    rw [Work.clearHalted_eq]
    simp only [Work.s_flagged, Work.reexam_flagged]
    refine ⟨heffect.grown.flagged _, (hcrane k).trans (if_pos rfl), fun m hm => (hcrane m).trans (if_neg hm),
      fun i => ?_, fun m => ?_, ?_, heffect.only.eq⟩
    · have hseg := (Work.seg_reseated u k i).trans (Work.seg_rested hs i)
      have hrecord := Work.clearedOf_violation (k := k) (r := u.seg i) (r' := { u.seg i with
        hold := if i ∈ u.legCells k (u.crane k).at then .held (.crane k) .leg
          else if i ∈ u.holdsBeyond k (u.legCells k (u.crane k).at) then .free else (u.seg i).hold }) ⟨_, rfl⟩
      rw [← hseg] at hrecord
      obtain ⟨hhold, hrest⟩ := hrecord
      exact ⟨hhold.trans (if_congr Iff.rfl rfl (if_congr (hmem i) rfl rfl)), hrest⟩
    · refine (heffect.posts m).trans ?_
      rcases hstate with h | h
      · rw [h]
        rfl
      · rw [h]
        rfl
    · rw [Work.clearOf_reexam k Reasons.ofViolation (Work.settledAt_sorted hs), Work.settledAt_reexam hs, ← exists_or]
      refine exists_congr fun i => ?_
      rw [hmem, Work.seg_settledAt hs, Reasons.meets_ofViolation]
      rfl
  · have hmem : ∀ i, i ∈ u.ownedBy (.crane k) ↔ i ∈ freed := fun i => (State.mem_ownedBy hs).trans (hfreed i).symm
    have hlength : (u.ownedBy (.crane k)).length = freed.length :=
      length_eq_of_mem_iff (Table.nodup_keysWhere hs _) hnodup hmem
    have hlost : (Work.start u none).clearLost k = Work.renewed u k := Work.clearLost_eq u k
    have hafter := Work.renewed_after (k := k) hs
    have hcrane := Work.crane_renewed (k := k) hs
    obtain ⟨-, -, hposts, -⟩ := Work.unclaimed_effect hs k
    refine ⟨Work.renewed u k, next_takeRequest hu hroom ?_, Work.renewed_grown hs, (hcrane k).trans (if_pos rfl),
      fun m hm => (hcrane m).trans (if_neg hm), fun i => ?_, fun m => ?_, fun hclaim => ?_, fun x hclaim => ?_, ?_,
      (Work.renewed_only hs).eq⟩
    · rw [ownClearCrane_lost hmode hk hstate, hlost, clearedReply_finish, hlength, (hcrane k).trans (if_pos rfl)]
      rfl
    · obtain ⟨hhold, hrest⟩ := Work.renewed_records (k := k) hs i
      exact ⟨hhold.trans (if_congr (hmem i) rfl rfl), hrest⟩
    · rw [hafter.dlink (by decide), hposts]
    · rw [hafter.craneLinks (by decide), Work.craneLinks_unclaimed hclaim]
    · have hlink := fun m => (Work.craneLink_of_only hafter (by decide) m).trans (Work.craneLink_unclaimed hclaim m)
      exact ⟨(hlink k).trans (if_pos rfl), fun m hm => (hlink m).trans (if_neg hm)⟩
    · rw [Work.renewed_reexam hs]
      simp only [hmem]

end Sys2Proof.Machine
end

section
/-! The first subject that keeps the apron from being quiet (R167). -/

namespace Sys2Proof.Machine

/-- The lowest key that passes a test comes first. -/
theorem Table.keysWhere_lowest {α : Type} {t : Table α} (h : t.Sorted) {p : α → Bool} {k : Nat} {v : α}
    (hv : t.get? k = some v) (hp : p v = true) (hmin : ∀ j x, j < k → t.get? j = some x → p x = false) :
    ∃ rest, t.keysWhere p = k :: rest := by
  have hk : k ∈ t.keysWhere p := Table.mem_keysWhere_of_get? hv hp
  have hsorted := Table.sorted_keysWhere h p
  cases hl : t.keysWhere p with
  | nil => rw [hl] at hk; exact nomatch hk
  | cons j rest =>
    refine ⟨rest, ?_⟩
    obtain ⟨x, hx, hpx⟩ := (Table.mem_keysWhere h p j).1 (by rw [hl]; exact List.mem_cons_self)
    have hge : k ≤ j := Nat.not_lt.1 fun hlt => by rw [hmin j x hlt hx] at hpx; cases hpx
    rw [hl] at hk hsorted
    rcases List.mem_cons.1 hk with rfl | hk
    · rfl
    · have hlt := (List.pairwise_cons.1 hsorted).1 k hk
      omega

theorem Table.keysWhere_none {α : Type} {t : Table α} (h : t.Sorted) {p : α → Bool} :
    t.keysWhere p = [] ↔ ∀ k v, t.get? k = some v → p v = false := by
  rw [List.eq_nil_iff_forall_not_mem]
  refine ⟨fun hn k v hv => Bool.eq_false_iff.2 fun hp => hn k (Table.mem_keysWhere_of_get? hv hp), fun hn k hk => ?_⟩
  obtain ⟨v, hv, hp⟩ := (Table.mem_keysWhere h p k).1 hk
  rw [hn k v hv] at hp
  cases hp

/-- The lowest number below a bound that passes a test is found first. -/
theorem firstWhere_range {p : Nat → Bool} {n k : Nat} (hk : k < n) (hp : p k = true) (hmin : ∀ j, j < k → p j = false) :
    ∃ t, firstWhere p (List.range n) 0 = some (t, k) := by
  obtain ⟨pre, post, hsplit⟩ := List.append_of_mem (List.mem_range.2 hk)
  refine ⟨0 + pre.length, firstWhere_eq_some.2 ⟨pre, post, hsplit, fun j hj => hmin j ?_, hp, rfl⟩⟩
  have hsorted : (pre ++ k :: post).Pairwise (· < ·) := hsplit ▸ List.pairwise_lt_range
  exact (List.pairwise_append.1 hsorted).2.2 j hj k List.mem_cons_self

theorem firstWhere_range_none {p : Nat → Bool} {n : Nat} :
    firstWhere p (List.range n) 0 = none ↔ ∀ k, k < n → p k = false := by
  rw [firstWhere_eq_none]
  exact forall_congr' fun k => by rw [List.mem_range]

theorem CarrierState.busy_iff (st : CarrierState) : st.busy = true ↔ st ≠ .offline ∧ st ≠ .away ∧ st ≠ .idle := by
  cases st <;> simp [CarrierState.busy]

section
variable {u : State}

/-- No carrier is in a state that keeps the apron from being quiet. -/
theorem State.noneBusy_iff (hc : u.carriers.Sorted) : u.carriers.keysWhere (fun r => r.state.busy) = [] ↔
    ∀ c r, u.carrier? c = some r → r.state = .offline ∨ r.state = .away ∨ r.state = .idle := by
  rw [Table.keysWhere_none hc]
  refine forall₂_congr fun c r => forall_congr' fun _ => ?_
  rw [← Bool.not_eq_true, CarrierState.busy_iff]
  grind

theorem State.noneFrozen_iff (hs : u.segs.Sorted) : u.segs.keysWhere SegDyn.isFrozen = [] ↔
    ∀ i p x, (u.seg i).hold ≠ .frozen p x := by
  rw [List.eq_nil_iff_forall_not_mem]
  refine forall_congr' fun i => ?_
  rw [State.mem_segsWhere hs rfl, SegDyn.isFrozen_iff]
  simp

theorem State.frozen_lowest (hs : u.segs.Sorted) {i : Nat} (hi : ∃ p x, (u.seg i).hold = .frozen p x)
    (hmin : ∀ j, j < i → ¬ ∃ p x, (u.seg j).hold = .frozen p x) :
    ∃ rest, u.segs.keysWhere SegDyn.isFrozen = i :: rest := by
  obtain ⟨r, hr, hfrozen⟩ := (Table.mem_keysWhere hs SegDyn.isFrozen i).1
    ((State.mem_segsWhere hs rfl).2 ((SegDyn.isFrozen_iff _).2 hi))
  refine Table.keysWhere_lowest hs hr hfrozen fun j x hj hx => Bool.eq_false_iff.2 fun hf => hmin j hj ?_
  have hseg : u.seg j = x := by
    unfold State.seg Table.get
    rw [hx]
    rfl
  exact hseg ▸ (SegDyn.isFrozen_iff x).1 hf

/-- What keeps the apron from being quiet (R167). -/
theorem State.busySubject_none_iff (hc : u.carriers.Sorted) (hs : u.segs.Sorted) : u.busySubject = none ↔
    (∀ c r, u.carrier? c = some r → r.state = .offline ∨ r.state = .away ∨ r.state = .idle) ∧
      (∀ i p x, (u.seg i).hold ≠ .frozen p x) ∧
      (∀ k, k < 8 → (u.crane k).claim = none ∧ (u.crane k).state ≠ .travelling) := by
  have hclaims : firstWhere (fun k => (u.crane k).claim.isSome) (List.range 8) 0 = none ↔
      ∀ k, k < 8 → (u.crane k).claim = none := firstWhere_range_none.trans (by simp)
  have htravel : firstWhere (fun k => decide ((u.crane k).state = .travelling)) (List.range 8) 0 = none ↔
      ∀ k, k < 8 → (u.crane k).state ≠ .travelling := firstWhere_range_none.trans (by simp)
  rw [← State.noneBusy_iff hc, ← State.noneFrozen_iff hs]
  unfold State.busySubject
  cases hbusy : u.carriers.keysWhere (fun r => r.state.busy) with
  | cons c rest => simp
  | nil =>
    cases hfrozen : u.segs.keysWhere SegDyn.isFrozen with
    | cons i rest => simp
    | nil =>
      cases hclaim : firstWhere (fun k => (u.crane k).claim.isSome) (List.range 8) 0 with
      | some x =>
        have hnot : ¬ ∀ k, k < 8 → (u.crane k).claim = none := fun h => by
          rw [hclaims.2 h] at hclaim
          cases hclaim
        simp only [reduceCtorEq, true_and, false_iff]
        exact fun h => hnot fun k hk => (h k hk).1
      | none =>
        cases hmoving : firstWhere (fun k => decide ((u.crane k).state = .travelling)) (List.range 8) 0 with
        | some x =>
          have hnot : ¬ ∀ k, k < 8 → (u.crane k).state ≠ .travelling := fun h => by
            rw [htravel.2 h] at hmoving
            cases hmoving
          simp only [reduceCtorEq, true_and, false_iff]
          exact fun h => hnot fun k hk => (h k hk).2
        | none =>
          simp only [true_and, true_iff]
          exact fun k hk => ⟨hclaims.1 hclaim k hk, htravel.1 hmoving k hk⟩

theorem State.busySubject_carrier (hc : u.carriers.Sorted) {c : Nat} {r : Carrier} (hr : u.carrier? c = some r)
    (hbusy : r.state.busy = true)
    (hmin : ∀ b x, b < c → u.carrier? b = some x → x.state.busy = false) :
    u.busySubject = some [.half c, .byte r.state.code] := by
  obtain ⟨rest, hkeys⟩ := Table.keysWhere_lowest hc (p := fun r => r.state.busy) hr hbusy hmin
  unfold State.busySubject
  rw [hkeys]
  dsimp only
  rw [hr]
  rfl

theorem State.busySubject_frozen (hnone : u.carriers.keysWhere (fun r => r.state.busy) = []) {i : Nat} {rest : List Nat}
    (hkeys : u.segs.keysWhere SegDyn.isFrozen = i :: rest) :
    u.busySubject = some (.half i :: partyVals (u.seg i).holder) := by
  unfold State.busySubject
  rw [hnone, hkeys]

theorem State.busySubject_claim (hnone : u.carriers.keysWhere (fun r => r.state.busy) = [])
    (hfrozen : u.segs.keysWhere SegDyn.isFrozen = []) {k : Nat} {m : Claim} (hk : k < 8)
    (hm : (u.crane k).claim = some m) (hmin : ∀ j, j < k → (u.crane j).claim = none) :
    u.busySubject = some [.half k, .byte m.slot, .byte m.phase.code] := by
  obtain ⟨t, hfirst⟩ := firstWhere_range (p := fun k => (u.crane k).claim.isSome) hk (by rw [hm]; rfl)
    (fun j hj => by rw [hmin j hj]; rfl)
  unfold State.busySubject
  rw [hnone, hfrozen, hfirst]
  dsimp only
  rw [hm]

theorem State.busySubject_travel (hnone : u.carriers.keysWhere (fun r => r.state.busy) = [])
    (hfrozen : u.segs.keysWhere SegDyn.isFrozen = []) (hclaims : ∀ k, k < 8 → (u.crane k).claim = none) {k : Nat}
    (hk : k < 8) (hmoving : (u.crane k).state = .travelling) (hmin : ∀ j, j < k → (u.crane j).state ≠ .travelling) :
    u.busySubject = some [.half k, byteVal? (u.crane k).target] := by
  obtain ⟨t, hfirst⟩ := firstWhere_range (p := fun k => decide ((u.crane k).state = .travelling)) hk
    (decide_eq_true hmoving) (fun j hj => decide_eq_false (hmin j hj))
  have hnoclaim : firstWhere (fun k => (u.crane k).claim.isSome) (List.range 8) 0 = none :=
    firstWhere_range_none.2 fun k hk => by rw [hclaims k hk]; rfl
  unfold State.busySubject
  rw [hnone, hfrozen, hnoclaim, hfirst]

end

end Sys2Proof.Machine
end

section
/-! The runs of a request that no report has started: what they send stays with its carrier's links (R76 to R78, R127,
R128), and a carrier that is not AUTHORIZED keeps its version (R83). -/

namespace Sys2Proof.Machine

/-! ## An urgent authority on a radio link (R128) -/

/-- An authority waits among the urgent ones of a link, or is being sent. -/
def RadioLink.Carries (l : RadioLink) (f : Authority) : Prop := f ∈ l.urgent ∨ l.sending = some (.authority f)

theorem mem_joinQueue_self {α : Type} (p : α → Bool) (x : α) (l : List α) : x ∈ joinQueue p x l := by
  induction l with
  | nil => exact List.mem_singleton.2 rfl
  | cons y rest ih =>
    unfold joinQueue
    split
    · exact List.mem_cons_self
    · exact List.mem_cons_of_mem y ih

theorem mem_joinQueue_of_mem {α : Type} {p : α → Bool} {x z : α} {l : List α} (hz : z ∈ l) (hp : p z = false) :
    z ∈ joinQueue p x l := by
  induction l with
  | nil => exact nomatch hz
  | cons y rest ih =>
    unfold joinQueue
    rcases List.mem_cons.1 hz with rfl | hz
    · rw [if_neg (by simp [hp])]
      exact List.mem_cons_self
    · split
      · exact List.mem_cons_of_mem x hz
      · exact List.mem_cons_of_mem y (ih hz)

theorem RadioLink.transmit_carries {l : RadioLink} {f : Authority} (h : l.Carries f) : l.transmit.Carries f := by
  unfold RadioLink.transmit
  split
  · next hfree =>
    have hidle : l.sending = none := Option.isNone_iff_eq_none.1 (by rw [Bool.and_eq_true] at hfree; exact hfree.2)
    have hmem : f ∈ l.urgent := h.resolve_right (by rw [hidle]; exact fun h => nomatch h)
    split
    · next a rest normal hu =>
      rw [hu] at hmem
      rcases List.mem_cons.1 hmem with rfl | hmem
      · exact .inr rfl
      · exact .inl hmem
    · next hu _ => rw [hu] at hmem; exact nomatch hmem
    · next hu _ => rw [hu] at hmem; exact nomatch hmem
  · exact h

theorem RadioLink.join_carries (l : RadioLink) {f : Authority} (hf : f.command.urgent = true) :
    (l.join f).Carries f := by
  unfold RadioLink.join
  rw [if_pos hf]
  exact .inl (mem_joinQueue_self _ f l.urgent)

/-- An authority of another carrier takes its place from none of this one's. -/
theorem RadioLink.join_carries_of_ne {l : RadioLink} {f g : Authority} (h : l.Carries f) (hne : g.carrier ≠ f.carrier) :
    (l.join g).Carries f := by
  unfold RadioLink.join
  split
  · exact h.imp_left fun hm => mem_joinQueue_of_mem hm (decide_eq_false hne.symm)
  · exact h

namespace Work

/-! ## Runs of a request that no report has started -/

section
variable {w : Work} {c : Nat}

theorem authorityRun_quiet_effect (h : w.report ≠ some c) (leaving : Bool) :
    Effect [.carriers, .routes, .versions, .radios] (fun _ => False) [] w (w.authorityRun c leaving) := by
  have htested : w.tested c = w := if_neg h
  cases hr : (w.tested c).s.carrier? c with
  | none =>
    rw [authorityRun_unknown hr, htested]
    exact (Effect.refl w).said (by decide) (fun _ => Iff.rfl) rfl
  | some r =>
    have hcut := w.cutBack_effect c r ((w.tested c).s.endPoint c r leaving)
    rw [authorityRun_known hr, htested]
    rw [htested] at hcut
    exact (hcut.aside (sent_effect _ c _ _ _)).said (by decide) (fun _ => by simp) rfl

theorem runEach_quiet_effect (h : w.report = none) (cs : List Nat) :
    Effect [.carriers, .routes, .versions, .radios] (fun _ => False) [] w (w.runEach cs) := by
  induction cs generalizing w with
  | nil => exact (Effect.refl w).said (by decide) (fun _ => Iff.rfl) rfl
  | cons c rest ih =>
    have hrun := authorityRun_quiet_effect (w := w) (c := c) (by rw [h]; exact fun hx => nomatch hx) false
    exact (hrun.aside (ih (hrun.grown.report.trans h))).said (by decide) (fun _ => by simp) rfl

/-- A run sends its frame, or leaves the link as it is. -/
theorem radio_authorityRun_cases (w : Work) (c : Nat) (leaving : Bool) {k : Nat} (hk : k < 4) :
    (w.authorityRun c leaving).s.radio k = w.s.radio k ∨ ∃ f : Authority, f.carrier = c ∧
      (w.authorityRun c leaving).s.radio k = ((w.s.radio k).join f).transmit := by
  cases hr : (w.tested c).s.carrier? c with
  | none =>
    obtain ⟨n, es, htested⟩ := w.tested_effect c
    rw [authorityRun_unknown hr]
    unfold State.radio
    exact .inl (by rw [htested.only.radios (by decide)])
  | some r =>
    obtain ⟨hgoes, hstays⟩ := radio_authorityRun hr leaving hk _ Iff.rfl
    exact (em _).elim (fun h => .inr ⟨_, rfl, hgoes h⟩) fun h => .inl (hstays h)

/-- What a link carries for a carrier stays on it while other carriers' frames join it. -/
theorem carries_runEach {cs : List Nat} {f : Authority} (hf : f.carrier ∉ cs) {k : Nat} (hk : k < 4)
    (h : (w.s.radio k).Carries f) : ((w.runEach cs).s.radio k).Carries f := by
  induction cs generalizing w with
  | nil => exact h
  | cons c rest ih =>
    rw [List.mem_cons, not_or] at hf
    refine ih hf.2 ?_
    rcases radio_authorityRun_cases w c false hk with hsame | ⟨g, hg, hsent⟩
    · rw [hsame]
      exact h
    · rw [hsent]
      exact RadioLink.transmit_carries (RadioLink.join_carries_of_ne h (by rw [hg]; exact Ne.symm hf.1))

/-- The run of a carrier that is not AUTHORIZED steps no version (R83). -/
theorem authorityRun_steady_effect (h : w.report ≠ some c)
    (hstate : ∀ r, w.s.carrier? c = some r → r.state ≠ .authorized) (leaving : Bool) :
    Effect [.carriers, .radios] (fun _ => False) [] w (w.authorityRun c leaving) := by
  have htested : w.tested c = w := if_neg h
  cases hr : w.s.carrier? c with
  | none =>
    rw [authorityRun_unknown (by rw [htested]; exact hr), htested]
    exact (Effect.refl w).said (by decide) (fun _ => Iff.rfl) rfl
  | some r =>
    have hr' : (w.tested c).s.carrier? c = some r := by rw [htested]; exact hr
    have hcuts : cutsBack w.bumped c r ((w.tested c).s.endPoint c r leaving) = false := by
      unfold cutsBack
      cases hst : r.state
      case authorized => exact absurd hst (hstate r hr)
      all_goals rfl
    have hcut : w.cutBack c r ((w.tested c).s.endPoint c r leaving) = w := by
      rw [cutBack_eq, hcuts]
      exact if_neg Bool.false_ne_true
    rw [authorityRun_known hr', show (w.tested c).cutBack c r _ = w by rw [htested] at hcut ⊢; exact hcut]
    exact (sent_effect _ c _ _ _).said (by decide) (fun _ => Iff.rfl) rfl

theorem runEach_onlyRuns (h : w.report = none) (cs : List Nat) : State.OnlyRuns w.s (w.runEach cs).s := by
  induction cs generalizing w with
  | nil => exact .refl w.s
  | cons c rest ih =>
    have hc : w.report ≠ some c := by rw [h]; exact fun hx => nomatch hx
    exact (authorityRun_onlyRuns w c false hc).trans (ih ((authorityRun_quiet_effect hc false).grown.report.trans h))

theorem runEach_steady_effect (h : w.report = none) (cs : List Nat)
    (hstates : ∀ c r, w.s.carrier? c = some r → r.state ≠ .authorized) :
    Effect [.carriers, .radios] (fun _ => False) [] w (w.runEach cs) := by
  induction cs generalizing w with
  | nil => exact (Effect.refl w).said (by decide) (fun _ => Iff.rfl) rfl
  | cons c rest ih =>
    have hc : w.report ≠ some c := by rw [h]; exact fun hx => nomatch hx
    have hrun := authorityRun_steady_effect hc (hstates c) false
    have hkept : ∀ b r, (w.authorityRun c false).s.carrier? b = some r → r.state ≠ .authorized := fun b r hr => by
      obtain ⟨a, ha⟩ := (authorityRun_onlyRuns w c false hc).carriers b
      rw [ha] at hr
      obtain ⟨x, hx, rfl⟩ := Option.map_eq_some_iff.1 hr
      exact hstates b x hx
    exact (hrun.aside (ih (hrun.grown.report.trans h) hkept)).said (by decide) (fun _ => by simp) rfl

/-- In a mode other than ACTIVE, a carrier that is not in EMERGENCY is told to stop (R79). -/
theorem runFrame_stops (h : w.report ≠ some c) (hmode : w.s.mode ≠ .active) {r : Carrier}
    (hstate : r.state ≠ .emergency) : (w.runFrame c r false).command = .stopNow := by
  have htested : w.tested c = w := if_neg h
  have hcut := (w.cutBack_effect c r (w.s.endPoint c r false)).only.mode
  unfold runFrame
  rw [htested]
  show ((w.cutBack c r _).s.commandOf c r false _).1 = _
  unfold State.commandOf
  rw [hcut]
  cases hst : r.state
  case emergency => exact absurd hst hstate
  all_goals exact congrArg Prod.fst ((if_neg Bool.false_ne_true).trans (if_pos hmode))

/-- A carrier that is run is told to stop on every link that its routing names, in a mode other than ACTIVE (R74,
R79). -/
theorem runEach_stops (h : w.report = none) (hmode : w.s.mode ≠ .active) {cs : List Nat} (hc : c ∈ cs) {r : Carrier}
    (hr : w.s.carrier? c = some r) (hstate : r.state ≠ .emergency) {k : Nat} (hk : k < 4)
    (hup : (w.s.radio k).state = .up)
    (hlinks : w.s.learning.get? c = none ∨ ∃ a, w.s.learning.get? c = some a ∧ a.link = k) :
    ∃ f : Authority, f.carrier = c ∧ f.command = .stopNow ∧ ((w.runEach cs).s.radio k).Carries f := by
  obtain ⟨post, pre, hsplit, hpost⟩ := List.eq_append_cons_of_mem (List.mem_reverse.2 hc)
  have hcs : cs = pre.reverse ++ c :: post.reverse := by
    rw [← List.reverse_reverse cs, hsplit]
    simp
  have hquiet := runEach_quiet_effect h pre.reverse
  have hreport := hquiet.grown.report.trans h
  obtain ⟨v, hv⟩ : ∃ v, v = w.runEach pre.reverse := ⟨_, rfl⟩
  rw [← hv] at hquiet hreport
  have hnot : v.report ≠ some c := by rw [hreport]; exact fun hx => nomatch hx
  obtain ⟨x, hx, hst⟩ : ∃ x, v.s.carrier? c = some x ∧ x.state = r.state := by
    obtain ⟨a, ha⟩ := (runEach_onlyRuns h pre.reverse).carriers c
    rw [← hv, hr] at ha
    exact ⟨_, ha, rfl⟩
  have hx' : (v.tested c).s.carrier? c = some x := by
    rw [show v.tested c = v from if_neg hnot]
    exact hx
  have hup' : (v.s.radio k).state = .up := by
    rw [hv, ((runEach_onlyRuns h pre.reverse).radios k).state, hup]
  have hsent := (radio_authorityRun hx' false hk _ Iff.rfl).1
    ⟨hup', .inr (by rw [hquiet.only.learning (by decide)]; exact hlinks)⟩
  have hstop := runFrame_stops (c := c) hnot (by rw [hquiet.only.mode]; exact hmode) (hst ▸ hstate)
  refine ⟨v.runFrame c x false, rfl, hstop, ?_⟩
  rw [hcs, runEach_append, runEach_cons, ← hv]
  refine carries_runEach (fun hm => hpost (List.mem_reverse.1 hm)) hk ?_
  rw [hsent]
  exact RadioLink.transmit_carries (RadioLink.join_carries _ (by rw [hstop]; rfl))

end

end Work

end Sys2Proof.Machine
end

section
/-! ENTER_CONFIG: refused with the first subject while the apron is busy, else every block as new (R74, R117, R167). -/

namespace Sys2Proof.Machine

namespace Work

/-! ## The carriers renewed (R74) -/

/-- A carrier that was not OFFLINE is notified to be so (R53, R74). -/
def renewEntry (now : Time) (x : Nat × Carrier) : Notif :=
  ⟨.carrierState, now, .carrier x.1, [.byte x.2.state.code, .byte 0]⟩

section
variable {w : Work} {c : Nat} {r : Carrier} (hr : w.s.carrier? c = some r)
include hr

theorem renewCarrier_offline (h : r.state = .offline) : w.renewCarrier c =
    w.onCarrier c (Carrier.renewed (w.s.classVals (w.s.classOf c))) := by
  unfold renewCarrier
  rw [hr]
  dsimp only
  rw [if_pos h]

theorem renewCarrier_known (h : r.state ≠ .offline) : w.renewCarrier c =
    (w.changeState c .offline []).onCarrier c (Carrier.renewed (w.s.classVals (w.s.classOf c))) := by
  unfold renewCarrier
  rw [hr]
  dsimp only
  rw [if_neg h]

/-- With nothing pending, the renewal of a carrier changes its record and posts its state. -/
theorem renewCarrier_effect (hwaiting : w.s.waiting = []) : Effect [.carriers, .waiting, .dispatch]
    (fun d => d = c ∧ r.state ≠ .offline)
    (([(c, r)].filter (fun x => decide (x.2.state ≠ .offline))).map (renewEntry w.s.now)) w (w.renewCarrier c) := by
  by_cases h : r.state = .offline
  · rw [renewCarrier_offline hr h]
    exact (w.onCarrier_effect c _).said (by decide) (fun d => by simp [h]) (by simp [h])
  · have hnone : w.s.staleEntries c .leftIdle = [] := by
      unfold State.staleEntries State.entry?
      rw [hwaiting]
      rfl
    have hchange := w.changeState_effect hr .offline []
    rw [hnone, ite_self] at hchange
    rw [renewCarrier_known hr h]
    exact (hchange.aside (onCarrier_effect _ c _)).said (by decide) (fun d => by simp [h]) (by
      simp [h, renewEntry, CarrierState.code])

theorem carrier?_renewCarrier (d : Nat) : (w.renewCarrier c).s.carrier? d =
    if d = c then some (r.renewed (w.s.classVals (w.s.classOf c))) else w.s.carrier? d := by
  by_cases h : r.state = .offline
  · rw [renewCarrier_offline hr h, carrier?_onCarrier]
    refine if_ctx_congr Iff.rfl (fun hd => ?_) fun _ => rfl
    rw [hd, hr]
    rfl
  · rw [renewCarrier_known hr h, carrier?_onCarrier, carrier?_changeState]
    by_cases hd : d = c
    · rw [if_pos hd, if_pos hd, if_pos hd, hd, hr]
      rfl
    · rw [if_neg hd, if_neg hd, if_neg hd]

end

/-- The renewal of the carriers of some rows, in order. -/
def renewRows (w : Work) (rows : List (Nat × Carrier)) : Work := (rows.map Prod.fst).foldl Work.renewCarrier w

/-- What the renewal of some carriers makes of a part with nothing pending. -/
theorem renewRows_effect {rows : List (Nat × Carrier)} (hnodup : (rows.map Prod.fst).Nodup) {w : Work}
    (hrows : ∀ x ∈ rows, w.s.carrier? x.1 = some x.2) (hwaiting : w.s.waiting = []) :
    Effect [.carriers, .waiting, .dispatch] (fun d => ∃ x ∈ rows, x.1 = d ∧ x.2.state ≠ .offline)
      ((rows.filter (fun x => decide (x.2.state ≠ .offline))).map (renewEntry w.s.now)) w (w.renewRows rows) ∧
    (w.renewRows rows).s.waiting = [] ∧
    (∀ x ∈ rows, (w.renewRows rows).s.carrier? x.1 = some (x.2.renewed (w.s.classVals (w.s.classOf x.1)))) ∧
    (∀ d, d ∉ rows.map Prod.fst → (w.renewRows rows).s.carrier? d = w.s.carrier? d) := by
  induction rows generalizing w with
  | nil =>
    exact ⟨(Effect.refl w).said (by decide) (fun d => by simp) rfl, hwaiting, fun x hx => absurd hx List.not_mem_nil,
      fun _ _ => rfl⟩
  | cons x rest ih =>
    obtain ⟨c, r⟩ := x
    rw [List.map_cons, List.nodup_cons] at hnodup
    have hr : w.s.carrier? c = some r := hrows (c, r) List.mem_cons_self
    have hfirst := renewCarrier_effect hr hwaiting
    have hcarrier := carrier?_renewCarrier hr
    have hempty : (w.renewCarrier c).s.waiting = [] :=
      List.length_eq_zero_iff.1 (Nat.le_zero.1
        ((Machine.Within.waiting (w.renewCarrier_within c)).trans (by simp [hwaiting])))
    have hne : ∀ x ∈ rest, x.1 ≠ c := fun x hx h => hnodup.1 (List.mem_map.2 ⟨x, hx, h⟩)
    obtain ⟨heffect, hwaiting', hin, hout⟩ := ih hnodup.2 (w := w.renewCarrier c) (fun x hx => by
      rw [hcarrier, if_neg (hne x hx)]
      exact hrows x (List.mem_cons_of_mem _ hx)) hempty
    rw [hfirst.only.now] at heffect
    have hclass : ∀ d, (w.renewCarrier c).s.classVals ((w.renewCarrier c).s.classOf d) = w.s.classVals (w.s.classOf d) :=
      fun d => by
        unfold State.classVals State.classOf
        rw [hfirst.only.cfg]
    refine ⟨(hfirst.aside heffect).said (by decide) (fun d => ?_) ?_, hwaiting', fun x hx => ?_, fun d hd => ?_⟩
    · simp [eq_comm]
    · rw [← List.map_append, ← List.filter_append]
      rfl
    · rcases List.mem_cons.1 hx with rfl | hx
      · exact (hout c hnodup.1).trans ((hcarrier c).trans (if_pos rfl))
      · rw [← hclass]
        exact hin x hx
    · rw [List.map_cons, List.mem_cons, not_or] at hd
      exact (hout d hd.2).trans ((hcarrier d).trans (if_neg hd.1))

end Work

/-! ## The part as it enters CONFIG (R142, R167) -/

/-- The part in CONFIG with its segments fresh, no route and nothing pending, its carriers and cranes as they were. -/
def State.asConfig (u : State) : State :=
  ((State.followMode { u with mode := .config, recoveryStart := none } u.effectiveMode).dropWaiting 0).resetSegs

section
variable (u : State)

/-- The picture cycle when the effective broadcast mode becomes OFF (R142). -/
def State.stilledCycle : Cycle :=
  if u.mode = .active ∧ u.cfg.broadcast.mode ≠ .off then { u.cycle with timer := none, rerun := false } else u.cycle

theorem State.followMode_config : State.followMode { u with mode := .config, recoveryStart := none } u.effectiveMode =
    { u with mode := .config, recoveryStart := none, cycle := u.stilledCycle } := by
  have hoff : State.effectiveMode { u with mode := .config, recoveryStart := none } = .off := rfl
  unfold State.followMode
  rw [hoff]
  unfold State.stilledCycle State.effectiveMode
  by_cases hmode : u.mode = .active
  · by_cases hset : u.cfg.broadcast.mode = .off
    · simp [hmode, hset]
    · simp [hmode, hset, Ne.symm hset, State.enterMode]
  · simp [hmode]

theorem State.asConfig_rest : u.asConfig = { u with
    mode := .config, recoveryStart := none, segs := u.asConfig.segs, routes := Table.empty, waiting := []
    cycle := u.stilledCycle, dispatch := u.asConfig.dispatch } := by
  unfold State.asConfig
  rw [State.followMode_config]
  unfold State.resetSegs
  rw [State.dropWaiting_rest]

theorem State.dlink_asConfig (m : DLink) : u.asConfig.dlink m = (u.dlink m).offers u.now
    (u.waiting.map (fun e => ⟨.pendingDropped, u.now, .carrier e.carrier, [.byte 0, .half e.tag]⟩)) := by
  unfold State.asConfig
  rw [State.followMode_config]
  exact State.dlink_dropWaiting _ _ _

theorem State.seg_asConfig {i : Nat} (hi : i < u.grid.lanes * u.grid.bays) : u.asConfig.seg i = ⟨.free, Table.empty,
    ⟨false, u.dlcClosed && (u.grid.record i).dlc, u.rlcClosed && (u.grid.record i).rlc⟩, none⟩ := by
  unfold State.asConfig
  rw [State.followMode_config]
  rw [State.dropWaiting_rest]
  exact seg_freshSegs { u with
    mode := .config, recoveryStart := none, cycle := u.stilledCycle, waiting := []
    dispatch := (State.dropWaiting { u with
      mode := .config, recoveryStart := none, cycle := u.stilledCycle } 0).dispatch } (decide_eq_true hi)

/-- Every carrier renewed, before the end of that request. -/
def State.renewal : Work := (Work.start u.asConfig none).renewRows u.carriers.rows

theorem State.becomeConfig_eq : u.becomeConfig = u.renewal.finish.renewCranes.postMode u.mode .config 0x3E := by
  have hcarriers : u.asConfig.carriers = u.carriers := by rw [u.asConfig_rest]
  have hkeys : Work.renewCarriers (Work.start u.asConfig none) = u.renewal := by
    unfold Work.renewCarriers State.renewal Work.renewRows
    show u.asConfig.carriers.keys.foldl _ _ = _
    rw [hcarriers]
    rfl
  show (Work.renewCarriers (Work.start u.asConfig none)).finish.renewCranes.postMode u.mode .config 0x3E = _
  rw [hkeys]

end

/-! ## The end of that request -/

section
variable {u : State} (hc : u.carriers.Sorted)
include hc

/-- What the renewal of every carrier makes of the part. -/
theorem State.renewal_effect :
    Work.Effect [.carriers, .waiting, .dispatch] (fun d => ∃ r, u.carrier? d = some r ∧ r.state ≠ .offline)
      ((u.carriers.rows.filter (fun x => decide (x.2.state ≠ .offline))).map (Work.renewEntry u.now))
      (Work.start u.asConfig none) u.renewal ∧
    u.renewal.s.waiting = [] ∧
    (∀ c r, u.carrier? c = some r → u.renewal.s.carrier? c = some (r.renewed (u.classVals (u.classOf c)))) ∧
    (∀ c, u.carrier? c = none → u.renewal.s.carrier? c = none) := by
  have hrest := u.asConfig_rest
  have hnodup : (u.carriers.rows.map Prod.fst).Nodup :=
    List.Pairwise.imp (fun h => Nat.ne_of_lt h) (List.pairwise_map.2 hc)
  have hcarrier : ∀ c, (Work.start u.asConfig none).s.carrier? c = u.carrier? c := fun c => by
    show u.asConfig.carrier? c = _
    rw [hrest]
    rfl
  have hclass : ∀ c, (Work.start u.asConfig none).s.classVals ((Work.start u.asConfig none).s.classOf c) =
      u.classVals (u.classOf c) := fun c => by
    show u.asConfig.classVals (u.asConfig.classOf c) = _
    rw [hrest]
    rfl
  have hnow : (Work.start u.asConfig none).s.now = u.now := by
    show u.asConfig.now = _
    rw [hrest]
  have hmem : ∀ c r, (c, r) ∈ u.carriers.rows ↔ u.carrier? c = some r := Table.mem_rows_iff hc
  obtain ⟨heffect, hwaiting, hin, hout⟩ := Work.renewRows_effect hnodup (w := Work.start u.asConfig none)
    (fun x hx => (hcarrier x.1).trans ((hmem x.1 x.2).1 hx)) (by
      show u.asConfig.waiting = []
      rw [hrest])
  rw [hnow] at heffect
  refine ⟨heffect.said (by decide) (fun d => ?_) rfl, hwaiting, fun c r hr => ?_, fun c hnone => ?_⟩
  · constructor
    · rintro ⟨⟨c, r⟩, hx, rfl, hstate⟩
      exact ⟨r, (hmem c r).1 hx, hstate⟩
    · rintro ⟨r, hr, hstate⟩
      exact ⟨(d, r), (hmem d r).2 hr, rfl, hstate⟩
  · rw [← hclass]
    exact hin (c, r) ((hmem c r).2 hr)
  · refine (hout c fun hx => ?_).trans ((hcarrier c).trans hnone)
    obtain ⟨⟨d, r⟩, hrow, rfl⟩ := List.mem_map.1 hx
    rw [(hmem d r).1 hrow] at hnone
    cases hnone

theorem State.renewal_rest : u.renewal.s = { u with
    mode := .config, recoveryStart := none, segs := u.asConfig.segs, routes := Table.empty, waiting := []
    carriers := u.renewal.s.carriers, cycle := u.stilledCycle, dispatch := u.renewal.s.dispatch } := by
  obtain ⟨heffect, hwaiting, -, -⟩ := State.renewal_effect hc
  rw [heffect.only.eq]
  unfold State.taking
  simp only [List.mem_cons, List.not_mem_nil, reduceCtorEq, or_false, or_true, or_self, if_true, if_false, hwaiting]
  show ({ u.asConfig with
    carriers := u.renewal.s.carriers, waiting := [], dispatch := u.renewal.s.dispatch } : State) = _
  rw [u.asConfig_rest]

theorem State.renewal_reexam : u.renewal.reexam = false := by
  obtain ⟨heffect, -, -, -⟩ := State.renewal_effect hc
  exact heffect.reexam_eq fun i => by rw [heffect.only.seg (by decide)]; exact SegDyn.callsFor_self _

/-- The end of that request is its runs: nothing is reported to the Picture Broadcaster in CONFIG (R74, R142). -/
theorem State.renewal_finish : u.renewal.finish = (u.renewal.runEach u.renewal.concernedIds).s := by
  have hmode : u.renewal.s.mode = .config := by rw [State.renewal_rest hc]
  have hpicture : u.renewal.s.pictureChange u.renewal.codeChanges = u.renewal.s :=
    Work.pictureChange_unchanged fun h => by rw [hmode] at h; exact nomatch h.1
  rw [u.renewal.finish_ran (State.renewal_reexam hc), hpicture]

theorem State.renewal_offline {c : Nat} {r : Carrier} (hr : u.renewal.s.carrier? c = some r) : r.state = .offline := by
  obtain ⟨-, -, hin, hout⟩ := State.renewal_effect hc
  cases hx : u.carrier? c with
  | none => rw [hout c hx] at hr; exact nomatch hr
  | some x =>
    rw [hin c x hx] at hr
    exact Option.some.inj hr ▸ rfl

theorem State.renewal_concerns {c : Nat} {r : Carrier} (hr : u.carrier? c = some r) (hstate : r.state ≠ .offline) :
    c ∈ u.renewal.concernedIds := by
  obtain ⟨heffect, -, hin, -⟩ := State.renewal_effect hc
  refine (u.renewal.mem_concernedIds c).2 ⟨by rw [hin c r hr]; exact Option.some_ne_none _,
    (u.renewal.concerns_iff c).2 ?_⟩
  exact .inl ((heffect.grown.runs c).2 (.inr ⟨r, hr, hstate⟩))

/-- The runs at the end of that request, and what they may change. -/
theorem State.renewal_runs : State.Only [.carriers, .radios] u.renewal.s u.renewal.finish ∧
    State.OnlyRuns u.renewal.s u.renewal.finish := by
  have hreport : u.renewal.report = none := (State.renewal_effect hc).1.grown.report
  refine ⟨?_, u.renewal.finish_onlyRuns hreport (.inl (State.renewal_reexam hc))⟩
  rw [State.renewal_finish hc]
  exact (Work.runEach_steady_effect hreport _ fun c r hr => by rw [State.renewal_offline hc hr]; decide).only

end

/-- The cranes renewed and the mode notified change no other block (R117, R167). -/
theorem State.renewCranes_postMode (v : State) (old new : PartMode) (n : Nat) : v.renewCranes.postMode old new n =
    State.post { v with cranes := v.cranes.mapVals (fun c => Crane.fresh c.frames c.repeats c.implausible) } .mode
      .nothing [.byte old.code, .byte new.code, .byte n] := rfl

/-- The part as it is in CONFIG (R74, R117, R167). -/
theorem becomeConfig_holds {u : State} (hc : u.carriers.Sorted) : ∃ fin : State, fin = u.renewal.finish ∧
    u.becomeConfig = State.post { fin with
      cranes := u.cranes.mapVals (fun c => Crane.fresh c.frames c.repeats c.implausible) } .mode .nothing
        [.byte u.mode.code, .byte 0, .byte 0x3E] ∧
    fin = { u with
      mode := .config, recoveryStart := none, segs := u.asConfig.segs, routes := Table.empty, waiting := []
      carriers := fin.carriers, radios := fin.radios, cycle := u.stilledCycle
      dispatch := fin.dispatch } := by
  obtain ⟨honly, -⟩ := State.renewal_runs hc
  have hrest := State.renewal_rest hc
  have hfin : u.renewal.finish = { u with
      mode := .config, recoveryStart := none, segs := u.asConfig.segs, routes := Table.empty, waiting := []
      carriers := u.renewal.finish.carriers, radios := u.renewal.finish.radios, cycle := u.stilledCycle
      dispatch := u.renewal.finish.dispatch } := by
    have hsegs := honly.segs (by decide)
    have hwaiting := honly.waiting (by decide)
    have hroutes := honly.routes (by decide)
    have hversions := honly.versions (by decide)
    have hcranes := honly.cranes (by decide)
    have hlinks := honly.craneLinks (by decide)
    have hlearning := honly.learning (by decide)
    have hcycle := honly.cycle (by decide)
    have hall := honly.rest
    rw [hsegs, hwaiting, hroutes, hversions, hcranes, hlinks, hlearning, hcycle, hrest] at hall
    exact hall
  have hcranes : u.renewal.finish.cranes = u.cranes := by rw [hfin]
  refine ⟨u.renewal.finish, rfl, ?_, hfin⟩
  rw [u.becomeConfig_eq, State.renewCranes_postMode, hcranes]
  rfl

/-- Settles O56. -/
theorem enterConfig : Obligations.EnterConfig := by
  unfold Obligations.EnterConfig
  intro s u l quiet hu hroom hc hs hquiet
  have hbusy : u.mode ≠ .config → ∀ detail, u.busySubject = some detail →
      exec (.enterConfig l) s = .next (u.answered l ⟨0x3E, .refused, .busyApron, false, detail⟩) :=
    fun hmode detail h => next_takeRequest (owner := ownEnterConfig) hu hroom (by
      unfold ownEnterConfig
      rw [if_neg hmode, h]
      rfl)
  refine ⟨fun hmode => next_takeRequest (owner := ownEnterConfig) hu hroom (if_pos hmode), fun hmode hnot => ?_,
    fun hmode detail busy frozen hisBusy hisFrozen h => hbusy hmode detail ?_, fun hmode hq => ?_⟩
  · obtain ⟨detail, hdetail⟩ := Option.ne_none_iff_exists'.1
      (mt ((State.busySubject_none_iff hc hs).trans hquiet.symm).1 hnot)
    exact ⟨detail, hbusy hmode detail hdetail⟩
  · have hidle : (∀ c, ¬ busy c) → u.carriers.keysWhere (fun r => r.state.busy) = [] := fun hnone =>
      (State.noneBusy_iff hc).2 fun c r hr => by
        by_contra h
        exact hnone c ((hisBusy c).2 ⟨r, hr, by grind⟩)
    rcases h with ⟨c, r, hb, hmin, hr, rfl⟩ | ⟨hnone, ⟨i, hi, hmin, rfl⟩ | ⟨hthaw, h⟩⟩
    · obtain ⟨x, hx, hst⟩ := (hisBusy c).1 hb
      obtain rfl := Option.some.inj (hx.symm.trans hr)
      exact State.busySubject_carrier hc hr ((CarrierState.busy_iff _).2 hst) fun b x hb hx =>
        Bool.eq_false_iff.2 fun hbx => hmin b hb ((hisBusy b).2 ⟨x, hx, (CarrierState.busy_iff _).1 hbx⟩)
    · obtain ⟨rest, hkeys⟩ := State.frozen_lowest hs ((hisFrozen i).1 hi) fun j hj => mt (hisFrozen j).2 (hmin j hj)
      exact State.busySubject_frozen (hidle hnone) hkeys
    · have hnofrozen : u.segs.keysWhere SegDyn.isFrozen = [] :=
        (State.noneFrozen_iff hs).2 fun i p x h => hthaw i ((hisFrozen i).2 ⟨p, x, h⟩)
      rcases h with ⟨k, m, hk, hm, hmin, rfl⟩ | ⟨hclaims, k, hk, hmoving, hmin, rfl⟩
      · exact State.busySubject_claim (hidle hnone) hnofrozen hk hm hmin
      · exact State.busySubject_travel (hidle hnone) hnofrozen hclaims hk hmoving hmin
  · obtain ⟨heffect, hwaiting, hin, hout⟩ := State.renewal_effect hc
    obtain ⟨honly, hruns⟩ := State.renewal_runs hc
    obtain ⟨fin, hfin, ht, hrest⟩ := becomeConfig_holds hc
    rw [← hfin] at honly hruns
    have howner : ownEnterConfig u = (u.becomeConfig, ⟨0x3E, .accepted, .none_, false,
        [.byte (u.carriers.rows.filter (fun x => decide (x.2.state ≠ .offline))).length,
          .byte ((List.range 8).filter (fun k => decide ((u.crane k).state ≠ .offline))).length]⟩) := by
      unfold ownEnterConfig
      rw [if_neg hmode, (State.busySubject_none_iff hc hs).2 (hquiet.1 hq)]
      rfl
    have hreport : u.renewal.report = none := heffect.grown.report
    refine ⟨u.becomeConfig, u.renewal, next_takeRequest hu hroom howner, ?_, ?_, State.renewal_reexam hc, hreport,
      fun c => ?_, ?_, fun c r k hr hstate hk hup hlinks => ?_, ?_⟩
    · rw [ht, hfin]
      rfl
    · refine List.eq_nil_iff_forall_not_mem.2 fun i hi => ?_
      rcases (heffect.grown.touched i).1 hi with hi | hi
      · exact nomatch hi
      · exact hi (heffect.only.seg (by decide) i)
    · exact (heffect.grown.runs c).trans (or_iff_right List.not_mem_nil)
    · rw [State.renewal_rest hc]
    · have hw : u.renewal.s.mode = .config ∧ u.renewal.s.radios = u.radios ∧ u.renewal.s.learning = u.learning := by
        rw [State.renewal_rest hc]
        exact ⟨rfl, rfl, rfl⟩
      obtain ⟨hwmode, hwradios, hwlearning⟩ := hw
      obtain ⟨f, hf, hstop, hcarries⟩ := Work.runEach_stops hreport (by rw [hwmode]; decide)
        (State.renewal_concerns hc hr hstate) (hin c r hr) (by exact fun h => nomatch h) hk
        (by unfold State.radio; rw [hwradios]; exact hup) (by rw [hwlearning]; exact hlinks)
      rw [← State.renewal_finish hc, ← hfin] at hcarries
      refine ⟨f, hf, hstop, ?_⟩
      rw [ht]
      exact hcarries
    have hread : ∀ c, u.becomeConfig.carrier? c = fin.carrier? c := fun c => by rw [ht]; rfl
    have hcarrier : ∀ c, fin.carrier? c = none ↔ u.carrier? c = none := fun c => by
      obtain ⟨a, ha⟩ := hruns.carriers c
      rw [ha, Option.map_eq_none_iff]
      refine ⟨fun h => ?_, hout c⟩
      by_contra hsome
      obtain ⟨r, hr⟩ := Option.ne_none_iff_exists'.1 hsome
      rw [hin c r hr] at h
      cases h
    refine ⟨?_, ?_, ?_, ?_, fun i hi => ?_, fun c r hr => ?_, fun c hnone => (hread c).trans ((hcarrier c).2 hnone),
      fun k _ => ?_, fun c => ?_, ?_, ?_, ?_, ?_, fun k => ?_, fun m => ?_, ?_⟩
    · rw [ht, hrest]
      rfl
    · rw [ht, hrest]
      rfl
    · rw [ht, hrest]
      rfl
    · rw [ht, hrest]
      rfl
    · rw [ht, hrest, ← u.seg_asConfig hi]
      rfl
    · obtain ⟨a, ha⟩ := hruns.carriers c
      rw [hin c r hr] at ha
      exact ⟨a, (hread c).trans ha⟩
    · rw [ht]
      exact Table.get_mapVals _ _ _ _ rfl
    · rw [ht, hrest]
      rfl
    · rw [ht, hrest]
      rfl
    · rw [ht, hrest]
      rfl
    · rw [ht, hrest]
      rfl
    · rw [ht, hrest]
      rfl
    · have hfed := hruns.radios k
      have hradio : u.renewal.s.radio k = u.radio k := by
        rw [State.renewal_rest hc]
        rfl
      rw [hradio] at hfed
      rw [ht]
      exact hfed
    · have hnow : fin.now = u.now := by rw [hrest]
      have hposts := heffect.posts m
      have hstart : (Work.start u.asConfig none).s.now = u.now := by
        show u.asConfig.now = _
        rw [u.asConfig_rest]
      rw [hstart, show (Work.start u.asConfig none).s.dlink m = _ from u.dlink_asConfig m,
        ← DispatchLink.offers_append] at hposts
      rw [ht, State.dlink_post]
      refine (congrArg₂ (fun now (d : DispatchLink) => d.offer now ⟨.mode, now, .nothing,
        [.byte u.mode.code, .byte 0, .byte 0x3E]⟩) hnow ((honly.dlink (by decide) m).trans hposts)).trans ?_
      simp only [DispatchLink.offers_append]
      rfl
    · rw [ht, hrest]
      rfl

end Sys2Proof.Machine
end

section
/-! Position reports: what a report that is taken makes of the part before it is handled by state, and its copies (R54 to
R58, R61, R64, R67, R68, R160, R161). -/

namespace Sys2Proof.Machine

/-! ## The copies of a report (R160, R161) -/

/-- The flags that a report matches a copy rule by (R54, R161). -/
theorem CopyRule.flagPasses_prepare (x : CopyRule) (a : ReportArgs) : x.flagPasses (some (prepare a).flags) =
    match x.flag with
    | .nothing => true
    | .fault => decide (a.flags / 2 % 2 = 1) || (decide (a.flags % 2 = 1) && decide (0 < a.speed))
    | .laden => decide (a.flags / 4 % 2 = 1) := by
  unfold CopyRule.flagPasses prepare readCarrierFlags
  cases x.flag <;> simp [Nat.testBit_eq_decide_div_mod_eq]

theorem State.copyRulesFor_report (s : State) (a : ReportArgs) (disposition : Disposition) (bytes : List Byte)
    (m : DLink) : s.copyRulesFor ⟨a.carrier, some (prepare a).flags, disposition, bytes⟩ m = s.rulesFor a m := by
  unfold State.copyRulesFor State.rulesFor CopyRule.matchesFrame
  refine congrArg s.cfg.copyRules.keysWhere (funext fun x => ?_)
  dsimp only
  rw [CopyRule.flagPasses_prepare, Option.isSome_some, Bool.or_true, Bool.and_true]
  rw [Bool.and_assoc, Bool.and_assoc, Bool.and_assoc, Bool.and_assoc]
  exact congrArg₂ _ rfl (congrArg₂ _ rfl (Bool.and_comm _ _))

/-- A report offered to the copy rules (R161). -/
theorem State.copied_report (s : State) (r : Fin 4) (a : ReportArgs) (disposition : Disposition) :
    s.Copied (s.copyFrame r ⟨a.carrier, some (prepare a).flags, disposition, 1 :: a.bytes⟩) r a disposition.code where
  rest := State.copyFrame_rest s r _
  dispatch m := by
    rw [State.dlink_copyFrame, State.copyRulesFor_report, State.copyEntry, State.copyRulesFor_report]
    rfl

/-! ## A report that is taken (R55) -/

section
variable {s u : State} {r : Fin 4} {a : ReportArgs} {x : Carrier}

theorem report_taken (hu : u = s.radioArrival r) (hconf : (s.radio r).state ≠ .unconfigured)
    (hx : u.carrier? a.carrier = some x) (hnew : x.lastSeq ≠ some a.seq) {body : Work → Work} {disposition : Disposition}
    (hjudge : u.judgeReport a.carrier r x (prepare a) = (u.reportRequest a.carrier body, disposition)) :
    ∃ t : State, exec (.positionReport r a) s = .next t.pump ∧
      (body (Work.start u (some a.carrier))).finish.Copied t r a disposition.code := by
  refine ⟨_, ?_, State.copied_report _ r a disposition⟩
  show Host.Outcome.next (s.sortRadio r (fun s => s.takeReport r a)).pump = _
  rw [sortRadio_configured s r _ hconf, ← hu]
  unfold State.takeReport
  rw [hx]
  dsimp only
  rw [if_neg hnew, hjudge]
  rfl

/-- A report that passes the window, or meets a MISSING carrier, is accepted (R56, R58, R67). -/
theorem State.Accepts.inWindow (h : u.Accepts a x) (hstate : x.state ≠ .missing) : x.inWindow = true := by
  unfold Carrier.inWindow
  cases ht : x.timer with
  | none => rfl
  | some n => exact decide_eq_true ((h.timely.resolve_left hstate).2 n ht)

end

namespace Work

/-! ## The fields of an accepted report (R58, R125) -/

section
variable (w : Work) (c radio : Nat) (p : Report)

theorem learn_effect : Effect [.learning] (fun _ => False) [] w (w.on (fun s => s.learn c radio)) :=
  w.on_effect [.learning] (.of_eq (t := w.s.learn c radio) rfl)

/-- The fields of an accepted report in the carrier's record. -/
def reportStored (w : Work) (c : Nat) (p : Report) (timerRuns : Bool) : Work :=
  (w.applyClass c).onCarrier c (fun r => { r with
    timer := if timerRuns then some r.applied.period else none
    lastSeq := some p.seq
    front := p.front
    frontRem := p.frontRem
    rear := p.rear
    speed := p.speed
    flags := p.flags
    lastTime := some w.s.now
    earlyRun := false })

theorem acceptReport_eq (runs : Bool) : w.acceptReport c radio p runs =
    ((w.reportStored c p runs).on (fun s => s.learn c radio)).concern c := rfl

theorem reportStored_effect (runs : Bool) : Effect [.carriers] (fun _ => False) [] w (w.reportStored c p runs) :=
  ((w.applyClass_effect c).aside (onCarrier_effect _ c _)).said (by decide) (fun _ => by simp) rfl

theorem acceptReport_effect (runs : Bool) :
    Effect [.carriers, .learning] (fun d => d = c) [] w (w.acceptReport c radio p runs) := by
  rw [acceptReport_eq]
  exact (((w.reportStored_effect c p runs).aside (learn_effect _ c radio)).aside (concern_effect _ c)).said (by decide)
    (fun _ => by simp) rfl

theorem carrier?_acceptReport (d : Nat) : (w.acceptReport c radio p true).s.carrier? d = if d = c then
    (w.s.carrier? d).map (fun x => x.reported (w.s.classVals (w.s.classOf c)) p w.s.now) else w.s.carrier? d := by
  have hlearn := (learn_effect (w.reportStored c p true) c radio).only.carrier? (by decide) d
  have hstored : (w.reportStored c p true).s.carrier? d = if d = c then
      (w.s.carrier? d).map (fun x => x.reported (w.s.classVals (w.s.classOf c)) p w.s.now) else w.s.carrier? d := by
    rw [reportStored, carrier?_onCarrier, applyClass, carrier?_onCarrier]
    by_cases hd : d = c
    · rw [if_pos hd, if_pos hd, if_pos hd, Option.map_map]
      rfl
    · rw [if_neg hd, if_neg hd, if_neg hd]
  rw [acceptReport_eq]
  exact hlearn.trans hstored

theorem learning_acceptReport (runs : Bool) : (w.acceptReport c radio p runs).s.learning = w.s.heard c radio := by
  have hstored := (w.reportStored_effect c p runs).only
  have hheard : (w.reportStored c p runs).s.heard c radio = w.s.heard c radio := by
    unfold State.heard
    rw [hstored.learning (by decide), hstored.now, hstored.cfg]
  rw [acceptReport_eq]
  exact hheard

end

/-! ## Marks on reported ground (R43, R64) -/

theorem mark_idem (q : Party) (r : SegDyn) : (r.mark q).mark q = r.mark q := by
  unfold SegDyn.mark
  by_cases h : (r.heldBy q || r.intruder.isSome) = true
  · simp [h]
  · rw [if_neg h]
    simp

/-- The entry that an intrusion posts, where the segment belongs to another party (R64). -/
def intrusion (now : Time) (c i : Nat) (r : SegDyn) : List Notif :=
  ((r.otherParty c).map (fun q =>
    ⟨.intrusion, now, .segment i, partyVals (some (.carrier c)) ++ partyVals (some q)⟩)).toList

section
variable (w : Work) (c i : Nat)

theorem mark_effect (q : Party) : Effect [.segs] (fun _ => False) [] w (w.mark q i) := w.onSegs_effect [i] (mark_idem q)

theorem seg_mark (q : Party) (j : Nat) : (w.mark q i).s.seg j = if j = i then (w.s.seg j).mark q else w.s.seg j :=
  w.seg_onSeg i j _

theorem intrude_effect : Effect [.segs, .dispatch] (fun _ => False) (intrusion w.s.now c i (w.s.seg i)) w
    (w.intrude c i) := by
  have hmark := w.mark_effect i (.carrier c)
  unfold intrude intrusion
  cases hother : (w.s.seg i).otherParty c with
  | none => exact hmark.said (by decide) (fun _ => Iff.rfl) rfl
  | some q =>
    have hpost := post_effect (w.mark (.carrier c) i) .intrusion (.segment i)
      (partyVals (some (.carrier c)) ++ partyVals (some q))
    rw [hmark.only.now] at hpost
    exact (hmark.aside hpost).said (by decide) (fun _ => by simp) rfl

theorem seg_intrude (j : Nat) :
    (w.intrude c i).s.seg j = if j = i then (w.s.seg j).mark (.carrier c) else w.s.seg j := by
  rw [← seg_mark]
  unfold intrude
  dsimp only
  split
  · exact (post_effect _ _ _ _).only.seg (by decide) j
  · rfl

end

/-- The marks and entries of some different segments, one after another. -/
theorem intrudeEach {ids : List Nat} (hnodup : ids.Nodup) (w : Work) (c : Nat) :
    Effect [.segs, .dispatch] (fun _ => False) (ids.flatMap (fun i => intrusion w.s.now c i (w.s.seg i))) w
        (ids.foldl (fun w i => w.intrude c i) w) ∧
      ∀ j, (ids.foldl (fun w i => w.intrude c i) w).s.seg j =
        if j ∈ ids then (w.s.seg j).mark (.carrier c) else w.s.seg j := by
  induction ids generalizing w with
  | nil => exact ⟨(Effect.refl w).said (by decide) (fun _ => Iff.rfl) rfl, fun j => rfl⟩
  | cons i rest ih =>
    rw [List.nodup_cons] at hnodup
    have hfirst := w.intrude_effect c i
    have hseg := w.seg_intrude c i
    obtain ⟨hrest, hsegs⟩ := ih hnodup.2 (w.intrude c i)
    have hentries : rest.flatMap (fun j => intrusion (w.intrude c i).s.now c j ((w.intrude c i).s.seg j)) =
        rest.flatMap (fun j => intrusion w.s.now c j (w.s.seg j)) := by
      rw [hfirst.only.now]
      refine List.flatMap_congr fun j hj => ?_
      rw [hseg, if_neg fun h : j = i => hnodup.1 (h ▸ hj)]
    rw [hentries] at hrest
    refine ⟨(hfirst.trans hrest fun j => ?_).said (by decide) (fun _ => by simp) rfl, fun j => ?_⟩
    · by_cases hj : j = i
      · exact .of_right ((hsegs j).trans (if_neg fun h => hnodup.1 (hj ▸ h)))
      · exact .of_left ((hseg j).trans (if_neg hj))
    · rw [List.foldl_cons, hsegs, hseg]
      by_cases hj : j = i
      · subst hj
        simp [hnodup.1]
      · simp [hj]

theorem nodup_ground (p : Report) : p.ground.Nodup := by
  rw [Report.ground, groundOf_eq]
  cases p.front with
  | none => cases p.rear <;> simp
  | some f =>
    cases p.rear with
    | none => simp
    | some b =>
      by_cases h : b = f
      · simp [h]
      · simp [h, Ne.symm h]

/-- A mark on ground that the carrier holds changes nothing (R43). -/
theorem mark_of_held {r : SegDyn} {q : Party} (h : r.heldBy q = true) : r.mark q = r := by
  unfold SegDyn.mark
  rw [h]
  rfl

/-- What a deviation marks and posts (R64). -/
theorem markDeviation_effect (w : Work) (c : Nat) (p : Report) :
    Effect [.segs, .dispatch] (fun _ => False) (w.s.intrusions c p.ground) w (w.markDeviation c p) := by
  have h := (intrudeEach ((nodup_ground p).filter
    (fun i => w.s.grid.inside i && !(w.s.seg i).heldBy (.carrier c))) w c).1
  refine h.said (by decide) (fun _ => Iff.rfl) ?_
  unfold State.intrusions
  rw [List.filterMap_eq_flatMap_toList]
  rfl

theorem seg_markDeviation (w : Work) (c : Nat) (p : Report) (i : Nat) : (w.markDeviation c p).s.seg i =
    if i ∈ p.ground ∧ i < w.s.grid.lanes * w.s.grid.bays then (w.s.seg i).mark (.carrier c) else w.s.seg i := by
  refine ((intrudeEach ((nodup_ground p).filter
    (fun i => w.s.grid.inside i && !(w.s.seg i).heldBy (.carrier c))) w c).2 i).trans ?_
  have hinside : w.s.grid.inside i = true ↔ i < w.s.grid.lanes * w.s.grid.bays := decide_eq_true_iff
  by_cases hheld : (w.s.seg i).heldBy (.carrier c) = true
  · rw [mark_of_held hheld, ite_self, ite_self]
  · refine if_congr ?_ rfl rfl
    rw [List.mem_filter, Bool.and_eq_true, hinside]
    simp [hheld]

end Work

end Sys2Proof.Machine
end

section
/-! Addressing reports, sightings, accepted reports in EMERGENCY and the return from MISSING (R55, R61, R64, R67, R68). -/

namespace Sys2Proof.Machine

namespace Work

section
variable {w : Work} {c : Nat} {r : Carrier} (hr : w.s.carrier? c = some r) (previous : Option Nat) (p : Report)
include hr

theorem handleReport_idle (h : r.state = .idle) : w.handleReport c previous p = w.idleReport c p := by
  unfold handleReport
  rw [hr]
  dsimp only
  rw [h]

theorem handleReport_authorized (h : r.state = .authorized) :
    w.handleReport c previous p = w.authorizedReport c previous p := by
  unfold handleReport
  rw [hr]
  dsimp only
  rw [h]

theorem handleReport_emergency (h : r.state = .emergency) : w.handleReport c previous p = w.emergencyReport c p := by
  unfold handleReport
  rw [hr]
  dsimp only
  rw [h]

end

/-! ## Reports that move nothing (R55, R68, R125) -/

/-- A report that stores some fields, teaches the routing its link, and calls for a run. -/
def noted (w : Work) (c radio : Nat) (f : Carrier → Carrier) : Work :=
  ((w.onCarrier c f).on (fun s => s.learn c radio)).concern c

section
variable (w : Work) (c radio : Nat) (f : Carrier → Carrier)

theorem noted_effect : Effect [.carriers, .learning] (fun d => d = c) [] w (w.noted c radio f) :=
  (((w.onCarrier_effect c f).aside (learn_effect _ c radio)).aside (concern_effect _ c)).said (by decide)
    (fun _ => by simp) rfl

theorem carrier?_noted (d : Nat) :
    (w.noted c radio f).s.carrier? d = if d = c then (w.s.carrier? d).map f else w.s.carrier? d :=
  ((learn_effect (w.onCarrier c f) c radio).only.carrier? (by decide) d).trans (carrier?_onCarrier _ _ _ _)

theorem learning_noted : (w.noted c radio f).s.learning = w.s.heard c radio := by
  have hstored := (w.onCarrier_effect c f).only
  have hheard : (w.onCarrier c f).s.heard c radio = w.s.heard c radio := by
    unfold State.heard
    rw [hstored.learning (by decide), hstored.now, hstored.cfg]
  exact hheard

end

theorem addressing_eq (w : Work) (c radio : Nat) (p : Report) : w.addressing c radio p =
    w.noted c radio (fun r => { r with lastSeq := some p.seq, lastTime := some w.s.now }) := rfl

theorem sight_eq (w : Work) (c radio : Nat) (p : Report) : w.sight c radio p = w.noted c radio (fun r => { r with
    lastSeq := some p.seq
    sighting := some ⟨p.front, p.frontRem, p.rear, p.speed, p.flags, w.s.now⟩ }) := rfl

end Work

/-! ## The state that a report in MISSING restores (R67) -/

section
variable {u : State} {c : Nat} {x : Carrier}

theorem State.holdsLocked_iff (hs : u.segs.Sorted) : u.holdsLocked c = true ↔
    ∃ i k, (u.seg i).hold = .held (.carrier c) k ∧ (u.seg i).lock.rows ≠ [] := by
  unfold State.holdsLocked
  simp only [List.any_eq_true, State.mem_heldBy hs, SegDyn.isLocked_iff]
  exact exists_congr fun i => by rw [exists_and_right]

theorem State.restored_eq (hs : u.segs.Sorted) {locked : Prop} {back : CarrierState} {cause : Option EmergencyCause}
    (hlocked : locked ↔ ∃ i k, (u.seg i).hold = .held (.carrier c) k ∧ (u.seg i).lock.rows ≠ [])
    (h : (x.prior = some .idle ∧ back = .idle ∧ cause = none) ∨
      (x.prior = some .authorized ∧ ¬ locked ∧ back = .authorized ∧ cause = none) ∨
      (x.prior = some .authorized ∧ locked ∧ back = .emergency ∧ cause = some .hoistViolation) ∨
      (x.prior = some .emergency ∧ back = .emergency ∧ cause = x.cause)) : u.restored c x = (back, cause) := by
  have hiff := (State.holdsLocked_iff (c := c) hs).trans hlocked.symm
  unfold State.restored
  rcases h with ⟨hp, rfl, rfl⟩ | ⟨hp, hl, rfl, rfl⟩ | ⟨hp, hl, rfl, rfl⟩ | ⟨hp, rfl, rfl⟩
  · rw [hp]
  · rw [hp]
    exact if_neg (mt hiff.1 hl)
  · rw [hp]
    exact if_pos (hiff.2 hl)
  · rw [hp]

theorem Report.deviates_iff (p : Report) {q : Nat → Bool} {held : Nat → Prop} (hq : ∀ i, q i = true ↔ held i) :
    (p.front.isNone || !(p.ground.all q)) = true ↔ p.front = none ∨ ∃ i ∈ p.ground, ¬ held i := by
  rw [Bool.or_eq_true, Option.isNone_iff_eq_none]
  simp [← hq]

end

namespace Work

/-- The prior state of a MISSING carrier restored and notified (R67). -/
theorem restore_effect (w : Work) (c : Nat) (r : Carrier) {back : CarrierState} {cause : Option EmergencyCause}
    (h : w.s.restored c r = (back, cause)) : Effect [.carriers, .dispatch] (fun _ => False)
      [⟨.carrierState, w.s.now, .carrier c, [.byte 5, .byte back.code] ++ cause.toList.map (fun q => .byte q.code)⟩] w
      (w.restore c r) := by
  have hstored := w.onCarrier_effect c (fun r => { r with state := back, prior := none, cause := cause })
  have hpost := post_effect (w.onCarrier c (fun r => { r with state := back, prior := none, cause := cause }))
    .carrierState (.carrier c) ([.byte 5, .byte back.code] ++ cause.toList.map (fun q => .byte q.code))
  rw [hstored.only.now] at hpost
  have heq : w.restore c r = (w.onCarrier c (fun r => { r with state := back, prior := none, cause := cause })).post
      .carrierState (.carrier c) ([.byte 5, .byte back.code] ++ cause.toList.map (fun q => .byte q.code)) := by
    unfold restore
    rw [h]
    cases cause <;> rfl
  rw [heq]
  exact (hstored.aside hpost).said (by decide) (fun _ => by simp) rfl

theorem carrier?_restore (w : Work) (c : Nat) (r : Carrier) {back : CarrierState} {cause : Option EmergencyCause}
    (h : w.s.restored c r = (back, cause)) (d : Nat) : (w.restore c r).s.carrier? d =
      if d = c then (w.s.carrier? d).map (fun r => { r with state := back, prior := none, cause := cause })
      else w.s.carrier? d := by
  unfold restore
  rw [h]
  exact ((post_effect _ _ _ _).only.carrier? (by decide) d).trans (carrier?_onCarrier _ _ _ _)

end Work

/-! ## Accepted reports (R58, R125) -/

/-- The part with the fields of an accepted report stored. -/
def Work.accepted (u : State) (c radio : Nat) (p : Report) : Work := (Work.start u (some c)).acceptReport c radio p true

section
variable {s u : State} {r : Fin 4} {a : ReportArgs} {x : Carrier} {p : Report}

theorem Work.accepted_effect (u : State) (c radio : Nat) (p : Report) :
    Work.Effect [.carriers, .learning] (fun d => d = c) [] (Work.start u (some c)) (Work.accepted u c radio p) := by
  unfold Work.accepted
  exact (Work.start u (some c)).acceptReport_effect c radio p true

theorem Work.learning_accepted (u : State) (c radio : Nat) (p : Report) :
    (Work.accepted u c radio p).s.learning = u.heard c radio := by
  unfold Work.accepted
  exact (Work.start u (some c)).learning_acceptReport c radio p true

theorem Work.carrier?_accepted (u : State) (c radio : Nat) (p : Report) (d : Nat) :
    (Work.accepted u c radio p).s.carrier? d = if d = c then
      (u.carrier? d).map (fun x => x.reported (u.classVals (u.classOf c)) p u.now) else u.carrier? d := by
  unfold Work.accepted
  exact (Work.start u (some c)).carrier?_acceptReport c radio p d

/-- The record of a carrier whose report is accepted (R58). -/
theorem State.Accepts.record (h : u.Accepts a x) (radio : Nat) (p : Report) :
    (Work.accepted u a.carrier radio p).s.carrier? a.carrier =
      some (x.reported (u.classVals (u.classOf a.carrier)) p u.now) :=
  (Work.carrier?_accepted u a.carrier radio p a.carrier).trans
    ((if_pos rfl).trans (congrArg (Option.map _) h.registered))

/-- An accepted report of a carrier that is not MISSING is handled by state once its fields are stored (R58). -/
theorem accepted_taken (hu : u = s.radioArrival r) (hconf : (s.radio r).state ≠ .unconfigured) (hp : p = prepare a)
    (h : u.Accepts a x) (hstate : x.state ≠ .missing) : ∃ t : State, exec (.positionReport r a) s = .next t.pump ∧
      ((Work.accepted u a.carrier r p).handleReport a.carrier x.front p).finish.Copied t r a 0 := by
  subst hp
  have hjudge := judgeReport_window (c := a.carrier) (radio := r) (p := prepare a) h.mode
    (h.timely.resolve_left hstate).1 (h.inWindow hstate)
  obtain ⟨t, hexec, hcopied⟩ := report_taken hu hconf h.registered h.new hjudge
  exact ⟨t, hexec, by unfold Work.accepted; exact hcopied⟩

theorem missing_taken (hu : u = s.radioArrival r) (hconf : (s.radio r).state ≠ .unconfigured) (hp : p = prepare a)
    (h : u.Accepts a x) (hstate : x.state = .missing) : ∃ t : State, exec (.positionReport r a) s = .next t.pump ∧
      (((Work.accepted u a.carrier r p).restore a.carrier x).handleReport a.carrier x.front p).finish.Copied t r a 0 := by
  subst hp
  have hjudge := judgeReport_missing (c := a.carrier) (radio := r) (p := prepare a) h.mode hstate
  obtain ⟨t, hexec, hcopied⟩ := report_taken hu hconf h.registered h.new hjudge
  exact ⟨t, hexec, by unfold Work.accepted; exact hcopied⟩

/-- A deviation marks the reported ground that the carrier does not hold and posts its intrusions (R43, R64). -/
def Work.markedIf (w : Work) (dev : Bool) (c : Nat) (p : Report) : Work := if dev then w.markDeviation c p else w

theorem Work.markedIf_effect (w : Work) (dev : Bool) (c : Nat) (p : Report) :
    Work.Effect [.segs, .dispatch] (fun _ => False) (if dev then w.s.intrusions c p.ground else []) w
      (w.markedIf dev c p) := by
  unfold Work.markedIf
  cases dev with
  | true => exact w.markDeviation_effect c p
  | false => exact (Work.Effect.refl w).said (by decide) (fun _ => Iff.rfl) rfl

theorem Work.seg_markedIf (w : Work) (dev : Bool) (c : Nat) (p : Report) (i : Nat) : (w.markedIf dev c p).s.seg i =
    if dev = true ∧ i ∈ p.ground ∧ i < w.s.grid.lanes * w.s.grid.bays then (w.s.seg i).mark (.carrier c)
    else w.s.seg i := by
  unfold Work.markedIf
  cases dev with
  | true => simp [Work.seg_markDeviation]
  | false => simp

/-- Marks call for no re-examination (R21, R43). -/
theorem Work.callsFor_markedIf (w : Work) (dev : Bool) (c : Nat) (p : Report) (i : Nat) :
    SegDyn.callsFor (w.s.seg i) ((w.markedIf dev c p).s.seg i) = false := by
  rw [Work.seg_markedIf]
  split
  · exact Work.mark_calm _ _
  · exact SegDyn.callsFor_self _

theorem State.intrusions_congr {s t : State} (hsegs : t.segs = s.segs) (hcfg : t.cfg = s.cfg) (hnow : t.now = s.now)
    (c : Nat) (ground : List Nat) : t.intrusions c ground = s.intrusions c ground := by
  unfold State.intrusions State.seg State.grid
  rw [hsegs, hcfg, hnow]

end

/-- Settles O33. -/
theorem addressingAndSighting : Obligations.AddressingAndSighting := by
  unfold Obligations.AddressingAndSighting
  refine ⟨fun s u r a x hu hconf hx hnew hstate => ?_, fun s u r a x p v dev hu hconf hp haccepts hstate hv hdev => ?_,
    fun s u r a x p v back cause locked hu hconf hp haccepts hv hlocked hback => ?_⟩
  · by_cases hmode : u.mode = .config
    · obtain ⟨t, hexec, hcopied⟩ := report_taken hu hconf hx hnew (judgeReport_config hmode)
      rw [Work.addressing_eq] at hcopied
      have heffect := (Work.start u (some a.carrier)).noted_effect a.carrier r
        (fun x => { x with lastSeq := some (prepare a).seq, lastTime := some u.now })
      have hcarrier := (Work.start u (some a.carrier)).carrier?_noted a.carrier r
        (fun x => { x with lastSeq := some (prepare a).seq, lastTime := some u.now })
      refine ⟨_, t, hexec, by rw [if_pos hmode]; exact hcopied, heffect.grown, heffect.reexam_eq fun i => ?_,
        fun _ => ?_, fun h => absurd hmode h, fun d hd => (hcarrier d).trans (if_neg hd),
        Work.learning_noted _ _ _ _, heffect.only.eq⟩
      · rw [heffect.only.seg (by decide)]
        exact SegDyn.callsFor_self _
      · exact (hcarrier a.carrier).trans ((if_pos rfl).trans (congrArg (Option.map _) hx))
    · have hlost : x.state = .lost := hstate.resolve_left hmode
      obtain ⟨t, hexec, hcopied⟩ := report_taken hu hconf hx hnew (judgeReport_lost hmode hlost)
      rw [Work.sight_eq] at hcopied
      have heffect := (Work.start u (some a.carrier)).noted_effect a.carrier r (fun x => { x with
        lastSeq := some (prepare a).seq
        sighting := some ⟨(prepare a).front, (prepare a).frontRem, (prepare a).rear, (prepare a).speed,
          (prepare a).flags, u.now⟩ })
      have hcarrier := (Work.start u (some a.carrier)).carrier?_noted a.carrier r (fun x => { x with
        lastSeq := some (prepare a).seq
        sighting := some ⟨(prepare a).front, (prepare a).frontRem, (prepare a).rear, (prepare a).speed,
          (prepare a).flags, u.now⟩ })
      refine ⟨_, t, hexec, by rw [if_neg hmode]; exact hcopied, heffect.grown, heffect.reexam_eq fun i => ?_,
        fun h => absurd h hmode, fun _ p hp => ?_, fun d hd => (hcarrier d).trans (if_neg hd),
        Work.learning_noted _ _ _ _, heffect.only.eq⟩
      · rw [heffect.only.seg (by decide)]
        exact SegDyn.callsFor_self _
      · rw [hp]
        exact (hcarrier a.carrier).trans ((if_pos rfl).trans (congrArg (Option.map _) hx))
  · obtain ⟨t, hexec, hcopied⟩ := accepted_taken hu hconf hp haccepts (by rw [hstate]; decide)
    have hrecord := haccepts.record r p
    obtain ⟨v', hv'⟩ : ∃ v', v' = Work.accepted u a.carrier r p := ⟨_, rfl⟩
    have haccepted := Work.accepted_effect u a.carrier r p
    have hlearning := Work.learning_accepted u a.carrier r p
    have hcarrier := Work.carrier?_accepted u a.carrier r p
    rw [← hv'] at hcopied hrecord haccepted hlearning hcarrier
    have hdev' : v'.s.emergencyDeviates a.carrier p = dev := by
      refine Bool.eq_iff_iff.2 ((p.deviates_iff fun i => SegDyn.heldBy_iff _ _).trans ?_)
      have hseg : ∀ i, v'.s.seg i = u.seg i := haccepted.only.seg (by decide)
      simp only [hseg, not_exists]
      exact hdev.symm
    have hbody : v'.handleReport a.carrier x.front p = v'.markedIf dev a.carrier p := by
      rw [Work.handleReport_emergency hrecord x.front p hstate, Work.emergencyReport, hdev']
      rfl
    rw [hbody] at hcopied
    have hmark := v'.markedIf_effect dev a.carrier p
    rw [State.intrusions_congr (haccepted.only.segs (by decide)) haccepted.only.cfg haccepted.only.now] at hmark
    have hall := (haccepted.first hmark).said (G := [.segs, .carriers, .learning, .dispatch])
      (m := fun d => d = a.carrier) (by decide) (fun _ => by simp) rfl
    refine ⟨_, t, hexec, hcopied, hall.grown, hall.reexam_eq fun i => ?_, ?_, fun d hd => ?_, fun i => ?_, hall.posts, ?_,
      hall.only.eq⟩
    · rw [← haccepted.only.seg (by decide)]
      exact v'.callsFor_markedIf dev a.carrier p i
    · rw [hmark.only.carrier? (by decide), hrecord, hv]
    · rw [hmark.only.carrier? (by decide), hcarrier, if_neg hd]
    · rw [Work.seg_markedIf, haccepted.only.seg (by decide), haccepted.only.grid]
      rfl
    · rw [hmark.only.learning (by decide), hlearning]
  · have haccepted := Work.accepted_effect u a.carrier r p
    have hlearning := Work.learning_accepted u a.carrier r p
    have hcarrier := Work.carrier?_accepted u a.carrier r p
    have hrecord := haccepts.record r p
    rcases hback with ⟨hstate, rfl, rfl⟩ | ⟨hstate, hback⟩
    · obtain ⟨t, hexec, hcopied⟩ := accepted_taken hu hconf hp haccepts hstate
      refine ⟨_, t, hexec, hcopied, haccepted.grown, haccepted.reexam_eq fun i => ?_, ?_, fun d hd => ?_, fun m => ?_,
        hlearning, (haccepted.only.mono (G := [.carriers, .learning, .dispatch]) (by decide)).eq⟩
      · rw [haccepted.only.seg (by decide)]
        exact SegDyn.callsFor_self _
      · rw [hrecord, if_neg hstate, hv]
        rfl
      · rw [hcarrier, if_neg hd]
      · rw [if_neg hstate]
        exact haccepted.posts m
    · obtain ⟨t, hexec, hcopied⟩ := missing_taken hu hconf hp haccepts hstate
      have hrestored : (Work.accepted u a.carrier r p).s.restored a.carrier x = (back, cause) := by
        refine State.restored_eq (locked := locked) (Machine.Within.sorted
          ((Work.start u (some a.carrier)).acceptReport_within _ _ _ _) haccepts.sorted) (hlocked.trans ?_) hback
        have hseg : ∀ i, (Work.accepted u a.carrier r p).s.seg i = u.seg i := haccepted.only.seg (by decide)
        exact exists_congr fun i => exists_congr fun k => by rw [← hseg]; rfl
      have hrestore := (Work.accepted u a.carrier r p).restore_effect a.carrier x hrestored
      have hcarrier' := (Work.accepted u a.carrier r p).carrier?_restore a.carrier x hrestored
      rw [haccepted.only.now] at hrestore
      have hall := (haccepted.aside hrestore).said (G := [.carriers, .learning, .dispatch])
        (m := fun d => d = a.carrier) (by decide) (fun _ => by simp) rfl
      refine ⟨_, t, hexec, hcopied, hall.grown, hall.reexam_eq fun i => ?_, ?_, fun d hd => ?_, fun m => ?_, ?_,
        hall.only.eq⟩
      · rw [hall.only.seg (by decide)]
        exact SegDyn.callsFor_self _
      · rw [hcarrier', if_pos rfl, hrecord, if_pos hstate, hv]
        rfl
      · rw [hcarrier', if_neg hd, hcarrier, if_neg hd]
      · rw [if_pos hstate]
        exact hall.posts m
      · rw [hrestore.only.learning (by decide), hlearning]

end Sys2Proof.Machine
end

section
/-! Accepted reports of IDLE carriers (R43, R59, R64, R65). -/

namespace Sys2Proof.Machine

theorem nodup_eraseDups (l : List Nat) : l.eraseDups.Nodup := by
  match l with
  | [] => exact List.nodup_nil
  | i :: rest =>
    have hlater := nodup_eraseDups (rest.filter fun j => !j == i)
    rw [List.eraseDups_cons, List.nodup_cons, List.mem_eraseDups, List.mem_filter]
    exact ⟨fun h => by simp at h, hlater⟩
termination_by l.length
decreasing_by exact Nat.lt_succ_of_le (List.length_filter_le _ _)

/-! ## HOIST_STOP to some cranes (R65, R108) -/

namespace Work

def hoistStops (w : Work) (ks : List Nat) : Work := ks.foldl (fun w k => w.on (fun s => s.hoistStop k)) w

theorem hoistStops_cons (w : Work) (k : Nat) (ks : List Nat) :
    w.hoistStops (k :: ks) = (w.on (fun s => s.hoistStop k)).hoistStops ks := rfl

theorem hoistStop_effect (w : Work) (k : Nat) :
    Effect [.craneLinks] (fun _ => False) [] w (w.on (fun s => s.hoistStop k)) :=
  w.craneSend_effect k (.hoistStop (w.s.crane k).lastSeq)

theorem craneLink_hoistStop (w : Work) (k m : Nat) : (w.on (fun s => s.hoistStop k)).s.craneLink m =
    if m = k then ((w.s.craneLink k).join (.hoistStop (w.s.crane k).lastSeq)).transmit else w.s.craneLink m :=
  w.craneLink_craneSend k m (.hoistStop (w.s.crane k).lastSeq)

theorem hoistStops_effect (w : Work) (ks : List Nat) :
    Effect [.craneLinks] (fun _ => False) [] w (w.hoistStops ks) := by
  induction ks generalizing w with
  | nil => exact (Effect.refl w).said (by decide) (fun _ => Iff.rfl) rfl
  | cons k ks ih =>
    rw [hoistStops_cons]
    exact ((w.hoistStop_effect k).aside (ih _)).said (by decide) (fun _ => by simp) rfl

theorem craneLink_hoistStops {ks : List Nat} (hnodup : ks.Nodup) (w : Work) (m : Nat) :
    (w.hoistStops ks).s.craneLink m = if m ∈ ks then
      ((w.s.craneLink m).join (.hoistStop (w.s.crane m).lastSeq)).transmit else w.s.craneLink m := by
  induction ks generalizing w with
  | nil => rfl
  | cons k ks ih =>
    rw [List.nodup_cons] at hnodup
    rw [hoistStops_cons, ih hnodup.2, craneLink_hoistStop, (w.hoistStop_effect k).only.crane (by decide)]
    by_cases hm : m = k
    · subst hm
      rw [if_neg hnodup.1, if_pos rfl, if_pos List.mem_cons_self]
    · rw [if_neg hm]
      exact if_congr (by simp [hm]) rfl rfl

end Work

/-! ## What a report shows of an IDLE carrier (R43, R59, R65) -/

section
variable {u : State} {c : Nat} {x : Carrier} {p : Report}

theorem State.idleDeviates_iff : u.idleDeviates c p = true ↔
    p.front = none ∨ ∃ i ∈ p.ground, ¬ (u.seg i).hold = .held (.carrier c) .standing :=
  p.deviates_iff fun i => SegDyn.standingOf_iff (u.seg i) c

theorem State.lockedStanding_isSome (hs : u.segs.Sorted) (hx : u.carrier? c = some x) :
    (u.lockedStanding c).isSome = true ↔
      ∃ i, (u.seg i).hold = .held (.carrier c) .standing ∧ (u.seg i).lock.rows ≠ [] := by
  unfold State.lockedStanding
  rw [List.find?_isSome]
  simp only [State.mem_standing hs hx, SegDyn.isLocked_iff]

theorem State.underLoad_iff (hs : u.segs.Sorted) (hx : u.carrier? c = some x) : u.underLoad c p = true ↔
    0 < p.speed ∧ ∃ i, (u.seg i).hold = .held (.carrier c) .standing ∧ (u.seg i).lock.rows ≠ [] := by
  unfold State.underLoad
  rw [Bool.and_eq_true, State.lockedStanding_isSome hs hx, decide_eq_true_iff, and_comm]

theorem State.mem_cranesOver (hs : u.segs.Sorted) (hx : u.carrier? c = some x) {k : Nat} : k ∈ u.cranesOver c ↔
    ∃ i, (u.seg i).hold = .held (.carrier c) .standing ∧ k ∈ (u.seg i).lock.keys := by
  unfold State.cranesOver
  rw [List.mem_eraseDups, List.mem_flatMap]
  exact exists_congr fun i => and_congr_left' (State.mem_standing hs hx)

theorem State.idleCause_none : u.idleCause c p = none ↔
    p.flags.fault = false ∧ u.idleDeviates c p = false ∧ u.underLoad c p = false := by
  unfold State.idleCause
  cases p.flags.fault <;> cases u.idleDeviates c p <;> cases u.underLoad c p <;> simp

theorem State.idleCause_some {dev load : Bool} {cause : EmergencyCause} (hdev : u.idleDeviates c p = dev)
    (hload : u.underLoad c p = load)
    (h : (p.flags.fault = true ∧ cause = .carrierFault) ∨ (p.flags.fault = false ∧ dev = true ∧ cause = .deviation) ∨
      (p.flags.fault = false ∧ dev = false ∧ load = true ∧ cause = .movedUnderLoad)) :
    u.idleCause c p = some cause := by
  unfold State.idleCause
  rw [hdev, hload]
  rcases h with ⟨hf, rfl⟩ | ⟨hf, rfl, rfl⟩ | ⟨hf, rfl, rfl, rfl⟩
  · rw [hf]; rfl
  · rw [hf]; rfl
  · rw [hf]; rfl

end

namespace Work

section
variable {w : Work} {c : Nat} {p : Report}

theorem idleReport_quiet (h : w.s.idleCause c p = none) : w.idleReport c p = w.checkFront c p := by
  obtain ⟨-, hdev, hload⟩ := State.idleCause_none.1 h
  unfold idleReport
  rw [h, hdev, hload]
  rfl

theorem idleReport_emergency {cause : EmergencyCause} (h : w.s.idleCause c p = some cause) : w.idleReport c p =
    ((w.enterEmergency c cause none).markedIf (w.s.idleDeviates c p) c p).hoistStops
      (if w.s.underLoad c p then w.s.cranesOver c else []) := by
  unfold idleReport
  rw [h]
  rfl

/-- The entry that a report of another front makes stale (R36). -/
theorem checkFront_effect : Effect [.waiting, .dispatch] (fun _ => False)
    (((w.s.entry? c).filter (fun e => decide (e.list.head? ≠ p.front))).toList.map
      (fun e => ⟨.pendingStale, w.s.now, .carrier c, [.half e.tag, .byte 1]⟩)) w (w.checkFront c p) := by
  have hstale := w.dropStale_effect c .frontMoved
  unfold State.staleEntries at hstale
  unfold checkFront
  cases he : w.s.entry? c with
  | none => exact (Effect.refl w).said (by decide) (fun _ => Iff.rfl) rfl
  | some e =>
    by_cases hfront : e.list.head? = p.front
    · have hnone : (some e).filter (fun e => decide (e.list.head? ≠ p.front)) = none := by simp [hfront]
      rw [hnone]
      dsimp only
      rw [if_pos hfront]
      exact (Effect.refl w).said (by decide) (fun _ => Iff.rfl) rfl
    · have hsome : (some e).filter (fun e => decide (e.list.head? ≠ p.front)) = some e := by simp [hfront]
      rw [hsome]
      dsimp only
      rw [if_neg hfront]
      rw [he] at hstale
      exact hstale

theorem waiting_checkFront {stale : List PendingEntry}
    (h : stale = ((w.s.entry? c).filter (fun e => decide (e.list.head? ≠ p.front))).toList) :
    (w.checkFront c p).s.waiting =
      if stale = [] then w.s.waiting else w.s.waiting.filter (fun e => decide (e.carrier ≠ c)) := by
  subst h
  unfold checkFront
  cases he : w.s.entry? c with
  | none => rfl
  | some e =>
    by_cases hfront : e.list.head? = p.front
    · simp [hfront]
    · simp [hfront, waiting_dropStale]

end

end Work

end Sys2Proof.Machine
end

section
/-! Accepted reports of IDLE carriers (R43, R58, R59, R64, R65, R125). -/

namespace Sys2Proof.Machine

section
variable {u : State} {c r : Nat} {x : Carrier} {p : Report}

theorem State.idleDeviates_false {f b : Nat} (hf : p.front = some f) (hb : p.rear = some b)
    (hsf : (u.seg f).hold = .held (.carrier c) .standing) (hsb : (u.seg b).hold = .held (.carrier c) .standing) :
    u.idleDeviates c p = false := by
  rw [← Bool.not_eq_true, State.idleDeviates_iff, hf, Report.ground, hf, hb, groundOf]
  by_cases h : f = b
  · simp [h, hsb]
  · simp [h, hsf, hsb]

theorem State.askEntries_idle {cause : EmergencyCause} (hx : u.carrier? c = some x) (h : x.state = .idle) :
    u.askEntries cause none c = ⟨.carrierState, u.now, .carrier c, [.byte 2, .byte 4, .byte cause.code]⟩ ::
      (u.entry? c).toList.map (fun e => ⟨.pendingStale, u.now, .carrier c, [.half e.tag, .byte 0]⟩) := by
  unfold State.askEntries
  rw [hx]
  dsimp only
  rw [h]
  rfl

theorem Carrier.asked_idle {cause : EmergencyCause} (h : x.state = .idle) :
    x.asked cause = { x with state := .emergency, cause := some cause } := by
  unfold Carrier.asked
  rw [h]

theorem Work.accepted_sorted (hs : u.segs.Sorted) (c radio : Nat) (p : Report) :
    (Work.accepted u c radio p).s.segs.Sorted :=
  (Work.accepted_effect u c radio p).only.segs (by decide) ▸ hs

end

theorem SegDyn.mark_held {r : SegDyn} {q : Party} (h : (∃ k, r.hold = .held q k) ∨ r.intruder ≠ none) :
    r.mark q = r := by
  rcases h with h | h
  · exact Work.mark_of_held ((SegDyn.heldBy_iff _ _).2 h)
  · unfold SegDyn.mark
    rw [if_pos (by simp [Option.isSome_iff_ne_none, h])]

theorem SegDyn.mark_open {r : SegDyn} {q : Party} (h : ∀ k, r.hold ≠ .held q k) (hi : r.intruder = none) :
    r.mark q = { r with intruder := some q } := by
  have hheld : r.heldBy q = false := by
    rw [← Bool.not_eq_true, SegDyn.heldBy_iff]
    exact fun ⟨k, hk⟩ => h k hk
  unfold SegDyn.mark
  rw [hheld, hi]
  rfl

theorem SegDyn.otherParty_iff {r : SegDyn} {c : Nat} {q : Party} : r.otherParty c = some q ↔
    q ≠ .carrier c ∧ (r.holder = some q ∨ (r.holder = none ∧ r.intruder = some q)) := by
  unfold SegDyn.otherParty
  have hother : ∀ y : Party, ((if y = .carrier c then none else some y) = some q ↔ q ≠ .carrier c ∧ y = q) := by
    intro y
    by_cases hy : y = .carrier c
    · rw [if_pos hy]
      exact ⟨fun h => (nomatch h), fun ⟨hq, h⟩ => absurd (h ▸ hy) hq⟩
    · rw [if_neg hy, Option.some.injEq]
      exact ⟨fun h => ⟨h ▸ hy, h⟩, fun h => h.2⟩
  cases hh : r.holder with
  | some y => simp [hother]
  | none =>
    cases hi : r.intruder with
    | some y => simp [hother]
    | none => simp

/-- Settles O34. -/
theorem idleReport : Obligations.IdleReport := by
  unfold Obligations.IdleReport
  refine ⟨fun s u r a x p v stale hu hconf hs hmode hp hx hnew hstate htimer hfault hground hload hv hstale => ?_,
    fun r c q => ⟨SegDyn.mark_held, SegDyn.mark_open, SegDyn.otherParty_iff⟩,
    fun s u r a x p v own dev load cause stale hu hconf hp haccepts hstate hv hown hdev hload hcause hstale => ?_⟩
  · have haccepts : u.Accepts a x := ⟨hmode, hx, hnew, .inr ⟨.inl hstate, htimer⟩, hs⟩
    obtain ⟨t, hexec, hcopied⟩ := accepted_taken hu hconf hp haccepts (by rw [hstate]; decide)
    have hrecord := haccepts.record r p
    have hsorted := Work.accepted_sorted hs a.carrier r p
    obtain ⟨v', hv'⟩ : ∃ v', v' = Work.accepted u a.carrier r p := ⟨_, rfl⟩
    have haccepted := Work.accepted_effect u a.carrier r p
    have hlearning := Work.learning_accepted u a.carrier r p
    have hcarrier := Work.carrier?_accepted u a.carrier r p
    rw [← hv'] at hcopied hrecord hsorted haccepted hlearning hcarrier
    have hseg : ∀ i, v'.s.seg i = u.seg i := haccepted.only.seg (by decide)
    have hentry : v'.s.entry? a.carrier = u.entry? a.carrier := haccepted.only.entry? (by decide) _
    have hwaiting : v'.s.waiting = u.waiting := haccepted.only.waiting (by decide)
    obtain ⟨f, b, hf, hb, hsf, hsb⟩ := hground
    have hcalm : v'.s.underLoad a.carrier p = false := by
      rw [← Bool.not_eq_true, State.underLoad_iff hsorted hrecord]
      rintro ⟨hspeed, i, hi, hlock⟩
      rw [hseg] at hi hlock
      rcases hload with hload | hload
      · exact absurd hload (Nat.ne_of_gt hspeed)
      · exact hlock (hload i hi)
    have hnone : v'.s.idleCause a.carrier p = none := State.idleCause_none.2
      ⟨hfault, State.idleDeviates_false hf hb (by rw [hseg, hsf]) (by rw [hseg, hsb]), hcalm⟩
    rw [Work.handleReport_idle hrecord x.front p hstate, Work.idleReport_quiet hnone] at hcopied
    have hcheck := Work.checkFront_effect (w := v') (c := a.carrier) (p := p)
    have hleft := Work.waiting_checkFront (w := v') (c := a.carrier) (p := p) (stale := stale) (hentry ▸ hstale)
    rw [hentry, haccepted.only.now, ← hstale] at hcheck
    have hall := (haccepted.aside hcheck).said (G := [.waiting, .carriers, .learning, .dispatch])
      (m := fun d => d = a.carrier) (by decide) (fun _ => by simp) rfl
    refine ⟨_, t, hexec, hcopied, hall.grown, hall.reexam_eq fun i => ?_, ?_, fun d hd => ?_, ?_, ?_, hall.posts,
      hall.only.eq⟩
    · rw [hall.only.seg (by decide)]
      exact SegDyn.callsFor_self _
    · rw [hcheck.only.carrier? (by decide), hrecord, hv, hp]
      rfl
    · rw [hcheck.only.carrier? (by decide), hcarrier, if_neg hd]
    · rw [hcheck.only.learning (by decide), hlearning]
      rfl
    · rw [hleft, hwaiting]
  · obtain ⟨t, hexec, hcopied⟩ := accepted_taken hu hconf hp haccepts (by rw [hstate]; decide)
    have hrecord := haccepts.record r p
    have hsorted := Work.accepted_sorted haccepts.sorted a.carrier r p
    obtain ⟨v', hv'⟩ : ∃ v', v' = Work.accepted u a.carrier r p := ⟨_, rfl⟩
    have haccepted := Work.accepted_effect u a.carrier r p
    have hlearning := Work.learning_accepted u a.carrier r p
    have hcarrier := Work.carrier?_accepted u a.carrier r p
    rw [← hv'] at hcopied hrecord hsorted haccepted hlearning hcarrier
    have hseg : ∀ i, v'.s.seg i = u.seg i := haccepted.only.seg (by decide)
    have hentry : v'.s.entry? a.carrier = u.entry? a.carrier := haccepted.only.entry? (by decide) _
    have hwaiting : v'.s.waiting = u.waiting := haccepted.only.waiting (by decide)
    have hdev' : v'.s.idleDeviates a.carrier p = dev := by
      refine Bool.eq_iff_iff.2 (State.idleDeviates_iff.trans ?_)
      simp only [hseg, ← hown]
      exact hdev.symm
    have hload' : v'.s.underLoad a.carrier p = load := by
      refine Bool.eq_iff_iff.2 ((State.underLoad_iff hsorted hrecord).trans ?_)
      simp only [hseg, ← hown]
      exact hload.symm
    have hover : ∀ k, k ∈ v'.s.cranesOver a.carrier ↔ ∃ i, own i ∧ k ∈ (u.seg i).lock.keys := fun k => by
      rw [State.mem_cranesOver hsorted hrecord]
      simp only [hseg, ← hown]
    have hsome : v'.s.idleCause a.carrier p = some cause := State.idleCause_some hdev' hload' hcause
    rw [Work.handleReport_idle hrecord x.front p hstate, Work.idleReport_emergency hsome, hdev', hload'] at hcopied
    obtain ⟨cranes, hcranes⟩ : ∃ ks, ks = if load then v'.s.cranesOver a.carrier else [] := ⟨_, rfl⟩
    rw [← hcranes] at hcopied
    have hnodup : cranes.Nodup := by
      rw [hcranes]
      split
      · exact nodup_eraseDups _
      · exact List.nodup_nil
    obtain ⟨hemergency, hleft⟩ := v'.enterEmergency_leaving a.carrier cause none hrecord (.inl hstate)
    have hasked := v'.carrier?_enterEmergency a.carrier cause none
    obtain ⟨v1, hv1⟩ : ∃ v1, v1 = v'.enterEmergency a.carrier cause none := ⟨_, rfl⟩
    rw [← hv1] at hcopied hemergency hleft hasked
    have hmark := v1.markedIf_effect dev a.carrier p
    have hmarked := v1.seg_markedIf dev a.carrier p
    have hquiet := v1.callsFor_markedIf dev a.carrier p
    obtain ⟨v2, hv2⟩ : ∃ v2, v2 = v1.markedIf dev a.carrier p := ⟨_, rfl⟩
    rw [← hv2] at hcopied hmark hmarked hquiet
    have hstops := v2.hoistStops_effect cranes
    have hlinks := Work.craneLink_hoistStops hnodup v2
    have hboth := haccepted.first hemergency
    have hseg1 : ∀ i, v1.s.seg i = u.seg i := hboth.only.seg (by decide)
    rw [State.intrusions_congr (hboth.only.segs (by decide)) hboth.only.cfg hboth.only.now] at hmark
    have hentries := State.askEntries_idle (cause := cause) hrecord hstate
    rw [hentry, haccepted.only.now, ← hstale] at hentries
    have hall := ((hboth.first hmark).aside hstops).said (m := fun d => d = a.carrier)
      (G := [.segs, .waiting, .carriers, .craneLinks, .learning, .dispatch])
      (fs := (⟨.carrierState, u.now, .carrier a.carrier, [.byte 2, .byte 4, .byte cause.code]⟩ ::
        stale.map (fun e => ⟨.pendingStale, u.now, .carrier a.carrier, [.half e.tag, .byte 0]⟩)) ++
        if dev then u.intrusions a.carrier p.ground else [])
      (by decide) (fun _ => by simp) (by rw [hentries, List.nil_append, List.append_nil]; rfl)
    have hsegs : ∀ i, (v2.hoistStops cranes).s.seg i = v2.s.seg i := hstops.only.seg (by decide)
    have hother : ∀ d, (v2.hoistStops cranes).s.carrier? d = v1.s.carrier? d := fun d =>
      (hstops.only.carrier? (by decide) d).trans (hmark.only.carrier? (by decide) d)
    have hlink : ∀ k, v2.s.craneLink k = u.craneLink k := fun k =>
      (Work.craneLink_of_only hmark.only (by decide) k).trans (Work.craneLink_of_only hboth.only (by decide) k)
    have hcrane : ∀ k, v2.s.crane k = u.crane k := fun k =>
      (hmark.only.crane (by decide) k).trans (hboth.only.crane (by decide) k)
    refine ⟨_, t, hexec, hcopied, hall.grown, hall.reexam_eq fun i => ?_, ?_, fun d hd => ?_, fun i => ?_, ?_,
      hall.posts, fun k => ⟨fun hl hk => ?_, fun hk => ?_⟩, ?_, hall.only.eq⟩
    · rw [hsegs]
      exact hseg1 i ▸ hquiet i
    · rw [hother, hasked, if_pos rfl, hrecord, hv]
      exact congrArg some (Carrier.asked_idle hstate)
    · rw [hother, hasked, if_neg hd, hcarrier, if_neg hd]
    · rw [hsegs, hmarked, hseg1, hboth.only.grid]
      rfl
    · rw [hstops.only.waiting (by decide), hmark.only.waiting (by decide), hleft, hwaiting]
      exact if_pos hstate
    · have hin : k ∈ cranes := by
        rw [hcranes, if_pos hl]
        exact (hover k).2 hk
      rw [hlinks, if_pos hin, hlink, hcrane]
    · have hout : k ∉ cranes := by
        rw [hcranes]
        rcases hk with hk | hk
        · simp [hk]
        · split
          · exact fun h => (hover k).1 h |>.elim fun i hi => hk i hi.1 hi.2
          · exact List.not_mem_nil
      rw [hlinks, if_neg hout, hlink]
    · rw [hstops.only.learning (by decide), hmark.only.learning (by decide), hemergency.only.learning (by decide),
        hlearning]

end Sys2Proof.Machine
end

section
/-! Reports along a route: the place of a report, the gate exit, movement and completion (R30 to R32, R60). -/

namespace Sys2Proof.Machine

/-! ## The place of a report on a route (R23, R60) -/

theorem placeOf_iff {l : List Nat} (hnodup : l.Nodup) {x i : Nat} : placeOf l x = some i ↔ l[i]? = some x := by
  rw [placeOf_eq_findIdx?, List.findIdx?_eq_some_iff_getElem]
  constructor
  · rintro ⟨hi, hx, -⟩
    rw [List.getElem?_eq_getElem hi, of_decide_eq_true hx]
  · intro h
    obtain ⟨hi, hx⟩ := List.getElem?_eq_some_iff.1 h
    refine ⟨hi, decide_eq_true hx, fun j hj => ?_⟩
    rw [decide_eq_true_iff]
    intro heq
    exact Nat.ne_of_lt hj ((hnodup.getElem_inj_iff (hi := Nat.lt_trans hj hi) (hj := hi)).1 (heq.trans hx.symm))

section
variable {u : State} {c : Nat} {route : Route} {p : Report}

theorem State.routePlace_iff (hnodup : route.list.Nodup) {i j : Nat} : u.routePlace c route p = some (i, j) ↔
    ∃ f b, p.front = some f ∧ p.rear = some b ∧ route.list[i]? = some f ∧ route.list[j]? = some b ∧ route.front ≤ i ∧
      j ≤ i ∧ (∃ k, (u.seg f).hold = .held (.carrier c) k) ∧ ∃ k, (u.seg b).hold = .held (.carrier c) k := by
  unfold State.routePlace
  cases hf : p.front with
  | none => simp
  | some f =>
    cases hb : p.rear with
    | none => simp
    | some b =>
      dsimp only
      constructor
      · intro h
        split at h
        · next i' j' hi hj =>
          split at h
          · next hheld =>
            obtain ⟨rfl, rfl⟩ := Prod.mk.inj (Option.some.inj h)
            rw [Bool.and_eq_true, Bool.and_eq_true, decide_eq_true_iff, SegDyn.heldBy_iff, SegDyn.heldBy_iff] at hheld
            obtain ⟨⟨hheldf, hheldb⟩, hfront, hrear⟩ := hheld
            exact ⟨f, b, rfl, rfl, (placeOf_iff hnodup).1 hi, (placeOf_iff hnodup).1 hj, hfront, hrear, hheldf, hheldb⟩
          · cases h
        · cases h
      · rintro ⟨f', b', hf', hb', hi, hj, hfront, hrear, hheldf, hheldb⟩
        obtain rfl := Option.some.inj hf'
        obtain rfl := Option.some.inj hb'
        rw [(placeOf_iff hnodup).2 hi, (placeOf_iff hnodup).2 hj]
        dsimp only
        rw [if_pos]
        rw [Bool.and_eq_true, Bool.and_eq_true, decide_eq_true_iff, SegDyn.heldBy_iff, SegDyn.heldBy_iff]
        exact ⟨⟨hheldf, hheldb⟩, hfront, hrear⟩

theorem State.exitsGate_iff {previous : Option Nat} : u.exitsGate route previous p = true ↔
    p.front = none ∧ ∃ last, route.list.getLast? = some last ∧ previous = some last ∧
      last < u.grid.lanes * u.grid.bays ∧ (u.grid.record last).usable = true ∧ (u.grid.record last).kind = .gate := by
  unfold State.exitsGate
  cases p.front with
  | some f => simp
  | none =>
    cases route.list.getLast? with
    | none => simp
    | some last =>
      by_cases hin : last < u.grid.lanes * u.grid.bays
      · simp [Grid.isGate, Grid.usable, Grid.kindOf, Grid.inside_iff, hin]
      · simp [Grid.isGate, Grid.usable, Grid.inside_iff, hin]

end

namespace Work

section
variable {w : Work} {c : Nat} {route : Route} (hroute : w.s.route? c = some route) (previous : Option Nat) (p : Report)
include hroute

/-- FAULT and deviation (R43, R60, R64). -/
theorem authorizedReport_emergency {dev : Bool} {cause : EmergencyCause}
    (hdev : ((w.s.routePlace c route p).isNone && !w.s.exitsGate route previous p) = dev)
    (h : p.flags.fault = true ∧ cause = .carrierFault ∨ p.flags.fault = false ∧ dev = true ∧ cause = .deviation) :
    w.authorizedReport c previous p = (w.enterEmergency c cause none).markedIf dev c p := by
  unfold authorizedReport
  rw [hroute]
  dsimp only
  rcases h with ⟨hf, rfl⟩ | ⟨hf, rfl, rfl⟩
  · rw [if_pos hf, hdev]
    rfl
  · rw [Bool.and_eq_true, Option.isNone_iff_eq_none, Bool.not_eq_true'] at hdev
    rw [hf, hdev.1, hdev.2]
    rfl

theorem authorizedReport_exit (hf : p.flags.fault = false) (hexits : w.s.exitsGate route previous p = true) :
    w.authorizedReport c previous p = w.gateExit c := by
  unfold authorizedReport
  rw [hroute]
  dsimp only
  rw [hf, hexits]
  rfl

theorem authorizedReport_moved {i j : Nat} (hf : p.flags.fault = false)
    (hexits : w.s.exitsGate route previous p = false) (hplace : w.s.routePlace c route p = some (i, j)) :
    w.authorizedReport c previous p = w.advance c route i j p := by
  unfold authorizedReport
  rw [hroute]
  dsimp only
  rw [hf, hexits, hplace]
  rfl

end

/-! ## A route that ends (R31, R32) -/

/-- The route goes and the carrier changes its state. -/
def unrouteTo (w : Work) (c : Nat) (new : CarrierState) : Work := (w.deleteRoute c).changeState c new []

section
variable {w : Work} {c : Nat} {x : Carrier} {route : Route} (hx : w.s.carrier? c = some x)
  (hroute : w.s.route? c = some route) (new : CarrierState)

theorem route?_unrouteTo (w : Work) (c : Nat) (new : CarrierState) (d : Nat) :
    (w.unrouteTo c new).s.route? d = if d = c then none else w.s.route? d := by
  have hdelete := w.route?_deleteRoute c d
  rw [← hdelete, unrouteTo]
  cases hr : (w.deleteRoute c).s.carrier? c with
  | none =>
    unfold changeState
    rw [hr]
  | some r => exact (changeState_effect _ hr new []).only.route? (by decide) d

include hx hroute

theorem carrier?_routeless (d : Nat) : (w.deleteRoute c).s.carrier? d =
    if d = c then some { x with auth := { x.auth with endPos := none } } else w.s.carrier? d := by
  rw [carrier?_deleteRoute]
  by_cases hd : d = c
  · subst hd
    simp [hx, hroute]
  · simp [hd]

theorem unrouteTo_effect (hstay : x.state ≠ .idle) : Effect [.routes, .carriers, .dispatch] (fun d => d = c)
    [⟨.carrierState, w.s.now, .carrier c, [.byte x.state.code, .byte new.code]⟩] w (w.unrouteTo c new) := by
  have hdelete := w.deleteRoute_effect c
  have hchange := changeState_stays ((carrier?_routeless hx hroute c).trans (if_pos rfl)) new []
    (by simp [CarrierState.leaves, hstay])
  rw [hdelete.only.now] at hchange
  exact (hdelete.aside hchange).said (by decide) (fun d => by tauto) rfl

theorem carrier?_unrouteTo (d : Nat) : (w.unrouteTo c new).s.carrier? d =
    if d = c then some { x with
      state := new, timer := if new.timerStops then none else x.timer, auth := { x.auth with endPos := none } }
    else w.s.carrier? d := by
  rw [unrouteTo, carrier?_changeState, carrier?_routeless hx hroute]
  by_cases hd : d = c <;> simp [hd]

end

/-! ## Movement (R30, R31) -/

section
variable (w : Work) (c : Nat) (route : Route) (i j : Nat)

theorem releaseBehind_eq : w.releaseBehind c route i j =
    (w.on (fun s => { s with routes := s.routes.put c { route with front := i, rear := j } })).release
      ((route.list.take j).filter (fun k => (w.s.seg k).heldBy (.carrier c))) := rfl

theorem routed_effect (x : Route) : Effect [.routes] (fun _ => False) [] w
    (w.on (fun s => { s with routes := s.routes.put c x })) := w.on_effect [.routes] (.of_eq rfl)

theorem releaseBehind_effect :
    Effect [.segs, .routes] (fun _ => False) [] w (w.releaseBehind c route i j) := by
  rw [releaseBehind_eq]
  exact ((w.routed_effect c { route with front := i, rear := j }).first (release_effect _ _)).said (by decide)
    (fun _ => by simp) rfl

theorem seg_releaseBehind (k : Nat) : (w.releaseBehind c route i j).s.seg k =
    if k ∈ route.list.take j ∧ (w.s.seg k).heldBy (.carrier c) = true then { w.s.seg k with hold := .free }
    else w.s.seg k := by
  rw [releaseBehind_eq, seg_release, (w.routed_effect c _).only.seg (by decide)]
  exact if_congr List.mem_filter rfl rfl

theorem route?_releaseBehind (d : Nat) : (w.releaseBehind c route i j).s.route? d =
    if d = c then some { route with front := i, rear := j } else w.s.route? d := by
  rw [releaseBehind_eq, (release_effect _ _).only.route? (by decide)]
  exact Table.get?_put _ _ _ _

theorem advance_eq (p : Report) : w.advance c route i j p =
    if (w.releaseBehind c route i j).s.completes c { route with front := i, rear := j } p then
      ((w.releaseBehind c route i j).settleStanding c p.ground).unrouteTo c .idle
    else w.releaseBehind c route i j := rfl

end

end Work

theorem State.completes_iff {u : State} {c : Nat} {x : Carrier} (hx : u.carrier? c = some x) (route : Route)
    (p : Report) : u.completes c route p = true ↔ route.front + 1 = route.list.length ∧ p.speed = 0 ∧
      stopPos u.grid route ≤ frontPos u.grid route p.frontRem + x.applied.stopTol := by
  unfold State.completes
  rw [hx]
  simp only [Bool.and_eq_true, decide_eq_true_iff, ge_iff_le]
  tauto

end Sys2Proof.Machine
end

section
/-! Accepted reports of AUTHORIZED carriers (R30 to R32, R43, R60, R64). -/

namespace Sys2Proof.Machine

theorem SegDyn.holder_of_heldBy {r : SegDyn} {q : Party} (h : r.heldBy q = true) : r.holder = some q := by
  obtain ⟨k, hk⟩ := (SegDyn.heldBy_iff _ _).1 h
  unfold SegDyn.holder
  rw [hk]

/-- An AUTHORIZED carrier enters EMERGENCY; a pending entry is none of its (R36). -/
theorem Work.enterEmergency_authorized {w : Work} {c : Nat} {x : Carrier} (hx : w.s.carrier? c = some x)
    (h : x.state = .authorized) (cause : EmergencyCause) (lock : Option Reasons) :
    Work.Effect [.carriers, .dispatch] (fun d => d = c)
      [⟨.carrierState, w.s.now, .carrier c, [.byte 3, .byte 4] ++ causeVals cause lock⟩] w
      (w.enterEmergency c cause lock) := by
  have hcaused := w.onCarrier_effect c (fun r => { r with cause := some cause })
  have hchange := Work.changeState_stays (w.carrier?_caused c cause hx) .emergency (causeVals cause lock)
    (by simp [CarrierState.leaves, h])
  rw [hcaused.only.now, show Carrier.state _ = _ from h] at hchange
  have heq : w.enterEmergency c cause lock =
      (w.onCarrier c (fun r => { r with cause := some cause })).changeState c .emergency (causeVals cause lock) := by
    unfold Work.enterEmergency
    rw [hx]
    dsimp only
    rw [h]
  rw [heq]
  exact (hcaused.aside hchange).said (by decide) (fun _ => by simp) rfl

theorem SegDyn.callsFor_ownedRelease (r : SegDyn) (q : Party) :
    SegDyn.callsFor r (if r.holder = some q then { r with hold := .free } else r) = true ↔ r.holder = some q := by
  by_cases h : r.holder = some q
  · rw [if_pos h]
    refine iff_of_true ((SegDyn.callsFor_release r).2 fun hfree => ?_) h
    unfold SegDyn.holder at h
    rw [hfree] at h
    cases h
  · rw [if_neg h, SegDyn.callsFor_self]
    exact iff_of_false Bool.false_ne_true h

theorem State.routePlace_isNone {u : State} {c : Nat} {route : Route} {p : Report} {placed : Bool}
    (hnodup : route.list.Nodup) (h : placed = true ↔ ∃ i j f b, p.front = some f ∧ p.rear = some b ∧
      route.list[i]? = some f ∧ route.list[j]? = some b ∧ route.front ≤ i ∧ j ≤ i ∧
      (∃ k, (u.seg f).hold = .held (.carrier c) k) ∧ ∃ k, (u.seg b).hold = .held (.carrier c) k) :
    (u.routePlace c route p).isNone = !placed := by
  cases hplace : u.routePlace c route p with
  | some q =>
    obtain ⟨f, b, hq⟩ := (State.routePlace_iff hnodup).1 hplace
    rw [h.2 ⟨q.1, q.2, f, b, hq⟩]
    rfl
  | none =>
    have hnot : ¬ placed = true := fun hp => by
      obtain ⟨i, j, f, b, hq⟩ := h.1 hp
      rw [(State.routePlace_iff hnodup).2 ⟨f, b, hq⟩] at hplace
      cases hplace
    rw [Bool.eq_false_iff.2 hnot]
    rfl

theorem Work.gateExit_eq (w : Work) (c : Nat) :
    w.gateExit c = (w.release (w.s.ownedBy (.carrier c))).unrouteTo c .away := rfl

theorem Carrier.asked_authorized {x : Carrier} {cause : EmergencyCause} (h : x.state = .authorized) :
    x.asked cause = { x with state := .emergency, cause := some cause } := by
  unfold Carrier.asked
  rw [h]

/-! ## The ground of a completed route (R31) -/

namespace Work

section
variable {w : Work} (hs : w.s.segs.Sorted) (c : Nat) (route : Route) (i : Nat) {j : Nat} {ground : List Nat}
  (hahead : ∀ k ∈ ground, k ∉ route.list.take j)
include hs hahead

theorem seg_settledBehind (k : Nat) : ((w.releaseBehind c route i j).settleStanding c ground).s.seg k =
    { w.s.seg k with hold := if k ∈ ground then .held (.carrier c) .standing
      else if (w.s.seg k).holder = some (.carrier c) then .free else (w.s.seg k).hold } := by
  have hsorted : (w.releaseBehind c route i j).s.segs.Sorted :=
    onSegs_sorted (w := w.on (fun s => { s with routes := s.routes.put c { route with front := i, rear := j } })) hs _ _
  rw [seg_settleStanding hsorted, seg_releaseBehind]
  by_cases hk : k ∈ route.list.take j ∧ (w.s.seg k).heldBy (.carrier c) = true
  · rw [if_pos hk, if_neg (fun h => hahead k h hk.1), if_neg (fun h => hahead k h hk.1),
      if_pos (SegDyn.holder_of_heldBy hk.2)]
    simp [SegDyn.holder]
  · rw [if_neg hk]

theorem settledBehind_effect : Effect [.segs, .routes] (fun _ => False) [] w
    ((w.releaseBehind c route i j).settleStanding c ground) := by
  refine ((w.releaseBehind_effect c route i j).trans (settleStanding_effect _ c ground) fun k => ?_).said (by decide)
    (fun _ => by simp) rfl
  by_cases hk : k ∈ route.list.take j ∧ (w.s.seg k).heldBy (.carrier c) = true
  · refine .of_right ?_
    rw [seg_settledBehind hs c route i hahead, seg_releaseBehind, if_pos hk, if_neg (fun h => hahead k h hk.1),
      if_pos (SegDyn.holder_of_heldBy hk.2)]
  · exact .of_left ((w.seg_releaseBehind c route i j k).trans (if_neg hk))

end

end Work

theorem mem_ground_of_some {p : Report} {f b k : Nat} (hf : p.front = some f) (hb : p.rear = some b) :
    k ∈ p.ground ↔ k = f ∨ k = b := by
  rw [Report.ground, mem_groundOf, hf, hb, Option.some.injEq, Option.some.injEq, eq_comm, @eq_comm _ b]

theorem not_mem_take_of_nodup {l : List Nat} (hnodup : l.Nodup) {i j k : Nat} (hk : l[i]? = some k) (hj : j ≤ i) :
    k ∉ l.take j := by
  intro h
  obtain ⟨m, hm⟩ := List.mem_iff_getElem?.1 h
  rw [List.getElem?_take] at hm
  split at hm
  · next hmj =>
    obtain ⟨hi, hki⟩ := List.getElem?_eq_some_iff.1 hk
    obtain ⟨hml, hkm⟩ := List.getElem?_eq_some_iff.1 hm
    have := (hnodup.getElem_inj_iff (hi := hi) (hj := hml)).1 (hki.trans hkm.symm)
    omega
  · cases hm

/-- Settles O35. -/
theorem authorizedReport : Obligations.AuthorizedReport := by
  unfold Obligations.AuthorizedReport
  refine ⟨fun s u r a x p v route i j f b moved done hu hconf hs hmode hp hx hnew hstate htimer hfault hroute hnodup hf
    hb hi hj hfront hrear hheldf hheldb hv hmoved hdone => ?_,
    fun s u r a x p v route placed exits dev cause hu hconf hp haccepts hstate hv hroute hnodup hplaced hexits hdev =>
      ⟨fun hcause => ?_, fun hfault hexit => ?_⟩⟩
  · have haccepts : u.Accepts a x := ⟨hmode, hx, hnew, .inr ⟨.inr (.inl hstate), htimer⟩, hs⟩
    obtain ⟨t, hexec, hcopied⟩ := accepted_taken hu hconf hp haccepts (by rw [hstate]; decide)
    have hrecord := haccepts.record r p
    have hsorted := Work.accepted_sorted hs a.carrier r p
    obtain ⟨v', hv'⟩ : ∃ v', v' = Work.accepted u a.carrier r p := ⟨_, rfl⟩
    have haccepted := Work.accepted_effect u a.carrier r p
    have hlearning := Work.learning_accepted u a.carrier r p
    have hcarrier := Work.carrier?_accepted u a.carrier r p
    rw [← hv'] at hcopied hrecord hsorted haccepted hlearning hcarrier
    have hmoved' : x.reported (u.classVals (u.classOf a.carrier)) p u.now = moved := by
      rw [hmoved, hv, hp]
      rfl
    rw [hmoved'] at hrecord
    have hseg : ∀ k, v'.s.seg k = u.seg k := haccepted.only.seg (by decide)
    have hroute' : v'.s.route? a.carrier = some route := (haccepted.only.route? (by decide) _).trans hroute
    have hexits : v'.s.exitsGate route x.front p = false := by
      rw [← Bool.not_eq_true, State.exitsGate_iff, hf]
      exact fun h => Option.some_ne_none _ h.1
    have hplace : v'.s.routePlace a.carrier route p = some (i, j) := (State.routePlace_iff hnodup).2
      ⟨f, b, hf, hb, hi, hj, hfront, hrear, hseg f ▸ hheldf, hseg b ▸ hheldb⟩
    have hauthorized : moved.state = .authorized := by rw [hmoved]; exact hstate
    rw [Work.handleReport_authorized hrecord x.front p hauthorized,
      Work.authorizedReport_moved hroute' x.front p hfault hexits hplace, Work.advance_eq] at hcopied
    have hbehind := v'.releaseBehind_effect a.carrier route i j
    have hsegs := v'.seg_releaseBehind a.carrier route i j
    have hroutes := v'.route?_releaseBehind a.carrier route i j
    have hfirst := haccepted.first hbehind
    have hrecord1 := (hbehind.only.carrier? (by decide) a.carrier).trans hrecord
    have hcompletes : (v'.releaseBehind a.carrier route i j).s.completes a.carrier { route with front := i, rear := j } p =
        true ↔ done := by
      rw [State.completes_iff hrecord1, hdone, hfirst.only.grid, hmoved]
      rfl
    have hother : ∀ d, d ≠ a.carrier →
        (v'.releaseBehind a.carrier route i j).s.carrier? d = u.carrier? d := fun d hd => by
      rw [hbehind.only.carrier? (by decide), hcarrier, if_neg hd]
    by_cases hend : done
    · rw [if_pos (hcompletes.2 hend)] at hcopied
      have hground : ∀ k, k ∈ p.ground ↔ k = f ∨ k = b := fun k => mem_ground_of_some hf hb
      have hahead : ∀ k ∈ p.ground, k ∉ route.list.take j := fun k hk => by
        rcases (hground k).1 hk with rfl | rfl
        · exact not_mem_take_of_nodup hnodup hi hrear
        · exact not_mem_take_of_nodup hnodup hj (Nat.le_refl j)
      have hsettle := Work.settledBehind_effect hsorted a.carrier route i hahead
      have hsettled := Work.seg_settledBehind hsorted a.carrier route i hahead
      have hkept := (Work.settleStanding_effect (v'.releaseBehind a.carrier route i j) a.carrier p.ground).only
      have hroute2 := (hkept.route? (by decide) a.carrier).trans ((hroutes a.carrier).trans (if_pos rfl))
      have hrecord2 := (hkept.carrier? (by decide) a.carrier).trans hrecord1
      have hother2 : ∀ d, d ≠ a.carrier → ((v'.releaseBehind a.carrier route i j).settleStanding a.carrier
          p.ground).s.carrier? d = u.carrier? d := fun d hd => (hkept.carrier? (by decide) d).trans (hother d hd)
      have hroutes2 : ∀ d, d ≠ a.carrier → ((v'.releaseBehind a.carrier route i j).settleStanding a.carrier
          p.ground).s.route? d = u.route? d := fun d hd => by
        rw [hkept.route? (by decide), hroutes, if_neg hd, haccepted.only.route? (by decide)]
        rfl
      obtain ⟨v2, hv2⟩ : ∃ v2, v2 = (v'.releaseBehind a.carrier route i j).settleStanding a.carrier p.ground := ⟨_, rfl⟩
      rw [← hv2] at hcopied hsettle hsettled hroute2 hrecord2 hother2 hroutes2
      have hgone := Work.unrouteTo_effect hrecord2 hroute2 .idle (by rw [hauthorized]; decide)
      have hcarrier2 := Work.carrier?_unrouteTo hrecord2 hroute2 .idle
      have hroute3 := v2.route?_unrouteTo a.carrier .idle
      have hplaced := haccepted.first hsettle
      rw [hplaced.only.now, hauthorized] at hgone
      have hall := (hplaced.aside hgone).said (G := [.segs, .routes, .carriers, .learning, .dispatch])
        (m := fun d => d = a.carrier) (by decide) (fun _ => by simp) rfl
      have hseg3 : ∀ k, (v2.unrouteTo a.carrier .idle).s.seg k = { u.seg k with
          hold := if k ∈ p.ground then .held (.carrier a.carrier) .standing
            else if (u.seg k).holder = some (.carrier a.carrier) then .free else (u.seg k).hold } := fun k => by
        rw [hgone.only.seg (by decide), hsettled, hseg]
      refine ⟨_, t, hexec, hcopied, hall.grown, fun h => absurd hend h, fun _ => ⟨?_, ?_, ?_, hall.posts, fun k => ?_⟩,
        fun d hd => ⟨?_, ?_⟩, ?_, hall.only.eq⟩
      · rw [hall.reexam_iff]
        refine (or_iff_right (show ¬ false = true from Bool.false_ne_true)).trans (exists_congr fun k => ?_)
        rw [hseg3]
        refine (SegDyn.callsFor_hold_intruder _ _ _).trans ?_
        rw [show ((Work.start u (some a.carrier)).s.seg k) = u.seg k from rfl, SegDyn.settled_iff, hground]
        simp [and_assoc]
      · rw [hroute3, if_pos rfl]
      · rw [hcarrier2, if_pos rfl, hmoved]
        rfl
      · rw [hseg3]
        simp only [hground]
        by_cases hk : k = f ∨ k = b
        · rw [if_pos hk, if_pos hk]
        · rw [if_neg hk, if_neg hk]
          split <;> rfl
      · rw [hcarrier2, if_neg hd, hother2 d hd]
      · rw [hroute3, if_neg hd, hroutes2 d hd]
      · rw [hgone.only.learning (by decide), hsettle.only.learning (by decide), hlearning]
        rfl
    · rw [if_neg (mt hcompletes.1 hend)] at hcopied
      have hall := hfirst.said (G := [.segs, .routes, .carriers, .learning, .dispatch])
        (m := fun d => d = a.carrier) (by decide) (fun _ => by simp) rfl
      have hseg3 : ∀ k, (v'.releaseBehind a.carrier route i j).s.seg k =
          if k ∈ route.list.take j ∧ (u.seg k).heldBy (.carrier a.carrier) = true then { u.seg k with hold := .free }
          else u.seg k := fun k => by rw [hsegs, hseg]
      refine ⟨_, t, hexec, hcopied, hall.grown, fun _ => ⟨?_, hrecord1, ?_, ?_, hseg3⟩, fun h => absurd h hend,
        fun d hd => ⟨hother d hd, ?_⟩, ?_, hall.only.eq⟩
      · rw [hroutes, if_pos rfl]
      · exact hfirst.only.dispatch (by decide)
      · rw [hall.reexam_iff]
        refine (or_iff_right (show ¬ false = true from Bool.false_ne_true)).trans (exists_congr fun k => ?_)
        rw [hseg3]
        show SegDyn.callsFor (u.seg k) _ = true ↔ _
        by_cases hk : k ∈ route.list.take j ∧ (u.seg k).heldBy (.carrier a.carrier) = true
        · rw [if_pos hk]
          refine iff_of_true ((SegDyn.callsFor_release _).2 fun hfree => ?_) hk
          obtain ⟨q, hq⟩ := (SegDyn.heldBy_iff _ _).1 hk.2
          rw [hq] at hfree
          cases hfree
        · rw [if_neg hk, SegDyn.callsFor_self]
          exact iff_of_false Bool.false_ne_true hk
      · rw [hroutes, if_neg hd, haccepted.only.route? (by decide)]
        rfl
      · rw [hbehind.only.learning (by decide), hlearning]
        rfl
  · obtain ⟨t, hexec, hcopied⟩ := accepted_taken hu hconf hp haccepts (by rw [hstate]; decide)
    have hrecord := haccepts.record r p
    obtain ⟨v', hv'⟩ : ∃ v', v' = Work.accepted u a.carrier r p := ⟨_, rfl⟩
    have haccepted := Work.accepted_effect u a.carrier r p
    have hlearning := Work.learning_accepted u a.carrier r p
    have hcarrier := Work.carrier?_accepted u a.carrier r p
    rw [← hv'] at hcopied hrecord haccepted hlearning hcarrier
    have hseg : ∀ i, v'.s.seg i = u.seg i := haccepted.only.seg (by decide)
    have hroute' : v'.s.route? a.carrier = some route := (haccepted.only.route? (by decide) _).trans hroute
    have hdev' : ((v'.s.routePlace a.carrier route p).isNone && !v'.s.exitsGate route x.front p) = dev := by
      have hplace : (v'.s.routePlace a.carrier route p).isNone = !placed := by
        refine State.routePlace_isNone hnodup (hplaced.trans ?_)
        simp only [hseg]
      have hexits' : v'.s.exitsGate route x.front p = exits := by
        rw [Bool.eq_iff_iff, State.exitsGate_iff, hexits, haccepted.only.grid]
        rfl
      rw [hplace, hexits', hdev]
    rw [Work.handleReport_authorized hrecord x.front p hstate,
      Work.authorizedReport_emergency hroute' x.front p hdev' hcause] at hcopied
    have hemergency := Work.enterEmergency_authorized hrecord hstate cause none
    have hasked := v'.carrier?_enterEmergency a.carrier cause none
    obtain ⟨v1, hv1⟩ : ∃ v1, v1 = v'.enterEmergency a.carrier cause none := ⟨_, rfl⟩
    rw [← hv1] at hcopied hemergency hasked
    have hmark := v1.markedIf_effect dev a.carrier p
    have hmarked := v1.seg_markedIf dev a.carrier p
    have hquiet := v1.callsFor_markedIf dev a.carrier p
    have hboth := haccepted.first hemergency
    have hseg1 : ∀ i, v1.s.seg i = u.seg i := hboth.only.seg (by decide)
    rw [State.intrusions_congr (hboth.only.segs (by decide)) hboth.only.cfg hboth.only.now] at hmark
    have hall := (hboth.first hmark).said (G := [.segs, .carriers, .learning, .dispatch])
      (m := fun d => d = a.carrier) (fs := ⟨.carrierState, u.now, .carrier a.carrier,
        [.byte 3, .byte 4, .byte cause.code]⟩ :: if dev then u.intrusions a.carrier p.ground else [])
      (by decide) (fun _ => by simp) (by rw [List.nil_append, haccepted.only.now]; rfl)
    refine ⟨_, t, hexec, hcopied, hall.grown, hall.reexam_eq fun i => ?_, ?_, fun d hd => ?_, fun i => ?_, hall.posts,
      ?_, hall.only.eq⟩
    · exact hseg1 i ▸ hquiet i
    · rw [hmark.only.carrier? (by decide), hasked, if_pos rfl, hrecord, hv]
      exact congrArg some (Carrier.asked_authorized hstate)
    · rw [hmark.only.carrier? (by decide), hasked, if_neg hd, hcarrier, if_neg hd]
    · rw [hmarked, hseg1, hboth.only.grid]
      rfl
    · rw [hmark.only.learning (by decide), hemergency.only.learning (by decide), hlearning]
  · obtain ⟨t, hexec, hcopied⟩ := accepted_taken hu hconf hp haccepts (by rw [hstate]; decide)
    have hrecord := haccepts.record r p
    have hsorted := Work.accepted_sorted haccepts.sorted a.carrier r p
    obtain ⟨v', hv'⟩ : ∃ v', v' = Work.accepted u a.carrier r p := ⟨_, rfl⟩
    have haccepted := Work.accepted_effect u a.carrier r p
    have hlearning := Work.learning_accepted u a.carrier r p
    have hcarrier := Work.carrier?_accepted u a.carrier r p
    rw [← hv'] at hcopied hrecord hsorted haccepted hlearning hcarrier
    have hseg : ∀ i, v'.s.seg i = u.seg i := haccepted.only.seg (by decide)
    have hroute' : v'.s.route? a.carrier = some route := (haccepted.only.route? (by decide) _).trans hroute
    have hexits' : v'.s.exitsGate route x.front p = true := by
      rw [State.exitsGate_iff, haccepted.only.grid]
      exact hexits.1 hexit
    rw [Work.handleReport_authorized hrecord x.front p hstate,
      Work.authorizedReport_exit hroute' x.front p hfault hexits', Work.gateExit_eq] at hcopied
    have hrelease := v'.release_effect (v'.s.ownedBy (.carrier a.carrier))
    have hreleased : ∀ k, (v'.release (v'.s.ownedBy (.carrier a.carrier))).s.seg k =
        if (u.seg k).holder = some (.carrier a.carrier) then { u.seg k with hold := .free } else u.seg k := fun k => by
      rw [Work.seg_release, hseg]
      exact if_congr (by rw [State.mem_ownedBy hsorted, hseg]) rfl rfl
    obtain ⟨v1, hv1⟩ : ∃ v1, v1 = v'.release (v'.s.ownedBy (.carrier a.carrier)) := ⟨_, rfl⟩
    rw [← hv1] at hcopied hrelease hreleased
    have hrecord1 := (hrelease.only.carrier? (by decide) a.carrier).trans hrecord
    have hroute1 := (hrelease.only.route? (by decide) a.carrier).trans hroute'
    have hgone := Work.unrouteTo_effect hrecord1 hroute1 .away
      (by rw [show (Carrier.reported _ _ _ _).state = _ from hstate]; decide)
    have hcarrier1 := Work.carrier?_unrouteTo hrecord1 hroute1 .away
    have hroute2 := v1.route?_unrouteTo a.carrier .away
    have hboth := haccepted.first hrelease
    rw [hboth.only.now, show (Carrier.reported _ _ _ _).state = _ from hstate] at hgone
    have hall := (hboth.aside hgone).said (G := [.segs, .routes, .carriers, .learning, .dispatch])
      (m := fun d => d = a.carrier) (by decide) (fun _ => by simp) rfl
    have hseg2 : ∀ k, (v1.unrouteTo a.carrier .away).s.seg k =
        if (u.seg k).holder = some (.carrier a.carrier) then { u.seg k with hold := .free } else u.seg k := fun k => by
      rw [hgone.only.seg (by decide), hreleased]
    refine ⟨_, t, hexec, hcopied, hall.grown, ?_, ?_, ?_, fun d hd => ⟨?_, ?_⟩, hseg2, hall.posts, ?_, hall.only.eq⟩
    · rw [hall.reexam_iff]
      refine (or_iff_right (show ¬ false = true from Bool.false_ne_true)).trans (exists_congr fun k => ?_)
      rw [hseg2]
      exact SegDyn.callsFor_ownedRelease _ _
    · rw [hcarrier1, if_pos rfl, hv]
      rfl
    · rw [hroute2, if_pos rfl]
    · rw [hcarrier1, if_neg hd, hrelease.only.carrier? (by decide), hcarrier, if_neg hd]
    · rw [hroute2, if_neg hd, hrelease.only.route? (by decide), haccepted.only.route? (by decide)]
      rfl
    · rw [hgone.only.learning (by decide), hrelease.only.learning (by decide), hlearning]

end Sys2Proof.Machine
end

section
/-! Lock reasons placed over carriers (R41, R69), and carriers asked into EMERGENCY one after another. -/

namespace Sys2Proof.Machine

/-! ## Lists without repeats -/

theorem filter_eraseDups (p : Nat → Bool) (l : List Nat) : (l.filter p).eraseDups = l.eraseDups.filter p := by
  match l with
  | [] => rfl
  | i :: rest =>
    have hlater := filter_eraseDups p (rest.filter fun j => !j == i)
    rw [List.eraseDups_cons, List.filter_cons]
    by_cases hi : p i = true
    · rw [if_pos hi, List.eraseDups_cons, List.filter_filter, List.filter_cons_of_pos hi, ← hlater, List.filter_filter]
      simp only [Bool.and_comm]
    · rw [if_neg hi, List.filter_cons_of_neg hi, ← hlater, List.filter_filter]
      refine congrArg List.eraseDups (List.filter_congr fun j _ => ?_)
      by_cases hj : j = i
      · subst hj
        simp [hi]
      · simp [hj]
termination_by l.length
decreasing_by exact Nat.lt_succ_of_le (List.length_filter_le _ _)

/-! ## What carriers asked into EMERGENCY show (R53, R69) -/

section
variable {s t : State} {c d : Nat} {st : CarrierState}

theorem State.carrierIs_congr (h : t.carrier? c = s.carrier? c) : t.carrierIs c st = s.carrierIs c st := by
  unfold State.carrierIs
  rw [h]

theorem State.askEntries_congr (hcarrier : t.carrier? c = s.carrier? c) (hentry : t.entry? c = s.entry? c)
    (hnow : t.now = s.now) (cause : EmergencyCause) (lock : Option Reasons) :
    t.askEntries cause lock c = s.askEntries cause lock c := by
  unfold State.askEntries
  rw [hcarrier, hentry, hnow]

theorem State.askEntries_authorized {x : Carrier} {cause : EmergencyCause} {lock : Option Reasons}
    (hx : s.carrier? c = some x) (h : x.state = .authorized) : s.askEntries cause lock c =
      [⟨.carrierState, s.now, .carrier c, [.byte 3, .byte 4] ++ causeVals cause lock⟩] := by
  unfold State.askEntries
  rw [hx, Work.causeVals_eq]
  dsimp only
  rw [h]
  rfl

theorem Carrier.asked_state (r : Carrier) (cause : EmergencyCause) :
    (r.asked cause).state ≠ r.state ↔ r.state = .idle ∨ r.state = .authorized := by
  unfold Carrier.asked
  cases h : r.state <;> simp [h]

theorem Carrier.asked_not_authorized (r : Carrier) (cause : EmergencyCause) : (r.asked cause).state ≠ .authorized := by
  unfold Carrier.asked
  cases h : r.state <;> simp [h]

/-- The carriers that change their state among those that are asked into EMERGENCY (R69). -/
theorem State.moved_iff {cause : EmergencyCause} {asks : Carrier → Prop} [DecidablePred asks]
    (h : t.carrier? c = (s.carrier? c).map (fun r => if asks r then r.asked cause else r)) :
    s.Moved t c ↔ ∃ r, s.carrier? c = some r ∧ asks r ∧ (r.state = .idle ∨ r.state = .authorized) := by
  unfold State.Moved
  constructor
  · rintro ⟨r, x, hr, hx, hne⟩
    rw [h, hr] at hx
    obtain rfl := Option.some.inj hx
    dsimp only at hne
    by_cases ha : asks r
    · rw [if_pos ha] at hne
      exact ⟨r, hr, ha, (r.asked_state cause).1 hne⟩
    · rw [if_neg ha] at hne
      exact absurd rfl hne
  · rintro ⟨r, hr, ha, hs⟩
    refine ⟨r, _, hr, by rw [h, hr]; rfl, ?_⟩
    dsimp only
    rw [if_pos ha]
    exact (r.asked_state cause).2 hs

end

namespace Work

/-! ## One lock reason (R41, R69) -/

/-- The record of a segment shows that a carrier holds it (R41). -/
def heldCarrier (r : SegDyn) : Option Nat :=
  match r.hold with
  | .held (.carrier c) _ => some c
  | _ => none

theorem heldCarrier_iff {r : SegDyn} {c : Nat} : heldCarrier r = some c ↔ r.heldBy (.carrier c) = true := by
  unfold heldCarrier SegDyn.heldBy
  cases hhold : r.hold with
  | free => simp
  | frozen q k => simp
  | held q k => cases q <;> simp

/-- The AUTHORIZED carriers that hold some segments, each once. -/
def lockedOut (s : State) (cells : List Nat) : List Nat :=
  ((cells.filterMap (fun i => heldCarrier (s.seg i))).filter (fun c => s.carrierIs c .authorized)).eraseDups

theorem lockEntries_eq (s : State) (rs : Reasons) (cells : List Nat) :
    s.lockEntries rs cells = (lockedOut s cells).flatMap (s.askEntries .hoistViolation (some rs)) := by
  rw [lockedOut, filter_eraseDups]
  rfl

theorem mem_lockedOut {s : State} {cells : List Nat} {c : Nat} : c ∈ lockedOut s cells ↔
    s.carrierIs c .authorized = true ∧ ∃ i ∈ cells, (s.seg i).heldBy (.carrier c) = true := by
  rw [lockedOut, List.mem_eraseDups, List.mem_filter, List.mem_filterMap, and_comm]
  simp only [heldCarrier_iff]

section
variable (w : Work) (k i : Nat) (rs : Reasons)

theorem addLock_loud {c : Nat} (hheld : (w.s.seg i).heldBy (.carrier c) = true)
    (hst : w.s.carrierIs c .authorized = true) :
    w.addLock k i rs = (w.enterEmergency c .hoistViolation (some rs)).onSeg i (SegDyn.addLock k rs) := by
  obtain ⟨x, hx⟩ := (SegDyn.heldBy_iff _ _).1 hheld
  unfold addLock
  rw [hx]
  dsimp only
  rw [if_pos hst]

/-- The AUTHORIZED carrier that holds the segment enters EMERGENCY before the reason joins the lock. -/
theorem addLock_cases :
    (∃ c r, (w.s.seg i).heldBy (.carrier c) = true ∧ w.s.carrier? c = some r ∧ r.state = .authorized ∧
      w.addLock k i rs = (w.enterEmergency c .hoistViolation (some rs)).onSeg i (SegDyn.addLock k rs)) ∨
    ((∀ c, (w.s.seg i).heldBy (.carrier c) = true → w.s.carrierIs c .authorized = false) ∧
      w.addLock k i rs = w.onSeg i (SegDyn.addLock k rs)) := by
  by_cases h : ∃ c, (w.s.seg i).heldBy (.carrier c) = true ∧ w.s.carrierIs c .authorized = true
  · obtain ⟨c, hheld, hst⟩ := h
    obtain ⟨r, hr, hstate⟩ := (w.s.carrierIs_iff c .authorized).1 hst
    exact .inl ⟨c, r, hheld, hr, hstate, w.addLock_loud k i rs hheld hst⟩
  · have hquiet : ∀ c, (w.s.seg i).heldBy (.carrier c) = true → w.s.carrierIs c .authorized = false := fun c hc =>
      Bool.eq_false_iff.2 fun hst => h ⟨c, hc, hst⟩
    exact .inr ⟨hquiet, addLock_of_quiet (fun c x hx => hquiet c ((SegDyn.heldBy_iff _ _).2 ⟨x, hx⟩)) k rs⟩

theorem lockedOut_one {c : Nat} (hheld : (w.s.seg i).heldBy (.carrier c) = true)
    (hst : w.s.carrierIs c .authorized = true) : lockedOut w.s [i] = [c] := by
  unfold lockedOut
  rw [List.filterMap_cons_some (f := fun i => heldCarrier (w.s.seg i)) (heldCarrier_iff.2 hheld), List.filterMap_nil,
    List.filter_cons_of_pos (p := fun c => w.s.carrierIs c .authorized) hst]
  rfl

theorem lockedOut_nil {s : State} {cells : List Nat} (h : ∀ i ∈ cells, ∀ c, (s.seg i).heldBy (.carrier c) = true →
    s.carrierIs c .authorized = false) : lockedOut s cells = [] := by
  refine List.eq_nil_iff_forall_not_mem.2 fun c hc => ?_
  obtain ⟨hst, i, hi, hheld⟩ := mem_lockedOut.1 hc
  rw [h i hi c hheld] at hst
  cases hst

theorem addLock_effect : Effect [.segs, .carriers, .dispatch] (fun d => d ∈ lockedOut w.s [i])
    (w.s.lockEntries rs [i]) w (w.addLock k i rs) := by
  rw [lockEntries_eq]
  rcases w.addLock_cases k i rs with ⟨c, r, hheld, hr, hstate, heq⟩ | ⟨hquiet, heq⟩
  · have hemergency := enterEmergency_authorized hr hstate .hoistViolation (some rs)
    have hlock : Effect [.segs] (fun _ => False) [] (w.enterEmergency c .hoistViolation (some rs))
        (w.addLock k i rs) := by
      rw [heq]
      exact onSegs_effect (w.enterEmergency c .hoistViolation (some rs)) [i] (SegDyn.addLock_idem k rs)
    rw [lockedOut_one w i hheld ((w.s.carrierIs_iff c .authorized).2 ⟨r, hr, hstate⟩)]
    refine (hemergency.first hlock).said (by decide) (fun d => by simp) ?_
    rw [List.append_nil, List.flatMap_singleton, State.askEntries_authorized hr hstate]
  · have hlock : Effect [.segs] (fun _ => False) [] w (w.addLock k i rs) := by
      rw [heq]
      exact w.onSegs_effect [i] (SegDyn.addLock_idem k rs)
    rw [lockedOut_nil (fun j hj => by rw [List.mem_singleton.1 hj]; exact hquiet)]
    exact hlock.said (by decide) (fun d => by simp) rfl

theorem seg_addLock (j : Nat) :
    (w.addLock k i rs).s.seg j = if j = i then (w.s.seg j).addLock k rs else w.s.seg j := by
  rcases w.addLock_cases k i rs with ⟨c, r, -, hr, hstate, heq⟩ | ⟨-, heq⟩
  · have hseg := (enterEmergency_authorized hr hstate .hoistViolation (some rs)).only.seg (by decide) j
    rw [heq, seg_onSeg, hseg]
  · rw [heq, seg_onSeg]

theorem carrier?_addLock (d : Nat) : (w.addLock k i rs).s.carrier? d = (w.s.carrier? d).map (fun r =>
    if r.state = .authorized ∧ (w.s.seg i).heldBy (.carrier d) = true then r.asked .hoistViolation else r) := by
  have hlocked : ∀ v : Work, (v.onSeg i (SegDyn.addLock k rs)).s.carrier? d = v.s.carrier? d := fun v =>
    (v.onSegs_effect [i] (SegDyn.addLock_idem k rs)).only.carrier? (by decide) d
  rcases w.addLock_cases k i rs with ⟨c, r, hheld, hr, hstate, heq⟩ | ⟨hquiet, heq⟩
  · rw [heq, hlocked, carrier?_enterEmergency]
    by_cases hd : d = c
    · subst hd
      rw [if_pos rfl, hr, Option.map_some, Option.map_some, if_pos ⟨hstate, hheld⟩]
    · have hother : ¬ (w.s.seg i).heldBy (.carrier d) = true := fun h => by
        obtain ⟨x, hx⟩ := (SegDyn.heldBy_iff _ _).1 h
        obtain ⟨y, hy⟩ := (SegDyn.heldBy_iff _ _).1 hheld
        rw [hx] at hy
        injection hy with hy
        injection hy with hy
        exact hd hy
      rw [if_neg hd]
      cases w.s.carrier? d with
      | none => rfl
      | some x => simp [hother]
  · rw [heq, hlocked]
    cases hx : w.s.carrier? d with
    | none => rfl
    | some x =>
      refine congrArg some (if_neg fun h => ?_).symm
      have := hquiet d h.2
      rw [(w.s.carrierIs_iff d .authorized).2 ⟨x, hx, h.1⟩] at this
      cases this

end

/-! ## Lock reasons in several segments (R41, R102, R113) -/

def addLocks (w : Work) (k : Nat) (rs : Reasons) (cells : List Nat) : Work :=
  cells.foldl (fun w i => w.addLock k i rs) w

section
variable (k : Nat) (rs : Reasons)

theorem addLocks_cons (w : Work) (i : Nat) (cells : List Nat) :
    w.addLocks k rs (i :: cells) = (w.addLock k i rs).addLocks k rs cells := rfl

theorem heldBy_addLock (w : Work) (i j : Nat) (q : Party) :
    ((w.addLock k i rs).s.seg j).heldBy q = (w.s.seg j).heldBy q := by
  rw [seg_addLock]
  split <;> rfl

theorem seg_addLocks (w : Work) (cells : List Nat) (j : Nat) :
    (w.addLocks k rs cells).s.seg j = if j ∈ cells then (w.s.seg j).addLock k rs else w.s.seg j := by
  induction cells generalizing w with
  | nil => rfl
  | cons i cells ih =>
    rw [addLocks_cons, ih, seg_addLock]
    by_cases hj : j = i
    · subst hj
      rw [if_pos rfl, if_pos List.mem_cons_self]
      split
      · exact SegDyn.addLock_idem k rs _
      · rfl
    · rw [if_neg hj]
      exact if_congr (by simp [hj]) rfl rfl

theorem carrier?_addLocks (w : Work) (cells : List Nat) (d : Nat) : (w.addLocks k rs cells).s.carrier? d =
    (w.s.carrier? d).map (fun r =>
      if r.state = .authorized ∧ cells.any (fun i => (w.s.seg i).heldBy (.carrier d)) = true then
        r.asked .hoistViolation
      else r) := by
  induction cells generalizing w with
  | nil => simp [addLocks]
  | cons i cells ih =>
    rw [addLocks_cons, ih, carrier?_addLock, Option.map_map]
    refine congrArg (fun f => (w.s.carrier? d).map f) (funext fun r => ?_)
    simp only [Function.comp, heldBy_addLock, List.any_cons]
    by_cases hfirst : r.state = .authorized ∧ (w.s.seg i).heldBy (.carrier d) = true
    · rw [if_pos hfirst, if_neg fun h => r.asked_not_authorized _ h.1]
      exact (if_pos ⟨hfirst.1, by rw [hfirst.2, Bool.true_or]⟩).symm
    · rw [if_neg hfirst]
      refine if_congr (and_congr_right fun hst => ?_) rfl rfl
      simp [show (w.s.seg i).heldBy (.carrier d) = false from Bool.eq_false_iff.2 fun h => hfirst ⟨hst, h⟩]

theorem carrierIs_addLock (w : Work) (i d : Nat) : (w.addLock k i rs).s.carrierIs d .authorized =
    (w.s.carrierIs d .authorized && !(w.s.seg i).heldBy (.carrier d)) := by
  have hcarrier := w.carrier?_addLock k i rs d
  unfold State.carrierIs
  rw [hcarrier]
  cases w.s.carrier? d with
  | none => rfl
  | some r =>
    show decide (Carrier.state (if _ then _ else _) = _) = (decide (r.state = .authorized) && _)
    by_cases hfirst : r.state = .authorized ∧ (w.s.seg i).heldBy (.carrier d) = true
    · rw [if_pos hfirst, decide_eq_false (r.asked_not_authorized _), hfirst.2, Bool.not_true, Bool.and_false]
    · rw [if_neg hfirst]
      by_cases hst : r.state = .authorized
      · rw [Bool.eq_false_iff.2 fun h => hfirst ⟨hst, h⟩, Bool.not_false, Bool.and_true]
      · rw [decide_eq_false hst, Bool.false_and]

theorem heldBy_unique {r : SegDyn} {c d : Nat} (hc : r.heldBy (.carrier c) = true) :
    r.heldBy (.carrier d) = (d == c) := by
  rw [Bool.eq_iff_iff, beq_iff_eq, ← heldCarrier_iff, heldCarrier_iff.2 hc, Option.some.injEq, eq_comm]

/-- A carrier asked into EMERGENCY by the first lock is none that the later locks find AUTHORIZED. -/
theorem lockedOut_cons (w : Work) (i : Nat) (cells : List Nat) : lockedOut w.s (i :: cells) =
    lockedOut w.s [i] ++ lockedOut (w.addLock k i rs).s cells := by
  have hheld : (fun j => heldCarrier ((w.addLock k i rs).s.seg j)) = fun j => heldCarrier (w.s.seg j) := by
    funext j
    rw [seg_addLock]
    split <;> rfl
  by_cases h : ∃ c, (w.s.seg i).heldBy (.carrier c) = true ∧ w.s.carrierIs c .authorized = true
  · obtain ⟨c, hc, hst⟩ := h
    rw [lockedOut_one w i hc hst]
    unfold lockedOut
    rw [hheld, List.filterMap_cons_some (f := fun i => heldCarrier (w.s.seg i)) (heldCarrier_iff.2 hc),
      List.filter_cons_of_pos (p := fun c => w.s.carrierIs c .authorized) hst, List.eraseDups_cons, List.filter_filter]
    refine congrArg (fun l => c :: List.eraseDups l) (List.filter_congr fun d _ => ?_)
    rw [carrierIs_addLock, heldBy_unique hc, Bool.and_comm]
  · have hquiet : ∀ c, (w.s.seg i).heldBy (.carrier c) = true → w.s.carrierIs c .authorized = false := fun c hc =>
      Bool.eq_false_iff.2 fun hst => h ⟨c, hc, hst⟩
    have hsame : (fun d => (w.addLock k i rs).s.carrierIs d .authorized) = fun d => w.s.carrierIs d .authorized := by
      funext d
      rw [carrierIs_addLock]
      cases hd : (w.s.seg i).heldBy (.carrier d) with
      | true => rw [hquiet d hd]; rfl
      | false => rw [Bool.not_false, Bool.and_true]
    have hnone : lockedOut w.s [i] = [] := lockedOut_nil fun j hj => by
      rw [List.mem_singleton.1 hj]
      exact hquiet
    rw [hnone, List.nil_append]
    unfold lockedOut
    rw [hheld, hsame]
    cases hi : heldCarrier (w.s.seg i) with
    | none => rw [List.filterMap_cons_none (f := fun i => heldCarrier (w.s.seg i)) hi]
    | some c =>
      rw [List.filterMap_cons_some (f := fun i => heldCarrier (w.s.seg i)) hi,
        List.filter_cons_of_neg (p := fun c => w.s.carrierIs c .authorized)
          (by rw [hquiet c (heldCarrier_iff.1 hi)]; exact Bool.false_ne_true)]

theorem addLocks_effect (w : Work) (cells : List Nat) : Effect [.segs, .carriers, .dispatch]
    (fun d => d ∈ lockedOut w.s cells) (w.s.lockEntries rs cells) w (w.addLocks k rs cells) := by
  induction cells generalizing w with
  | nil => exact (Effect.refl w).said (by decide) (fun d => by simp [lockedOut]) rfl
  | cons i cells ih =>
    have hfirst := w.addLock_effect k i rs
    rw [addLocks_cons]
    refine (hfirst.trans (ih _) fun j => ?_).said (by decide) (fun d => ?_) ?_
    · rw [seg_addLocks, seg_addLock]
      by_cases hj : j = i
      · refine .of_right ?_
        rw [if_pos hj]
        split
        · exact SegDyn.addLock_idem k rs _
        · rfl
      · exact .of_left (if_neg hj)
    · rw [lockedOut_cons k rs w i cells, List.mem_append]
    · rw [lockEntries_eq, lockEntries_eq, lockEntries_eq, lockedOut_cons k rs w i cells, List.flatMap_append]
      refine congrArg _ (List.flatMap_congr fun d hd => ?_)
      have hst := (mem_lockedOut.1 hd).1
      rw [carrierIs_addLock, Bool.and_eq_true, Bool.not_eq_true'] at hst
      have hcarrier : (w.addLock k i rs).s.carrier? d = w.s.carrier? d := by
        rw [carrier?_addLock, hst.2]
        cases w.s.carrier? d <;> simp
      exact State.askEntries_congr hcarrier (hfirst.only.entry? (by decide) d) hfirst.only.now _ _

/-- The carriers that a lock moves to EMERGENCY (R69). -/
theorem moved_addLocks (w : Work) (cells : List Nat) (d : Nat) :
    d ∈ lockedOut w.s cells ↔ w.s.Moved (w.addLocks k rs cells).s d := by
  rw [State.moved_iff (w.carrier?_addLocks k rs cells d), mem_lockedOut, State.carrierIs_iff]
  simp only [List.any_eq_true]
  constructor
  · rintro ⟨⟨r, hr, hst⟩, hcells⟩
    exact ⟨r, hr, ⟨hst, hcells⟩, .inr hst⟩
  · rintro ⟨r, hr, ⟨hst, hcells⟩, -⟩
    exact ⟨⟨r, hr, hst⟩, hcells⟩

end

end Work

end Sys2Proof.Machine
end

section
/-! Carriers asked into EMERGENCY one after another, and the halt take (R42, R69). -/

namespace Sys2Proof.Machine

namespace Work

/-! ## Carriers asked into EMERGENCY (R69) -/

def askEach (w : Work) (cause : EmergencyCause) (cs : List Nat) : Work :=
  cs.foldl (fun w c => w.enterEmergency c cause none) w

section
variable (cause : EmergencyCause)

theorem askEach_cons (w : Work) (c : Nat) (cs : List Nat) :
    w.askEach cause (c :: cs) = (w.enterEmergency c cause none).askEach cause cs := rfl

theorem carrier?_askEach {cs : List Nat} (hnodup : cs.Nodup) (w : Work) (d : Nat) :
    (w.askEach cause cs).s.carrier? d = (w.s.carrier? d).map (fun r => if d ∈ cs then r.asked cause else r) := by
  induction cs generalizing w with
  | nil => simp [askEach]
  | cons c cs ih =>
    rw [List.nodup_cons] at hnodup
    rw [askEach_cons, ih hnodup.2, carrier?_enterEmergency]
    by_cases hd : d = c
    · subst hd
      rw [if_pos rfl, Option.map_map]
      refine congrArg (fun f => (w.s.carrier? d).map f) (funext fun r => ?_)
      rw [Function.comp, if_neg hnodup.1, if_pos List.mem_cons_self]
    · simp [hd]

theorem waiting_askEach {cs : List Nat} (hnodup : cs.Nodup) (w : Work) : (w.askEach cause cs).s.waiting =
    w.s.waiting.filter (fun e => !(w.s.carrierIs e.carrier .idle && decide (e.carrier ∈ cs))) := by
  induction cs generalizing w with
  | nil => simp [askEach]
  | cons c cs ih =>
    rw [List.nodup_cons] at hnodup
    have hcarrier : ∀ d, d ∈ cs → (w.enterEmergency c cause none).s.carrierIs d .idle = w.s.carrierIs d .idle :=
      fun d hd => State.carrierIs_congr ((w.carrier?_enterEmergency c cause none d).trans
        (if_neg fun h : d = c => hnodup.1 (h ▸ hd)))
    have hlater : ∀ d, ((w.enterEmergency c cause none).s.carrierIs d .idle && decide (d ∈ cs)) =
        (w.s.carrierIs d .idle && decide (d ∈ cs)) := fun d => by
      by_cases hd : d ∈ cs
      · rw [hcarrier d hd]
      · rw [decide_eq_false hd, Bool.and_false, Bool.and_false]
    rw [askEach_cons, ih hnodup.2, waiting_enterEmergency]
    simp only [hlater]
    by_cases hidle : w.s.carrierIs c .idle = true
    · rw [if_pos hidle, List.filter_filter]
      refine List.filter_congr fun e _ => ?_
      by_cases he : e.carrier = c
      · simp [he, hidle]
      · simp [he]
    · rw [if_neg hidle]
      refine List.filter_congr fun e _ => ?_
      by_cases he : e.carrier = c
      · simp [he, hidle]
      · simp [he]

theorem entry?_enterEmergency (w : Work) {c d : Nat} (hd : d ≠ c) :
    (w.enterEmergency c cause none).s.entry? d = w.s.entry? d := by
  unfold State.entry?
  rw [waiting_enterEmergency]
  split
  · rw [List.find?_filter]
    refine List.find?_congr fun e _ => ?_
    by_cases he : e.carrier = d
    · simp [he, hd]
    · simp [he]
  · rfl

theorem askEach_effect {cs : List Nat} (hnodup : cs.Nodup) (w : Work) : Effect [.carriers, .waiting, .dispatch]
    (fun d => w.s.Moved (w.askEach cause cs).s d) (cs.flatMap (w.s.askEntries cause none)) w (w.askEach cause cs) := by
  have hnamed : Effect [.carriers, .waiting, .dispatch]
      (fun d => d ∈ cs ∧ (w.s.carrierIs d .idle = true ∨ w.s.carrierIs d .authorized = true))
      (cs.flatMap (w.s.askEntries cause none)) w (w.askEach cause cs) := by
    induction cs generalizing w with
    | nil => exact (Effect.refl w).said (by decide) (fun _ => by simp) rfl
    | cons c cs ih =>
      rw [List.nodup_cons] at hnodup
      have hfirst := w.enterEmergency_effect c cause none
      have hcarrier : ∀ d, d ∈ cs → (w.enterEmergency c cause none).s.carrier? d = w.s.carrier? d := fun d hd =>
        (w.carrier?_enterEmergency c cause none d).trans (if_neg fun h : d = c => hnodup.1 (h ▸ hd))
      rw [askEach_cons]
      refine (hfirst.aside (ih hnodup.2 (w.enterEmergency c cause none))).said (by decide) (fun d => ?_) ?_
      · by_cases hd : d ∈ cs
        · rw [State.carrierIs_congr (hcarrier d hd), State.carrierIs_congr (hcarrier d hd)]
          have hne : d ≠ c := fun h => hnodup.1 (h ▸ hd)
          simp [hd, hne]
        · simp only [hd, false_and, or_false, List.mem_cons]
          exact and_congr_right fun h => by rw [h]
      · rw [List.flatMap_cons]
        exact congrArg _ (List.flatMap_congr fun d hd => State.askEntries_congr (hcarrier d hd)
          (w.entry?_enterEmergency cause fun h : d = c => hnodup.1 (h ▸ hd)) hfirst.only.now _ _)
  refine hnamed.said (by decide) (fun d => ?_) rfl
  rw [State.moved_iff (carrier?_askEach cause hnodup w d), State.carrierIs_iff, State.carrierIs_iff]
  constructor
  · rintro ⟨hd, ⟨r, hr, hst⟩ | ⟨r, hr, hst⟩⟩
    · exact ⟨r, hr, hd, .inl hst⟩
    · exact ⟨r, hr, hd, .inr hst⟩
  · rintro ⟨r, hr, hd, hst | hst⟩
    · exact ⟨hd, .inl ⟨r, hr, hst⟩⟩
    · exact ⟨hd, .inr ⟨r, hr, hst⟩⟩

end

/-! ## INTRUSION entries one after another -/

/-- The entry of a segment into which a crane comes (R42). -/
def intrusionOf (now : Time) (k i : Nat) (r : SegDyn) : Notif :=
  ⟨.intrusion, now, .segment i, partyVals (some (.crane k)) ++ partyVals r.holder⟩

def postIntrusions (w : Work) (k : Nat) (ids : List Nat) : Work := ids.foldl (fun w i =>
  w.post .intrusion (.segment i) (partyVals (some (.crane k)) ++ partyVals (w.s.seg i).holder)) w

theorem postIntrusions_effect (w : Work) (k : Nat) (ids : List Nat) : Effect [.dispatch] (fun _ => False)
    (ids.map (fun i => intrusionOf w.s.now k i (w.s.seg i))) w (w.postIntrusions k ids) := by
  induction ids generalizing w with
  | nil => exact (Effect.refl w).said (by decide) (fun _ => Iff.rfl) rfl
  | cons i ids ih =>
    have hfirst := post_effect w .intrusion (.segment i)
      (partyVals (some (.crane k)) ++ partyVals (w.s.seg i).holder)
    refine (hfirst.aside (ih (w.post .intrusion (.segment i)
      (partyVals (some (.crane k)) ++ partyVals (w.s.seg i).holder)))).said (by decide) (fun _ => by simp) ?_
    rw [List.map_cons, hfirst.only.now]
    exact congrArg _ (List.map_congr_left fun j _ => by rw [hfirst.only.seg (by decide)])

/-! ## The halt take (R42) -/

theorem haltTake_free {k : Nat} {r : SegDyn} (h : r.hold = .free) :
    r.haltTake k = { r with hold := .held (.crane k) .leg } := if_pos ((SegDyn.isFree_iff r).2 h)

theorem haltTake_own {k : Nat} {r : SegDyn} (h : r.heldBy (.crane k) = true) : r.haltTake k = r := by
  have hfree : ¬ r.isFree = true := fun hf => by
    obtain ⟨x, hx⟩ := (SegDyn.heldBy_iff _ _).1 h
    rw [(SegDyn.isFree_iff r).1 hf] at hx
    cases hx
  unfold SegDyn.haltTake
  rw [if_neg hfree, if_pos h]

/-- What a halt take finds in the hands of another party it marks (R42, R43). -/
theorem haltTake_foreign {k : Nat} {r : SegDyn} (hfree : r.isFree = false) (hheld : r.heldBy (.crane k) = false) :
    r.haltTake k = if r.intruder = none then { r with intruder := some (.crane k) } else r := by
  unfold SegDyn.haltTake SegDyn.mark
  rw [hfree, hheld]
  cases r.intruder <;> simp

theorem haltTake_idem (k : Nat) (r : SegDyn) : (r.haltTake k).haltTake k = r.haltTake k := by
  by_cases hfree : r.hold = .free
  · rw [haltTake_free hfree, haltTake_own (by simp [SegDyn.heldBy])]
  · by_cases hheld : r.heldBy (.crane k) = true
    · rw [haltTake_own hheld, haltTake_own hheld]
    · have hmark : ∀ x : SegDyn, x.hold = r.hold → x.haltTake k =
          if x.intruder = none then { x with intruder := some (.crane k) } else x := fun x hx => by
        have hfree' : x.isFree = false := Bool.eq_false_iff.2 fun h => hfree (hx ▸ (SegDyn.isFree_iff x).1 h)
        have hheld' : x.heldBy (.crane k) = false := by
          unfold SegDyn.heldBy
          rw [hx]
          exact Bool.eq_false_iff.2 hheld
        exact haltTake_foreign hfree' hheld'
      rw [hmark r rfl]
      split
      · exact (hmark { r with intruder := some (.crane k) } rfl).trans (if_neg (Option.some_ne_none _))
      · next hsome => rw [hmark r rfl, if_neg hsome]

theorem haltTake_calm (k : Nat) (r : SegDyn) : SegDyn.callsFor r (r.haltTake k) = false := by
  unfold SegDyn.haltTake
  split
  · rw [← Bool.not_eq_true, SegDyn.callsFor_iff]
    simp [SegDyn.hold_]
  · split
    · exact SegDyn.callsFor_self r
    · exact mark_calm _ _

/-- The carriers that hold what a halt take finds of other parties, each once. -/
def halted (s : State) (k : Nat) (cells : List Nat) : List Nat :=
  ((s.foreign k cells).filterMap (fun i => (s.seg i).holdingCarrier)).eraseDups

theorem nodup_halted (s : State) (k : Nat) (cells : List Nat) : (halted s k cells).Nodup := nodup_eraseDups _

theorem mem_halted {s : State} {k : Nat} {cells : List Nat} {c : Nat} : c ∈ halted s k cells ↔
    (s.foreign k cells).any (fun i => decide ((s.seg i).holder = some (.carrier c))) = true := by
  have hholding : ∀ r : SegDyn, r.holdingCarrier = some c ↔ r.holder = some (.carrier c) := fun r => by
    unfold SegDyn.holdingCarrier
    cases r.holder with
    | none => simp
    | some q => cases q <;> simp
  rw [halted, List.mem_eraseDups, List.mem_filterMap, List.any_eq_true]
  simp only [hholding, decide_eq_true_iff]

section
variable (w : Work) (k : Nat) (cells : List Nat)

theorem haltTake_eq : w.haltTake k cells =
    ((w.onSegs cells (SegDyn.haltTake k)).askEach .gantryViolation (halted w.s k cells)).postIntrusions k
      (w.s.foreign k cells) := rfl

/-- What a halt take posts (R42, R69). -/
def haltEntries (s : State) (k : Nat) (cells : List Nat) : List Notif :=
  (halted s k cells).flatMap (s.askEntries .gantryViolation none) ++
    (s.foreign k cells).map (fun i => intrusionOf s.now k i (s.seg i))

theorem seg_haltTake (i : Nat) :
    (w.haltTake k cells).s.seg i = if i ∈ cells then (w.s.seg i).haltTake k else w.s.seg i := by
  rw [haltTake_eq, (postIntrusions_effect _ _ _).only.seg (by decide),
    (askEach_effect _ (nodup_halted _ _ _) _).only.seg (by decide)]
  exact seg_onSegs _ _ _ (haltTake_idem k) i

theorem holder_haltTake (i : Nat) (hi : i ∈ w.s.foreign k cells) :
    ((w.onSegs cells (SegDyn.haltTake k)).s.seg i).holder = (w.s.seg i).holder := by
  obtain ⟨hmem, hforeign⟩ := List.mem_filter.1 hi
  rw [Bool.not_eq_true', Bool.or_eq_false_iff] at hforeign
  rw [seg_onSegs _ _ _ (haltTake_idem k), if_pos hmem, haltTake_foreign hforeign.1 hforeign.2]
  split <;> rfl

theorem carrier?_haltTake (d : Nat) : (w.haltTake k cells).s.carrier? d = (w.s.carrier? d).map (fun r =>
    if (w.s.foreign k cells).any (fun i => decide ((w.s.seg i).holder = some (.carrier d))) then
      r.asked .gantryViolation
    else r) := by
  have htaken := (w.onSegs_effect cells (haltTake_idem k)).only.carrier? (by decide) d
  rw [haltTake_eq, (postIntrusions_effect _ _ _).only.carrier? (by decide),
    carrier?_askEach _ (nodup_halted _ _ _), htaken]
  simp only [mem_halted]

theorem haltTake_effect : Effect [.segs, .carriers, .waiting, .dispatch]
    (fun d => w.s.Moved (w.haltTake k cells).s d) (haltEntries w.s k cells) w (w.haltTake k cells) := by
  have htake := w.onSegs_effect cells (haltTake_idem k)
  have hask := askEach_effect .gantryViolation (nodup_halted w.s k cells)
    (w.onSegs cells (SegDyn.haltTake k))
  have hpost := postIntrusions_effect ((w.onSegs cells (SegDyn.haltTake k)).askEach .gantryViolation
    (halted w.s k cells)) k (w.s.foreign k cells)
  have hasked : ∀ d, (w.haltTake k cells).s.carrier? d = ((w.onSegs cells (SegDyn.haltTake k)).askEach .gantryViolation
      (halted w.s k cells)).s.carrier? d := fun d => hpost.only.carrier? (by decide) d
  refine ((htake.aside hask).aside hpost).said (by decide) (fun d => ?_) ?_
  · unfold State.Moved
    rw [hasked, htake.only.carrier? (by decide)]
    simp
  · rw [List.nil_append, haltEntries]
    refine congrArg₂ _ (List.flatMap_congr fun d _ => ?_) (List.map_congr_left fun i hi => ?_)
    · exact State.askEntries_congr (htake.only.carrier? (by decide) d) (htake.only.entry? (by decide) d)
        htake.only.now _ _
    · unfold intrusionOf
      rw [hask.only.seg (by decide), holder_haltTake w k cells i hi, hask.only.now, htake.only.now]

theorem haltTake_reexam : (w.haltTake k cells).reexam = w.reexam :=
  (w.haltTake_effect k cells).reexam_eq fun i => by
    rw [seg_haltTake]
    split
    · exact haltTake_calm k _
    · exact SegDyn.callsFor_self _

/-- The halt take leaves the part as R42 and R69 say. -/
theorem haltTake_taken : w.s.HaltTaken (w.haltTake k cells).s k cells where
  rest := ((w.haltTake_effect k cells).only.mono (G := [.segs, .waiting, .carriers, .dispatch]) (by decide)).eq
  segs i := by
    have hforeign : i ∈ w.s.foreign k cells ↔
        i ∈ cells ∧ (w.s.seg i).isFree = false ∧ (w.s.seg i).heldBy (.crane k) = false := by
      rw [State.foreign, List.mem_filter, Bool.not_eq_true', Bool.or_eq_false_iff]
    rw [seg_haltTake]
    by_cases hi : i ∈ cells
    · rw [if_pos hi]
      by_cases hfree : (w.s.seg i).hold = .free
      · rw [if_pos ⟨hi, hfree⟩, haltTake_free hfree]
      · rw [if_neg fun h => hfree h.2]
        have hfree' : (w.s.seg i).isFree = false := Bool.eq_false_iff.2 fun h => hfree ((SegDyn.isFree_iff _).1 h)
        cases hheld : (w.s.seg i).heldBy (.crane k) with
        | true =>
          rw [haltTake_own hheld, if_neg fun h => ?_]
          rw [(hforeign.1 h.1).2.2] at hheld
          cases hheld
        | false =>
          rw [haltTake_foreign hfree' hheld]
          exact if_congr (by simp [hforeign.2 ⟨hi, hfree', hheld⟩]) rfl rfl
    · rw [if_neg hi, if_neg fun h => hi h.1, if_neg fun h => hi (hforeign.1 h.1).1]
  carriers d := w.carrier?_haltTake k cells d
  waiting := by
    have htaken := (w.onSegs_effect cells (haltTake_idem k)).only
    rw [haltTake_eq, (postIntrusions_effect _ _ _).only.waiting (by decide),
      waiting_askEach _ (nodup_halted _ _ _), htaken.waiting (by decide)]
    refine List.filter_congr fun e _ => ?_
    rw [State.carrierIs_congr (htaken.carrier? (by decide) e.carrier)]
    refine congrArg (fun b => !(_ && b)) ?_
    rw [Bool.eq_iff_iff, decide_eq_true_iff, mem_halted]
  dispatch := (w.haltTake_effect k cells).posts

end

end Work

end Sys2Proof.Machine
end

section
/-! The hoist: samples, the filter, crossings, and hoist violations (R100, R101, R107). -/

namespace Sys2Proof.Machine

/-! ## Samples and the filter (R100) -/

theorem badTrolley_false {cfg : CraneConfig} {trolley : Option Nat} :
    badTrolley cfg trolley = false ↔ ∀ t, trolley = some t → t < cfg.slotLanes.length := by
  unfold badTrolley
  cases trolley <;> simp

theorem faultCause_none {cfg : CraneConfig} {c : Crane} {position : Bool} : faultCause cfg c position = none ↔
    c.height ≤ cfg.ceiling ∧ (∀ t, c.trolley = some t → t < cfg.slotLanes.length) ∧ c.flags.sensorFault = false ∧
      position = true := by
  rw [← badTrolley_false]
  unfold faultCause
  by_cases hheight : c.height > cfg.ceiling
  · simp [hheight, Nat.not_le_of_gt hheight]
  · rw [if_neg hheight]
    cases badTrolley cfg c.trolley <;> cases c.flags.sensorFault <;> cases position <;> simp [Nat.not_lt.1 hheight]

theorem Crane.feed_new {n : Nat} {cls : HoistClass} {c : Crane} (hn : 1 ≤ n) (h : c.candidate ≠ some cls) :
    c.feed n cls = { c with candidate := some cls, count := 1, filtered := if n = 1 then cls else c.filtered } := by
  unfold Crane.feed
  rw [if_neg h]
  have hfull : (1 ≥ n) = (n = 1) := propext ⟨fun h => Nat.le_antisymm h hn, fun h => Nat.le_of_eq h⟩
  simp only [hfull]

theorem Crane.feed_again {n : Nat} {cls : HoistClass} {c : Crane} (h : c.candidate = some cls) :
    c.feed n cls = { c with
      count := min (c.count + 1) n, filtered := if n ≤ c.count + 1 then cls else c.filtered } := by
  unfold Crane.feed
  rw [if_pos h]
  have hfull : (min (c.count + 1) n ≥ n) = (n ≤ c.count + 1) := by simp
  simp only [hfull]
  rw [← h]

theorem sampleClass_down {cfg : CraneConfig} {c : Crane} {t : Nat} (ht : c.trolley = some t)
    (h : c.height < cfg.clearance) : sampleClass cfg c = .down t := by
  unfold sampleClass
  rw [ht]
  exact if_pos h

theorem sampleClass_up {cfg : CraneConfig} {c : Crane} (h : c.trolley = none ∨ cfg.clearance ≤ c.height) :
    sampleClass cfg c = .up := by
  unfold sampleClass
  rcases h with h | h
  · rw [h]
  · cases c.trolley with
    | none => rfl
    | some t => exact if_neg (Nat.not_lt.2 h)

theorem crossingsOf_cases (t t' : Nat) :
    crossingsOf .unknown (.down t) = [⟨t, true⟩] ∧ crossingsOf .up (.down t) = [⟨t, true⟩] ∧
      crossingsOf (.down t) .up = [⟨t, false⟩] ∧ crossingsOf .unknown .up = [] ∧
      (t ≠ t' → crossingsOf (.down t) (.down t') = [⟨t, false⟩, ⟨t', true⟩]) :=
  ⟨rfl, rfl, rfl, rfl, fun h => if_neg h⟩

/-! ## Crossings under a claim (R101, R105) -/

section
variable {w : Work} {k t : Nat} {c : Crane} {m : Claim}

theorem Crane.claimOn_some : c.claimOn t = some m ↔ c.claim = some m ∧ m.slot = t ∧ m.void = false := by
  unfold Crane.claimOn
  cases hc : c.claim with
  | none => simp
  | some x =>
    by_cases h : x.slot = t ∧ x.void = false
    · simp only [h.1, h.2]
      simp only [Bool.not_false, Bool.and_true, decide_true, if_true, Option.some.injEq]
      exact ⟨fun hx => ⟨hx, hx ▸ h⟩, fun hx => hx.1⟩
    · have hno : (decide (x.slot = t) && !x.void) = false := by
        rw [Bool.and_eq_false_iff, decide_eq_false_iff_not, Bool.not_eq_false']
        by_cases hs : x.slot = t
        · exact .inr (Bool.not_eq_false _ ▸ fun hv => h ⟨hs, hv⟩)
        · exact .inl hs
      dsimp only
      rw [if_neg (by rw [hno]; exact Bool.false_ne_true)]
      exact ⟨fun hx => (nomatch hx), fun ⟨hx, hm⟩ => absurd (Option.some.inj hx ▸ hm) h⟩

/-- A crossing down that a claim takes (R101, R107). -/
theorem State.claimTakes_iff {s : State} : s.claimTakes k t = true ↔ (s.crane k).state = .standing ∧
    (s.craneCfg k).enable.getLsbD t = true ∧
      ∃ m, (s.crane k).claim = some m ∧ m.slot = t ∧ m.void = false ∧ m.phase ≠ .inUse := by
  have hphase : ∀ m : Claim, (decide (m.phase = .granted) || decide (m.phase = .raised)) = true ↔ m.phase ≠ .inUse :=
    fun m => by cases m.phase <;> decide
  unfold State.claimTakes
  dsimp only
  rw [Bool.and_eq_true, Bool.and_eq_true, decide_eq_true_iff, and_assoc]
  refine and_congr_right fun _ => and_congr_right fun _ => ?_
  cases hon : (s.crane k).claimOn t with
  | some m =>
    obtain ⟨hclaim, hslot, hvoid⟩ := Crane.claimOn_some.1 hon
    exact (hphase m).trans ⟨fun h => ⟨m, hclaim, hslot, hvoid, h⟩, fun ⟨x, hx, hrest⟩ => by
      obtain rfl := Option.some.inj (hclaim.symm.trans hx)
      exact hrest.2.2⟩
  | none =>
    refine iff_of_false Bool.false_ne_true fun ⟨x, hx, hslot, hvoid, _⟩ => ?_
    rw [Crane.claimOn_some.2 ⟨hx, hslot, hvoid⟩] at hon
    cases hon

theorem Work.cross_down (w : Work) (k t : Nat) : w.cross k ⟨t, true⟩ = w.crossDown k t := rfl

theorem Work.cross_up (w : Work) (k t : Nat) : w.cross k ⟨t, false⟩ = w.crossUp k t := rfl

theorem Work.crossDown_taken (h : w.s.claimTakes k t = true) : w.crossDown k t = w.onCrane k Crane.useClaim := if_pos h

theorem Work.crossDown_violation (h : ¬ w.s.claimTakes k t = true) : w.crossDown k t = w.hoistViolation k t := if_neg h

theorem Work.crossUp_raised (hclaim : (w.s.crane k).claim = some m) (hslot : m.slot = t) (hvoid : m.void = false)
    (hphase : m.phase = .inUse) : w.crossUp k t =
      w.onCrane k (fun c => c.enterPhase .raised w.s.now (1000 * (w.s.craneCfg k).window)) := by
  unfold Work.crossUp
  rw [Crane.claimOn_some.2 ⟨hclaim, hslot, hvoid⟩]
  exact if_pos hphase

theorem Work.crossUp_idle
    (h : ∀ m, (w.s.crane k).claim = some m → m.slot = t → m.void = false → m.phase ≠ .inUse) : w.crossUp k t = w := by
  unfold Work.crossUp
  cases hon : (w.s.crane k).claimOn t with
  | none => rfl
  | some m =>
    obtain ⟨hclaim, hslot, hvoid⟩ := Crane.claimOn_some.1 hon
    exact if_neg (h m hclaim hslot hvoid)

/-- A change of a crane's record is the only change. -/
theorem Work.onCrane_eq (w : Work) (k : Nat) (f : Crane → Crane) :
    w.onCrane k f = { w with s := { w.s with cranes := (w.onCrane k f).s.cranes } } := rfl

end

/-! ## The lock of a violation whose claim ends (R107, R111) -/

namespace SegDyn

theorem reasonsOf_violated (k : Nat) (r : SegDyn) : (r.addLock k Reasons.ofViolation).reasonsOf k =
    { r.reasonsOf k with violation := true } := by
  rw [reasonsOf_addLock, if_pos rfl]
  simp [Reasons.join, Reasons.ofViolation]

theorem reasonsOf_violatedEnded (k : Nat) (r : SegDyn) :
    ((r.addLock k Reasons.ofViolation).removeLock k Reasons.ofClaim).reasonsOf k =
      { r.reasonsOf k with violation := true, claim := false } := by
  rw [reasonsOf_removeLock, if_pos rfl, reasonsOf_violated]
  simp [Reasons.without, Reasons.ofClaim]

theorem reasonsOf_other (k : Nat) (r : SegDyn) {j : Nat} (h : j ≠ k) :
    ((r.addLock k Reasons.ofViolation).removeLock k Reasons.ofClaim).reasonsOf j = r.reasonsOf j := by
  rw [reasonsOf_removeLock, if_neg h, reasonsOf_addLock, if_neg h]

theorem violatedEnded_eq (k : Nat) (r : SegDyn) :
    (r.addLock k Reasons.ofViolation).removeLock k Reasons.ofClaim =
      { r with lock := r.lock.put k { r.reasonsOf k with violation := true, claim := false } } := by
  have hleft : ((r.addLock k Reasons.ofViolation).reasonsOf k).without Reasons.ofClaim =
      { r.reasonsOf k with violation := true, claim := false } := by
    rw [reasonsOf_violated]
    simp [Reasons.without, Reasons.ofClaim]
  rw [removeLock_eq hleft, if_neg (by simp [Reasons.none_])]
  exact congrArg (fun t => { r with lock := t }) (Table.put_put _ _ _ _)

/-- Where the end of the claim restores the record, VIOLATION was in the lock before. -/
theorem violated_kept {k : Nat} {r : SegDyn}
    (h : (r.addLock k Reasons.ofViolation).removeLock k Reasons.ofClaim = r) : r.addLock k Reasons.ofViolation = r := by
  have hreasons := reasonsOf_violatedEnded k r
  rw [h] at hreasons
  rw [violatedEnded_eq, ← hreasons] at h
  refine Eq.trans ?_ h
  show { r with lock := r.lock.put k ((r.reasonsOf k).join Reasons.ofViolation) } = _
  have hjoin : (r.reasonsOf k).join Reasons.ofViolation = r.reasonsOf k := by
    rw [hreasons]
    simp [Reasons.join, Reasons.ofViolation]
  rw [hjoin]

/-- VIOLATION keeps the lock when CLAIM leaves it. -/
theorem violatedEnded_calm (k : Nat) (r : SegDyn) : SegDyn.callsFor (r.addLock k Reasons.ofViolation)
    ((r.addLock k Reasons.ofViolation).removeLock k Reasons.ofClaim) = false := by
  rw [← Bool.not_eq_true, SegDyn.callsFor_iff, violatedEnded_eq]
  have hlock : (r.lock.put k { r.reasonsOf k with violation := true, claim := false }).rows ≠ [] := fun hnil => by
    have hget := Table.get?_put_self r.lock k { r.reasonsOf k with violation := true, claim := false }
    unfold Table.get? at hget
    rw [hnil] at hget
    cases hget
  rintro (⟨h1, h2⟩ | ⟨h1, h2⟩ | ⟨-, h2⟩ | ⟨h1, h2⟩)
  · exact h1 h2
  · exact h1 h2
  · exact hlock h2
  · exact h1 h2

end SegDyn

end Sys2Proof.Machine
end

section
/-! A hoist violation (R69, R107). -/

namespace Sys2Proof.Machine

namespace Work

/-- The holder of a segment that a violation asks into EMERGENCY besides the one that its lock asks (R107). -/
def endangered (s : State) (i : Nat) : Option Nat :=
  match heldCarrier (s.seg i) with
  | some b => if s.carrierIs b .idle || s.carrierIs b .missing then some b else none
  | none => none

/-- VIOLATION joins the lock of a segment, and its holder is asked into EMERGENCY. -/
def violated (w : Work) (k i : Nat) : Work :=
  match endangered w.s i with
  | some b => (w.addLock k i Reasons.ofViolation).enterEmergency b .hoistViolation none
  | none => w.addLock k i Reasons.ofViolation

/-- HOIST_STOP and HOIST_VIOLATION follow (R107, R108). -/
def stopped (w : Work) (k t i : Nat) (detail : List Val) : Work :=
  ((w.violated k i).on (fun s => s.hoistStop k)).post .hoistViolation (.crane k) ([.byte t, .half i] ++ detail)

/-- The claim on the slot of a violation ends where it is void or the slot disabled (R107). -/
def endsClaim (s : State) (k t : Nat) : Bool :=
  match (s.crane k).claim with
  | some m => decide (m.slot = t) && (m.void || !((s.craneCfg k).enable.getLsbD t))
  | none => false

theorem endsClaim_iff {s : State} {k t : Nat} : endsClaim s k t = true ↔ ∃ m, (s.crane k).claim = some m ∧ m.slot = t ∧
    (m.void = true ∨ (s.craneCfg k).enable.getLsbD t = false) := by
  unfold endsClaim
  cases (s.crane k).claim with
  | none => simp
  | some m => simp

theorem hoistViolation_eq (w : Work) (k t : Nat) {i : Nat} (hi : w.s.slotCell k t (w.s.crane k).at = i) :
    w.hoistViolation k t =
      if endsClaim w.s k t then
        (w.stopped k t i (.byte (w.s.crane k).state.code :: partyVals (w.s.seg i).holder)).claimOff k i
      else w.stopped k t i (.byte (w.s.crane k).state.code :: partyVals (w.s.seg i).holder) := by
  subst hi
  unfold hoistViolation endsClaim stopped violated endangered heldCarrier
  dsimp only
  cases (w.s.crane k).claim with
  | none =>
    cases (w.s.seg (w.s.slotCell k t (w.s.crane k).at)).hold with
    | free => rfl
    | frozen q x => rfl
    | held q x => cases q <;> rfl
  | some m =>
    cases (w.s.seg (w.s.slotCell k t (w.s.crane k).at)).hold with
    | free => rfl
    | frozen q x => rfl
    | held q x => cases q <;> rfl

/-! ## The violation before its claim ends -/

section
variable (w : Work) (k i : Nat)

theorem endangered_some {s : State} {i b : Nat} (h : endangered s i = some b) : (s.seg i).heldBy (.carrier b) = true ∧
    (s.carrierIs b .idle = true ∨ s.carrierIs b .missing = true) := by
  unfold endangered at h
  split at h
  · next b' hb =>
    split at h
    · next hst =>
      obtain rfl := Option.some.inj h
      exact ⟨heldCarrier_iff.1 hb, by rwa [Bool.or_eq_true] at hst⟩
    · cases h
  · cases h

theorem endangered_of {s : State} {i b : Nat} (hb : (s.seg i).heldBy (.carrier b) = true)
    (hst : s.carrierIs b .idle = true ∨ s.carrierIs b .missing = true) : endangered s i = some b := by
  unfold endangered
  rw [heldCarrier_iff.2 hb]
  exact if_pos (by rwa [Bool.or_eq_true])

/-- A carrier that is endangered is not AUTHORIZED, so that the lock asks nothing. -/
theorem violated_some {b : Nat} (h : endangered w.s i = some b) : w.violated k i =
    (w.onSeg i (SegDyn.addLock k Reasons.ofViolation)).enterEmergency b .hoistViolation none := by
  obtain ⟨hb, hst⟩ := endangered_some h
  have hquiet : ∀ c x, (w.s.seg i).hold = .held (.carrier c) x → w.s.carrierIs c .authorized = false := fun c x hx => by
    have hc : c = b := by
      have := heldBy_unique (d := c) hb
      rw [(SegDyn.heldBy_iff _ _).2 ⟨x, hx⟩] at this
      exact (beq_iff_eq.1 this.symm)
    subst hc
    refine Bool.eq_false_iff.2 fun hauth => ?_
    obtain ⟨r, hr, hstate⟩ := (w.s.carrierIs_iff c .authorized).1 hauth
    rcases hst with hst | hst
    · obtain ⟨x, hx, hidle⟩ := (w.s.carrierIs_iff c .idle).1 hst
      rw [hr] at hx
      obtain rfl := Option.some.inj hx
      rw [hstate] at hidle
      cases hidle
    · obtain ⟨x, hx, hmissing⟩ := (w.s.carrierIs_iff c .missing).1 hst
      rw [hr] at hx
      obtain rfl := Option.some.inj hx
      rw [hstate] at hmissing
      cases hmissing
  unfold violated
  rw [h]
  dsimp only
  rw [addLock_of_quiet hquiet]

theorem violated_none (h : endangered w.s i = none) : w.violated k i = w.addLock k i Reasons.ofViolation := by
  unfold violated
  rw [h]

theorem seg_violated (j : Nat) : (w.violated k i).s.seg j =
    if j = i then (w.s.seg j).addLock k Reasons.ofViolation else w.s.seg j := by
  cases h : endangered w.s i with
  | none => rw [violated_none w k i h, seg_addLock]
  | some b =>
    rw [violated_some w k i h, (enterEmergency_effect _ _ _ _).only.seg (by decide), seg_onSeg]

theorem carrier?_violated (d : Nat) : (w.violated k i).s.carrier? d = (w.s.carrier? d).map (fun r =>
    if (w.s.seg i).heldBy (.carrier d) = true then r.asked .hoistViolation else r) := by
  cases h : endangered w.s i with
  | none =>
    rw [violated_none w k i h, carrier?_addLock]
    cases hx : w.s.carrier? d with
    | none => rfl
    | some x =>
      refine congrArg some ?_
      dsimp only
      by_cases hheld : (w.s.seg i).heldBy (.carrier d) = true
      · by_cases hauth : x.state = .authorized
        · rw [if_pos ⟨hauth, hheld⟩, if_pos hheld]
        · rw [if_neg fun h => hauth h.1, if_pos hheld]
          have hnot : ∀ st, st = .idle ∨ st = .missing → x.state ≠ st := fun st hst hx' => by
            have := endangered_of (s := w.s) hheld (by
              rcases hst with rfl | rfl
              · exact .inl ((w.s.carrierIs_iff d _).2 ⟨x, hx, hx'⟩)
              · exact .inr ((w.s.carrierIs_iff d _).2 ⟨x, hx, hx'⟩))
            rw [h] at this
            cases this
          have hidle := hnot _ (.inl rfl)
          have hmissing := hnot _ (.inr rfl)
          unfold Carrier.asked
          cases hst : x.state <;> simp_all
      · rw [if_neg fun h => hheld h.2, if_neg hheld]
  | some b =>
    rw [violated_some w k i h, carrier?_enterEmergency,
      (w.onSegs_effect [i] (SegDyn.addLock_idem k Reasons.ofViolation)).only.carrier? (t := (w.onSeg i _).s) (by decide)]
    have hheld := heldBy_unique (d := d) (endangered_some h).1
    rw [hheld]
    by_cases hd : d = b
    · subst hd
      simp
    · simp [hd]

/-- What a violation posts of the holder (R53, R69). -/
def violationEntries (s : State) (i : Nat) : List Notif :=
  match endangered s i with
  | some b => s.askEntries .hoistViolation none b
  | none => s.lockEntries Reasons.ofViolation [i]

theorem violated_effect : Effect [.segs, .carriers, .waiting, .dispatch]
    (fun d => w.s.Moved (w.violated k i).s d) (violationEntries w.s i) w (w.violated k i) := by
  unfold violationEntries
  cases h : endangered w.s i with
  | none =>
    rw [violated_none w k i h]
    refine (w.addLock_effect k i Reasons.ofViolation).said (by decide) (fun d => ?_) rfl
    exact moved_addLocks k Reasons.ofViolation w [i] d
  | some b =>
    rw [violated_some w k i h]
    have hlock : Effect [.segs] (fun _ => False) [] w (w.onSeg i (SegDyn.addLock k Reasons.ofViolation)) :=
      w.onSegs_effect [i] (SegDyn.addLock_idem k Reasons.ofViolation)
    have hask := enterEmergency_effect (w.onSeg i (SegDyn.addLock k Reasons.ofViolation)) b .hoistViolation none
    have hcarrier : ∀ d, (w.onSeg i (SegDyn.addLock k Reasons.ofViolation)).s.carrier? d = w.s.carrier? d :=
      hlock.only.carrier? (by decide)
    refine (hlock.aside hask).said (by decide) (fun d => ?_) ?_
    · have hmoved : ((w.onSeg i (SegDyn.addLock k Reasons.ofViolation)).enterEmergency b .hoistViolation
          none).s.carrier? d = (w.s.carrier? d).map (fun r => if d = b then r.asked .hoistViolation else r) := by
        rw [carrier?_enterEmergency, hcarrier]
        by_cases hd : d = b <;> simp [hd]
      rw [State.moved_iff hmoved, State.carrierIs_congr (hcarrier b), State.carrierIs_congr (hcarrier b),
        State.carrierIs_iff, State.carrierIs_iff]
      constructor
      · rintro (h | ⟨rfl, ⟨r, hr, hst⟩ | ⟨r, hr, hst⟩⟩)
        · exact h.elim
        · exact ⟨r, hr, rfl, .inl hst⟩
        · exact ⟨r, hr, rfl, .inr hst⟩
      · rintro ⟨r, hr, rfl, hst | hst⟩
        · exact .inr ⟨rfl, .inl ⟨r, hr, hst⟩⟩
        · exact .inr ⟨rfl, .inr ⟨r, hr, hst⟩⟩
    · rw [List.nil_append]
      exact State.askEntries_congr (hcarrier b) (hlock.only.entry? (by decide) b) hlock.only.now _ _

theorem waiting_violated : (w.violated k i).s.waiting = w.s.waiting.filter (fun e =>
    !((w.s.seg i).heldBy (.carrier e.carrier) && w.s.carrierIs e.carrier .idle)) := by
  cases h : endangered w.s i with
  | none =>
    rw [violated_none w k i h, (w.addLock_effect k i _).only.waiting (by decide)]
    refine (List.filter_eq_self.2 fun e _ => ?_).symm
    rw [Bool.not_eq_true', Bool.and_eq_false_iff]
    cases hheld : (w.s.seg i).heldBy (.carrier e.carrier) with
    | false => exact .inl rfl
    | true =>
      refine .inr (Bool.eq_false_iff.2 fun hidle => ?_)
      rw [endangered_of hheld (.inl hidle)] at h
      cases h
  | some b =>
    have hlock : Effect [.segs] (fun _ => False) [] w (w.onSeg i (SegDyn.addLock k Reasons.ofViolation)) :=
      w.onSegs_effect [i] (SegDyn.addLock_idem k Reasons.ofViolation)
    rw [violated_some w k i h, waiting_enterEmergency, hlock.only.waiting (by decide),
      State.carrierIs_congr (hlock.only.carrier? (by decide) b)]
    simp only [heldBy_unique (endangered_some h).1]
    split
    · next hidle =>
      refine List.filter_congr fun e _ => ?_
      by_cases he : e.carrier = b
      · simp [he, hidle]
      · simp [he]
    · next hidle =>
      refine (List.filter_eq_self.2 fun e _ => ?_).symm
      by_cases he : e.carrier = b
      · simp [he, hidle]
      · simp [he]

theorem violated_calm : (w.violated k i).reexam = w.reexam := (w.violated_effect k i).reexam_eq fun j => by
  rw [seg_violated]
  split
  · exact addLock_calm k Reasons.ofViolation _
  · exact SegDyn.callsFor_self _

end

end Work

end Sys2Proof.Machine
end

section
/-! Hoist samples within a request: violations to their end, implausible samples, the fault run, and a change of the
filtered class (R100 to R102, R107). -/

namespace Sys2Proof.Machine

namespace Work

/-! ## The violation with its frame and its entry (R107, R108) -/

section
variable (w : Work) (k t i : Nat) (detail : List Val)

theorem stopped_after : Effect [.craneLinks, .dispatch] (fun _ => False)
    [⟨.hoistViolation, w.s.now, .crane k, [.byte t, .half i] ++ detail⟩] (w.violated k i) (w.stopped k t i detail) := by
  have hpost := post_effect ((w.violated k i).on (fun s => s.hoistStop k)) .hoistViolation (.crane k)
    ([.byte t, .half i] ++ detail)
  rw [((w.violated k i).hoistStop_effect k).only.now, (w.violated_effect k i).only.now] at hpost
  exact (((w.violated k i).hoistStop_effect k).aside hpost).said (by decide) (fun _ => by simp) rfl

theorem craneLink_stopped (m : Nat) : (w.stopped k t i detail).s.craneLink m =
    if m = k then ((w.s.craneLink k).join (.hoistStop (w.s.crane k).lastSeq)).transmit else w.s.craneLink m := by
  have hviolated := (w.violated_effect k i).only
  rw [stopped, craneLink_of_only (post_effect _ _ _ _).only (by decide), craneLink_hoistStop,
    craneLink_of_only hviolated (by decide), craneLink_of_only hviolated (by decide), hviolated.crane (by decide)]

theorem moved_stopped (d : Nat) : w.s.Moved (w.stopped k t i detail).s d ↔ w.s.Moved (w.violated k i).s d := by
  unfold State.Moved
  rw [(w.stopped_after k t i detail).only.carrier? (by decide)]

theorem stopped_effect : Effect [.segs, .carriers, .waiting, .craneLinks, .dispatch]
    (fun d => w.s.Moved (w.stopped k t i detail).s d)
    (violationEntries w.s i ++ [⟨.hoistViolation, w.s.now, .crane k, [.byte t, .half i] ++ detail⟩]) w
    (w.stopped k t i detail) := by
  refine ((w.violated_effect k i).aside (w.stopped_after k t i detail)).said (by decide) (fun d => ?_) rfl
  rw [moved_stopped, or_false]

theorem stopped_calm : (w.stopped k t i detail).reexam = w.reexam := by
  rw [(w.stopped_after k t i detail).reexam_eq fun j => ?_, violated_calm]
  rw [(w.stopped_after k t i detail).only.seg (by decide)]
  exact SegDyn.callsFor_self _

theorem seg_stopped (j : Nat) : (w.stopped k t i detail).s.seg j =
    if j = i then (w.s.seg j).addLock k Reasons.ofViolation else w.s.seg j :=
  ((w.stopped_after k t i detail).only.seg (by decide) j).trans (w.seg_violated k i j)

/-! ## The end of a claim under a violation (R107, R111) -/

theorem seg_stoppedOff (j : Nat) : ((w.stopped k t i detail).claimOff k i).s.seg j =
    if j = i then ((w.s.seg j).addLock k Reasons.ofViolation).removeLock k Reasons.ofClaim else w.s.seg j := by
  rw [seg_claimOff, seg_stopped]
  split <;> rfl

theorem stoppedOff_grown : w.Grown ((w.stopped k t i detail).claimOff k i)
    (w.s.Moved ((w.stopped k t i detail).claimOff k i).s) := by
  have hoff := (w.stopped k t i detail).claimOff_effect k i
  have hall := (w.stopped_effect k t i detail).grown.trans hoff.grown fun j hj => by
    rw [seg_stoppedOff] at hj
    rw [seg_stopped]
    by_cases hji : j = i
    · rw [if_pos hji] at hj ⊢
      exact SegDyn.violated_kept hj
    · exact if_neg hji
  refine ⟨hall.before, hall.touched, fun d => (hall.runs d).trans (or_congr_right ?_), hall.bumped, hall.settled,
    hall.report⟩
  unfold State.Moved
  rw [hoff.only.carrier? (by decide), or_false]

theorem stoppedOff_calm : ((w.stopped k t i detail).claimOff k i).reexam = w.reexam := by
  rw [((w.stopped k t i detail).claimOff_effect k i).reexam_eq fun j => ?_, stopped_calm]
  rw [seg_claimOff, seg_stopped]
  by_cases hji : j = i
  · rw [if_pos hji, if_pos hji]
    exact SegDyn.violatedEnded_calm k _
  · rw [if_neg hji, if_neg hji]
    exact SegDyn.callsFor_self _

end

/-! ## What a violation posts (R53, R69) -/

theorem violationEntries_free {s : State} {i : Nat} (h : ∀ b x, (s.seg i).hold ≠ .held (.carrier b) x) :
    violationEntries s i = [] := by
  have hnone : heldCarrier (s.seg i) = none := Option.eq_none_iff_forall_ne_some.2 fun b hb => by
    obtain ⟨x, hx⟩ := (SegDyn.heldBy_iff _ _).1 (heldCarrier_iff.1 hb)
    exact h b x hx
  unfold violationEntries endangered
  rw [hnone]
  dsimp only
  rw [lockEntries_eq, lockedOut_nil fun j hj c hc => ?_, List.flatMap_nil]
  rw [List.mem_singleton.1 hj] at hc
  rw [heldCarrier_iff.2 hc] at hnone
  cases hnone

theorem violationEntries_endangered {s : State} {i b : Nat} (hb : (s.seg i).heldBy (.carrier b) = true)
    (h : s.carrierIs b .idle = true ∨ s.carrierIs b .missing = true) :
    violationEntries s i = s.askEntries .hoistViolation none b := by
  unfold violationEntries
  rw [endangered_of hb h]

theorem violationEntries_other (w : Work) {i b : Nat} (hb : (w.s.seg i).heldBy (.carrier b) = true)
    (hidle : w.s.carrierIs b .idle = false) (hmissing : w.s.carrierIs b .missing = false) :
    violationEntries w.s i = if w.s.carrierIs b .authorized then
      w.s.askEntries .hoistViolation (some Reasons.ofViolation) b else [] := by
  have hnone : endangered w.s i = none := Option.eq_none_iff_forall_ne_some.2 fun c hc => by
    obtain ⟨hheld, hst⟩ := endangered_some hc
    obtain rfl : c = b := beq_iff_eq.1 ((heldBy_unique hb).symm.trans hheld)
    rw [hidle, hmissing] at hst
    simp at hst
  unfold violationEntries
  rw [hnone]
  dsimp only
  rw [lockEntries_eq]
  split
  · next hauth => rw [lockedOut_one w i hb hauth, List.flatMap_singleton]
  · next hauth =>
    rw [lockedOut_nil fun j hj c hc => ?_, List.flatMap_nil]
    rw [List.mem_singleton.1 hj] at hc
    obtain rfl : c = b := beq_iff_eq.1 ((heldBy_unique hb).symm.trans hc)
    exact Bool.eq_false_iff.2 hauth

end Work

/-! ## Implausible samples (R100, R102) -/

theorem faultSlots_one {cfg : CraneConfig} {c : Crane} {t : Nat} (ht : c.trolley = some t)
    (hin : t < cfg.slotLanes.length) (hfault : cfg.fault = .slot) : faultSlots cfg c = [t] := by
  unfold faultSlots
  rw [ht]
  simp [hin, hfault]

theorem faultSlots_all {cfg : CraneConfig} {c : Crane} (h : c.trolley = none ∨
    (∃ t, c.trolley = some t ∧ cfg.slotLanes.length ≤ t) ∨ cfg.fault = .all) :
    faultSlots cfg c = List.range cfg.slotLanes.length := by
  unfold faultSlots
  rcases h with h | ⟨t, ht, hout⟩ | h
  · rw [h]
  · rw [ht]
    simp [Nat.not_lt.2 hout]
  · cases c.trolley with
    | none => rfl
    | some t => simp [h]

/-- The slots that an implausible sample locks (R102). -/
theorem faultSlots_eq {cfg : CraneConfig} {c : Crane} {slots : List Nat}
    (hone : ∀ t, c.trolley = some t → t < cfg.slotLanes.length → cfg.fault = .slot → slots = [t])
    (hall : c.trolley = none ∨ (∃ t, c.trolley = some t ∧ cfg.slotLanes.length ≤ t) ∨ cfg.fault = .all →
      slots = List.range cfg.slotLanes.length) : faultSlots cfg c = slots := by
  by_cases h : c.trolley = none ∨ (∃ t, c.trolley = some t ∧ cfg.slotLanes.length ≤ t) ∨ cfg.fault = .all
  · rw [hall h, faultSlots_all h]
  · rw [not_or, not_or] at h
    obtain ⟨hsome, hin, hslot⟩ := h
    obtain ⟨t, ht⟩ := Option.ne_none_iff_exists'.1 hsome
    have hin' : t < cfg.slotLanes.length := Nat.lt_of_not_le fun hle => hin ⟨t, ht, hle⟩
    have hfault : cfg.fault = .slot := by
      cases hf : cfg.fault with
      | slot => rfl
      | all => exact absurd hf hslot
    rw [hone t ht hin' hfault, faultSlots_one ht hin' hfault]

/-- The cause that CRANE_FAULT names is the first of several (log entry 26). -/
theorem faultCause_some {cfg : CraneConfig} {c : Crane} {position : Bool} {cause : FaultCause}
    (h : faultCause cfg c position = some cause) : (cfg.ceiling < c.height → cause = .height) ∧
      (c.height ≤ cfg.ceiling → (∃ t, c.trolley = some t ∧ cfg.slotLanes.length ≤ t) → cause = .trolley) ∧
      (c.height ≤ cfg.ceiling → (∀ t, c.trolley = some t → t < cfg.slotLanes.length) →
        (c.flags.sensorFault = true → cause = .sensor) ∧ (c.flags.sensorFault = false → cause = .bay)) := by
  rw [← badTrolley_false]
  unfold faultCause at h
  refine ⟨fun hheight => ?_, fun hheight ⟨t, ht, hout⟩ => ?_, fun hheight hin => ⟨fun hs => ?_, fun hs => ?_⟩⟩
  · rw [if_pos hheight] at h
    exact (Option.some.inj h).symm
  · have hbad : badTrolley cfg c.trolley = true := by
      rw [ht]
      exact decide_eq_true hout
    rw [if_neg (Nat.not_lt.2 hheight), if_pos hbad] at h
    exact (Option.some.inj h).symm
  · rw [if_neg (Nat.not_lt.2 hheight), hin, hs] at h
    exact (Option.some.inj h).symm
  · rw [if_neg (Nat.not_lt.2 hheight), hin, hs] at h
    cases position with
    | false => exact (Option.some.inj h).symm
    | true => cases h

theorem State.slotCell_congr {s t : State} (h : t.cfg = s.cfg) (k x g : Nat) : t.slotCell k x g = s.slotCell k x g := by
  unfold State.slotCell State.craneCfg State.grid
  rw [h]

namespace Work

section
variable (w : Work) (k : Nat)

theorem addLocks_slots (rs : Reasons) (g : Nat) (slots : List Nat) :
    slots.foldl (fun w t => w.addLock k (w.s.slotCell k t g) rs) w =
      w.addLocks k rs (slots.map (fun t => w.s.slotCell k t g)) := by
  induction slots generalizing w with
  | nil => rfl
  | cons t slots ih =>
    rw [List.foldl_cons, ih, List.map_cons, addLocks_cons]
    have hcfg := (w.addLock_effect k (w.s.slotCell k t g) rs).only.cfg
    exact congrArg _ (List.map_congr_left fun x _ => State.slotCell_congr hcfg k x g)

/-- The record of a crane after an implausible sample (R100, R102). -/
def faulted (w : Work) (k : Nat) : Work := w.onCrane k (fun c => { c with
  implausible := bump16 c.implausible, candidate := none, count := 0, faultRun := 0, episode := true })

theorem implausible_eq (cause : FaultCause) {cfg : CraneConfig} {c : Crane} {slots cells : List Nat}
    (hcfg : cfg = w.s.craneCfg k) (hc : c = w.s.crane k) (hslots : faultSlots cfg c = slots)
    (hcells : cells = slots.map (fun t => w.s.slotCell k t c.at)) : w.implausible k cause =
      if c.episode then (w.faulted k).addLocks k Reasons.ofFault cells
      else ((w.faulted k).addLocks k Reasons.ofFault cells).post .craneFault (.crane k)
        ([.byte cause.code, .byte slots.length] ++ slots.map Val.byte) := by
  subst hcfg hc hslots hcells
  have hlocks := (w.faulted k).addLocks_slots k Reasons.ofFault (w.s.crane k).at
    (faultSlots (w.s.craneCfg k) (w.s.crane k))
  unfold implausible
  dsimp only
  rw [← faulted, hlocks]
  rfl

/-- The entries of an implausible sample (R102). -/
def faultEntries (w : Work) (k : Nat) (cause : FaultCause) (slots : List Nat) : List Notif :=
  if (w.s.crane k).episode then [] else
    [⟨.craneFault, w.s.now, .crane k, [.byte cause.code, .byte slots.length] ++ slots.map Val.byte⟩]

theorem reasonsOf_faulted (k : Nat) (r : SegDyn) :
    (r.addLock k Reasons.ofFault).reasonsOf k = { r.reasonsOf k with fault := true } := by
  rw [SegDyn.reasonsOf_addLock, if_pos rfl]
  simp [Reasons.join, Reasons.ofFault]

end

/-! ## The fault run (R102) -/

section
variable {w : Work} {k n : Nat} {cls : HoistClass}

theorem faultRun_quiet (h : (w.s.crane k).episode = false) : w.faultRun k n cls = w := by
  unfold faultRun
  dsimp only
  rw [h]
  rfl

theorem faultRun_reset (h : (w.s.crane k).episode = true) (hcls : cls ≠ .up) :
    w.faultRun k n cls = w.onCrane k (fun c => { c with faultRun := 0 }) := by
  unfold faultRun
  dsimp only
  rw [h]
  exact if_pos hcls

theorem faultRun_longer (h : (w.s.crane k).episode = true) (hcls : cls = .up) (hn : (w.s.crane k).faultRun + 1 < n) :
    w.faultRun k n cls = w.onCrane k (fun c => { c with faultRun := c.faultRun + 1 }) := by
  unfold faultRun
  dsimp only
  rw [h]
  exact (if_neg (by decide)).trans ((if_neg fun hne => hne hcls).trans (if_neg (Nat.not_le.2 hn)))

/-- The run that ends an episode (R102). -/
def recovered (w : Work) (k : Nat) : Work :=
  ((w.removeLocks k Reasons.ofFault).onCrane k (fun c => { c with faultRun := 0, episode := false })).post
    .craneFault (.crane k) [.byte 4]

theorem faultRun_ends (h : (w.s.crane k).episode = true) (hcls : cls = .up) (hn : n ≤ (w.s.crane k).faultRun + 1) :
    w.faultRun k n cls = w.recovered k := by
  unfold faultRun
  dsimp only
  rw [h]
  exact (if_neg (by decide)).trans ((if_neg fun hne => hne hcls).trans (if_pos hn))

theorem recovered_effect (w : Work) (k : Nat) : Effect [.segs, .cranes, .dispatch] (fun _ => False)
    [⟨.craneFault, w.s.now, .crane k, [.byte 4]⟩] w (w.recovered k) := by
  have hlocks := w.removeLocks_effect k Reasons.ofFault
  have hcrane := onCrane_effect (w.removeLocks k Reasons.ofFault) k
    (fun c => { c with faultRun := 0, episode := false })
  have hpost := post_effect ((w.removeLocks k Reasons.ofFault).onCrane k
    (fun c => { c with faultRun := 0, episode := false })) .craneFault (.crane k) [.byte 4]
  rw [hcrane.only.now, hlocks.only.now] at hpost
  exact ((hlocks.aside hcrane).aside hpost).said (by decide) (fun _ => by simp) rfl

theorem crane_recovered (w : Work) (k m : Nat) : (w.recovered k).s.crane m =
    if m = k then { w.s.crane k with faultRun := 0, episode := false } else w.s.crane m := by
  have hlocks := (w.removeLocks_effect k Reasons.ofFault).only
  rw [recovered, (post_effect _ _ _ _).only.crane (by decide), crane_onCrane, hlocks.crane (by decide),
    hlocks.crane (by decide)]

theorem seg_recovered (hs : w.s.segs.Sorted) (i : Nat) : (w.recovered k).s.seg i =
    if ((w.s.seg i).reasonsOf k).meets Reasons.ofFault = true then (w.s.seg i).removeLock k Reasons.ofFault
    else w.s.seg i := by
  rw [recovered, (post_effect _ _ _ _).only.seg (by decide), (onCrane_effect _ k _).only.seg (by decide),
    seg_removeLocks k Reasons.ofFault hs]

end

/-! ## A reason that leaves every segment (R101, R102) -/

/-- Where the reasons of a crane do not meet those that leave, taking them changes nothing. -/
theorem reasonsOf_left (k j : Nat) (rs : Reasons) (r : SegDyn) :
    (if (r.reasonsOf k).meets rs = true then r.removeLock k rs else r).reasonsOf j =
      if j = k then (r.reasonsOf k).without rs else r.reasonsOf j := by
  split
  · exact SegDyn.reasonsOf_removeLock k j rs r
  · next h =>
    by_cases hj : j = k
    · rw [if_pos hj, Reasons.without_of_not_meets (Bool.not_eq_true _ ▸ h), hj]
    · rw [if_neg hj]

theorem left_hold (k : Nat) (rs : Reasons) (r : SegDyn) :
    (if (r.reasonsOf k).meets rs = true then r.removeLock k rs else r).hold = r.hold ∧
      (if (r.reasonsOf k).meets rs = true then r.removeLock k rs else r).oos = r.oos ∧
      (if (r.reasonsOf k).meets rs = true then r.removeLock k rs else r).intruder = r.intruder := by
  split
  · exact ⟨rfl, rfl, rfl⟩
  · exact ⟨rfl, rfl, rfl⟩

/-! ## Crossings notified (R101) -/

def notifyCrossings (w : Work) (k : Nat) (xs : List Crossing) : Work := xs.foldl (fun w x => w.notifyCrossing k x) w

/-- The entry of a crossing (R101). -/
def crossingEntry (s : State) (k : Nat) (x : Crossing) : Notif := ⟨.hoistCrossing, s.now, .crane k,
  [.byte x.slot, .half (s.slotCell k x.slot (s.crane k).at), .byte (if x.down then 0 else 1)]⟩

theorem notifyCrossing_eq (w : Work) (k : Nat) (x : Crossing) : w.notifyCrossing k x =
    { w with s := { w.s with dispatch := (w.notifyCrossing k x).s.dispatch } } := by
  unfold notifyCrossing
  split <;> rfl

theorem dispatch_only_trans {w v u : Work} {d e : Table DispatchLink}
    (h : v = { w with s := { w.s with dispatch := d } }) (g : u = { v with s := { v.s with dispatch := e } }) :
    u = { w with s := { w.s with dispatch := e } } := by
  subst h
  exact g

theorem notifyCrossings_eq (w : Work) (k : Nat) (xs : List Crossing) : w.notifyCrossings k xs =
    { w with s := { w.s with dispatch := (w.notifyCrossings k xs).s.dispatch } } := by
  induction xs generalizing w with
  | nil => rfl
  | cons x xs ih =>
    exact dispatch_only_trans (w.notifyCrossing_eq k x) (ih (w.notifyCrossing k x))

theorem notifyCrossing_effect (w : Work) (k : Nat) (x : Crossing) : Effect [.dispatch] (fun _ => False)
    (if (w.s.craneCfg k).crossing.names x.down then [crossingEntry w.s k x] else []) w (w.notifyCrossing k x) := by
  unfold notifyCrossing
  split
  · exact post_effect _ _ _ _
  · exact (Effect.refl w).said (by decide) (fun _ => Iff.rfl) rfl

theorem notifyCrossings_effect (w : Work) (k : Nat) (xs : List Crossing) : Effect [.dispatch] (fun _ => False)
    ((xs.filter (fun x => (w.s.craneCfg k).crossing.names x.down)).map (crossingEntry w.s k)) w
    (w.notifyCrossings k xs) := by
  induction xs generalizing w with
  | nil => exact (Effect.refl w).said (by decide) (fun _ => Iff.rfl) rfl
  | cons x xs ih =>
    have hfirst := w.notifyCrossing_effect k x
    have hcfg : (w.notifyCrossing k x).s.craneCfg k = w.s.craneCfg k := by
      unfold State.craneCfg
      rw [hfirst.only.cfg]
    have hentry : crossingEntry (w.notifyCrossing k x).s k = crossingEntry w.s k := by
      rw [w.notifyCrossing_eq k x]
      rfl
    have hrest := ih (w.notifyCrossing k x)
    rw [hcfg, hentry] at hrest
    refine (hfirst.aside hrest).said (by decide) (fun _ => by simp) ?_
    rw [List.filter_cons]
    split <;> rfl

end Work

theorem CrossSelect.names_iff (x : CrossSelect) (down : Bool) : x.names down = decide (x = .both ∨
    (x = .down ∧ down = true) ∨ (x = .up ∧ down = false)) := by
  cases x <;> cases down <;> rfl

end Sys2Proof.Machine
end

section
/-! Hoist samples, faults and their episode, the filter, crossings under a claim and violations (R98, R100 to R102,
R107). -/

namespace Sys2Proof.Machine

namespace Work

section
variable {w : Work} {k : Nat} {cause : FaultCause} {slots cells : List Nat}

/-- An implausible sample (R100, R102). -/
def judgedFault (w : Work) (k : Nat) (cause : FaultCause) (slots cells : List Nat) : Work :=
  if (w.s.crane k).episode then (w.faulted k).addLocks k Reasons.ofFault cells
  else ((w.faulted k).addLocks k Reasons.ofFault cells).post .craneFault (.crane k)
    ([.byte cause.code, .byte slots.length] ++ slots.map Val.byte)

theorem judgedFault_after (w : Work) (k : Nat) (cause : FaultCause) (slots cells : List Nat) :
    Effect [.dispatch] (fun _ => False) (w.faultEntries k cause slots)
      ((w.faulted k).addLocks k Reasons.ofFault cells) (w.judgedFault k cause slots cells) := by
  unfold judgedFault faultEntries
  split
  · exact (Effect.refl _).said (by decide) (fun _ => Iff.rfl) rfl
  · have hpost := post_effect ((w.faulted k).addLocks k Reasons.ofFault cells) .craneFault (.crane k)
      ([.byte cause.code, .byte slots.length] ++ slots.map Val.byte)
    rw [(addLocks_effect k Reasons.ofFault (w.faulted k) cells).only.now] at hpost
    exact hpost

theorem seg_judgedFault (w : Work) (k : Nat) (cause : FaultCause) (slots cells : List Nat) (i : Nat) :
    (w.judgedFault k cause slots cells).s.seg i =
      if i ∈ cells then (w.s.seg i).addLock k Reasons.ofFault else w.s.seg i := by
  rw [(w.judgedFault_after k cause slots cells).only.seg (by decide), seg_addLocks]
  rfl

theorem carrier?_judgedFault (w : Work) (k : Nat) (cause : FaultCause) (slots cells : List Nat) (d : Nat) :
    (w.judgedFault k cause slots cells).s.carrier? d = (w.s.carrier? d).map (fun r =>
      if r.state = .authorized ∧ cells.any (fun i => (w.s.seg i).heldBy (.carrier d)) = true then
        r.asked .hoistViolation
      else r) := by
  rw [(w.judgedFault_after k cause slots cells).only.carrier? (by decide), carrier?_addLocks]
  rfl

theorem crane_judgedFault (w : Work) (k : Nat) (cause : FaultCause) (slots cells : List Nat) (m : Nat) :
    (w.judgedFault k cause slots cells).s.crane m = if m = k then { w.s.crane k with
      implausible := bump16 (w.s.crane k).implausible, candidate := none, count := 0, faultRun := 0, episode := true }
    else w.s.crane m := by
  rw [(w.judgedFault_after k cause slots cells).only.crane (by decide),
    (addLocks_effect k Reasons.ofFault (w.faulted k) cells).only.crane (by decide), faulted, crane_onCrane]

theorem judgedFault_effect (w : Work) (k : Nat) (cause : FaultCause) (slots cells : List Nat) :
    Effect [.segs, .carriers, .cranes, .dispatch] (w.s.Moved (w.judgedFault k cause slots cells).s)
      (w.s.lockEntries Reasons.ofFault cells ++ w.faultEntries k cause slots) w
      (w.judgedFault k cause slots cells) := by
  have hrecord : Effect [.cranes] (fun _ => False) [] w (w.faulted k) := onCrane_effect w k _
  have hlocks := addLocks_effect k Reasons.ofFault (w.faulted k) cells
  refine ((hrecord.first hlocks).aside (w.judgedFault_after k cause slots cells)).said (by decide) (fun d => ?_) rfl
  rw [moved_addLocks k Reasons.ofFault (w.faulted k) cells d]
  unfold State.Moved
  rw [(w.judgedFault_after k cause slots cells).only.carrier? (by decide)]
  simp only [false_or, or_false]
  rfl

theorem judgedFault_calm (w : Work) (k : Nat) (cause : FaultCause) (slots cells : List Nat) :
    (w.judgedFault k cause slots cells).reexam = w.reexam :=
  (w.judgedFault_effect k cause slots cells).reexam_eq fun i => by
    rw [seg_judgedFault]
    split
    · exact addLock_calm k Reasons.ofFault _
    · exact SegDyn.callsFor_self _

end

end Work

/-! ## A sample that is judged (R98, R100) -/

section
variable {w : Work} {k : Nat} {position : Bool}

theorem Work.judgeHoist_plausible (h : faultCause (w.s.craneCfg k) (w.s.crane k) position = none) :
    w.judgeHoist k position = ((w.onCrane k (Crane.feed (w.s.craneCfg k).filter
      (sampleClass (w.s.craneCfg k) (w.s.crane k)))).faultRun k (w.s.craneCfg k).filter
      (sampleClass (w.s.craneCfg k) (w.s.crane k))).filteredChange k (w.s.crane k).filtered
      ((((w.onCrane k (Crane.feed (w.s.craneCfg k).filter (sampleClass (w.s.craneCfg k) (w.s.crane k)))).faultRun k
        (w.s.craneCfg k).filter (sampleClass (w.s.craneCfg k) (w.s.crane k))).s.crane k).filtered) := by
  unfold Work.judgeHoist
  dsimp only
  rw [h]

theorem Work.judgeHoist_fault {cause : FaultCause}
    (h : faultCause (w.s.craneCfg k) (w.s.crane k) position = some cause) :
    w.judgeHoist k position = w.implausible k cause := by
  unfold Work.judgeHoist
  dsimp only
  rw [h]

/-- A change of the filtered class (R101). -/
theorem Work.filteredChange_eq {old new : HoistClass} (h : old ≠ new) : w.filteredChange k old new =
    if new = .up then ((crossingsOf old new).foldl (fun w x => w.cross k x)
      (w.notifyCrossings k (crossingsOf old new))).removeLocks k Reasons.ofLink
    else (crossingsOf old new).foldl (fun w x => w.cross k x) (w.notifyCrossings k (crossingsOf old new)) := if_neg h

end

theorem without_ofFault (a : Reasons) : a.without Reasons.ofFault = { a with fault := false } := by
  simp [Reasons.without, Reasons.ofFault]

theorem without_ofLink (a : Reasons) : a.without Reasons.ofLink = { a with link := false } := by
  simp [Reasons.without, Reasons.ofLink]

/-- Settles O44. -/
theorem hoistFilterAndCrossings : Obligations.HoistFilterAndCrossings := by
  unfold Obligations.HoistFilterAndCrossings
  refine ⟨fun cfg c position => faultCause_none, fun n cls c hn => ⟨Crane.feed_new hn, Crane.feed_again⟩,
    crossingsOf_cases, fun w k t c m hc hclaim hslot hvoid => ⟨fun hstate henable hphase => ?_, fun hphase n hn => ?_⟩,
    fun w k t c hc h => ?_, fun w v k t i c ends hc hv hi hnot hends => ?_,
    fun cfg c => ⟨fun t => sampleClass_down, sampleClass_up⟩, fun w v k position cfg c hcfg hc hs hv => ⟨?_, ?_⟩,
    fun w v k n cls c hc hs hv => ?_, fun w v k old new xs cfg hs hcfg hv hxs => ?_⟩
  · subst hc
    have htakes : w.s.claimTakes k t = true := State.claimTakes_iff.2 ⟨hstate, henable, m, hclaim, hslot, hvoid, hphase⟩
    rw [Work.cross_down, Work.crossDown_taken htakes]
    refine ⟨?_, w.onCrane_eq k _⟩
    rw [Work.crane_onCrane, if_pos rfl, Crane.useClaim, hclaim]
    rfl
  · subst hc hn
    rw [Work.cross_up, Work.crossUp_raised hclaim hslot hvoid hphase]
    refine ⟨?_, w.onCrane_eq k _⟩
    rw [Work.crane_onCrane, if_pos rfl, Crane.enterPhase, hclaim]
    rfl
  · subst hc
    rw [Work.cross_up, Work.crossUp_idle h]
  · subst hc
    have hslot : w.s.slotCell k t (w.s.crane k).at = i := hi.symm
    have hends' : Work.endsClaim w.s k t = ends := by rw [Bool.eq_iff_iff, Work.endsClaim_iff, hends]
    rw [← State.claimTakes_iff] at hnot
    rw [Work.cross_down, Work.crossDown_violation hnot, Work.hoistViolation_eq w k t hslot, hends'] at hv
    obtain ⟨detail, hdetail⟩ : ∃ l, l = Val.byte (w.s.crane k).state.code :: partyVals (w.s.seg i).holder := ⟨_, rfl⟩
    rw [← hdetail] at hv
    have hstop := w.stopped_effect k t i detail
    have hafter := (w.stopped_after k t i detail).only
    have hoff := (w.stopped k t i detail).claimOff_effect k i
    have hv' : v = if ends = true then (w.stopped k t i detail).claimOff k i else w.stopped k t i detail := hv
    have honly : State.Only [.segs, .cranes] (w.stopped k t i detail).s v.s := by
      rw [hv']
      split
      · exact hoff.only
      · exact State.Only.refl _
    have hseg : ∀ j, v.s.seg j = if j = i then
        (if ends = true then ((w.s.seg j).addLock k Reasons.ofViolation).removeLock k Reasons.ofClaim
          else (w.s.seg j).addLock k Reasons.ofViolation)
        else w.s.seg j := fun j => by
      rw [hv']
      split
      · exact w.seg_stoppedOff k t i detail j
      · exact w.seg_stopped k t i detail j
    have hcrane : ∀ j, v.s.crane j = if j = k then
        (if ends = true then { w.s.crane k with claim := none } else w.s.crane k) else w.s.crane j := fun j => by
      rw [hv']
      split
      · rw [Work.crane_claimOff, hstop.only.crane (by decide), hstop.only.crane (by decide)]
      · rw [hstop.only.crane (by decide)]
        split
        · next hj => rw [hj]
        · rfl
    have hlink : ∀ j, v.s.craneLink j = if j = k then
        ((w.s.craneLink k).join (.hoistStop (w.s.crane k).lastSeq)).transmit else w.s.craneLink j := fun j => by
      rw [Work.craneLink_of_only honly (by decide), Work.craneLink_stopped]
    have hgrown : w.Grown v (w.s.Moved v.s) := by
      rw [hv']
      split
      · exact w.stoppedOff_grown k t i detail
      · exact hstop.grown
    have hcalm : v.reexam = w.reexam := by
      rw [hv']
      split
      · exact w.stoppedOff_calm k t i detail
      · exact w.stopped_calm k t i detail
    have hposts : ∀ m, v.s.dlink m = (w.stopped k t i detail).s.dlink m := honly.dlink (by decide)
    refine ⟨?_, fun j hj => ?_, ?_, ?_, ?_, fun j hj => ?_, hcalm, hgrown, ?_, fun j hj => ⟨?_, ?_⟩, ?_, fun q => ?_, ?_,
      fun es hfree hheld m => ?_, ?_⟩
    · rw [hseg, if_pos rfl]
      split
      · exact SegDyn.reasonsOf_violatedEnded k _
      · exact SegDyn.reasonsOf_violated k _
    · rw [hseg, if_pos rfl]
      split
      · exact SegDyn.reasonsOf_other k _ hj
      · rw [SegDyn.reasonsOf_addLock, if_neg hj]
    · rw [hseg, if_pos rfl]
      split <;> rfl
    · rw [hseg, if_pos rfl]
      split <;> rfl
    · rw [hseg, if_pos rfl]
      split <;> rfl
    · rw [hseg, if_neg hj]
    · rw [hlink, if_pos rfl]
    · rw [hlink, if_neg hj]
    · rw [hcrane, if_neg hj]
    · rw [hcrane, if_pos rfl]
    · rw [honly.carrier? (by decide), hafter.carrier? (by decide), Work.carrier?_violated]
    · rw [honly.waiting (by decide), hafter.waiting (by decide), Work.waiting_violated]
    · rw [hposts, hstop.posts, hdetail]
      refine congrArg (fun l => (w.s.dlink m).offers w.s.now (l ++ _)) ?_
      by_cases hb : ∃ b x, (w.s.seg i).hold = .held (.carrier b) x
      · obtain ⟨b, x, hbx⟩ := hb
        obtain ⟨hauth, hasked, hother⟩ := hheld b x hbx
        have hbheld : (w.s.seg i).heldBy (.carrier b) = true := (SegDyn.heldBy_iff _ _).2 ⟨x, hbx⟩
        by_cases hst : w.s.carrierIs b .idle = true ∨ w.s.carrierIs b .missing = true
        · rw [Work.violationEntries_endangered hbheld hst, hasked hst]
        · rw [not_or, Bool.not_eq_true, Bool.not_eq_true] at hst
          rw [Work.violationEntries_other w hbheld hst.1 hst.2]
          split
          · next h => exact (hauth h).symm
          · next h => exact (hother (Bool.eq_false_iff.2 h) hst.1 hst.2).symm
      · have hnone : ∀ b x, (w.s.seg i).hold ≠ .held (.carrier b) x := fun b x h => hb ⟨b, x, h⟩
        rw [Work.violationEntries_free hnone, hfree hnone]
    · exact ((hstop.only.trans honly).mono (G := [.segs, .waiting, .carriers, .cranes, .craneLinks, .dispatch])
        (by decide)).eq
  · rintro hnone cls z rfl rfl
    subst hcfg hc hv
    exact Work.judgeHoist_plausible hnone
  · intro cause slots cells hsome hone hall hcells
    have hslots := faultSlots_eq hone hall
    obtain ⟨hheight, htrolley, hsensor⟩ := faultCause_some hsome
    have hcells' : cells = slots.map (fun t => w.s.slotCell k t c.at) := by
      rw [hcells, hcfg]
      rfl
    have hv' : v = w.judgedFault k cause slots cells := by
      rw [hv, Work.judgeHoist_fault (hcfg ▸ hc ▸ hsome), w.implausible_eq k cause hcfg hc hslots hcells', hc]
      rfl
    subst hv' hc
    have hfault := w.judgedFault_effect k cause slots cells
    refine ⟨hheight, htrolley, hsensor, ?_, fun j hj => ?_, fun i => ⟨?_, fun j hj => ?_, ?_, ?_, ?_⟩,
      w.carrier?_judgedFault k cause slots cells, hfault.posts, hfault.grown, w.judgedFault_calm k cause slots cells,
      hfault.only.eq⟩
    · rw [Work.crane_judgedFault, if_pos rfl]
      rfl
    · rw [Work.crane_judgedFault, if_neg hj]
    · rw [Work.seg_judgedFault]
      split
      · exact Work.reasonsOf_faulted k _
      · rfl
    · rw [Work.seg_judgedFault]
      split
      · rw [SegDyn.reasonsOf_addLock, if_neg hj]
      · rfl
    · rw [Work.seg_judgedFault]
      split <;> rfl
    · rw [Work.seg_judgedFault]
      split <;> rfl
    · rw [Work.seg_judgedFault]
      split <;> rfl
  · subst hc hv
    refine ⟨fun h => Work.faultRun_quiet h, fun h hcls => ?_, fun h hcls hn => ?_, fun h hcls hn => ?_⟩
    · rw [Work.faultRun_reset h hcls]
      exact ⟨by rw [Work.crane_onCrane, if_pos rfl], w.onCrane_eq k _⟩
    · rw [Work.faultRun_longer h hcls hn]
      exact ⟨by rw [Work.crane_onCrane, if_pos rfl], w.onCrane_eq k _⟩
    · rw [Work.faultRun_ends h hcls hn]
      have heffect := w.recovered_effect k
      refine ⟨fun i => ?_, heffect.posts, fun j => w.crane_recovered k j, heffect.grown, heffect.calls, heffect.only.eq⟩
      obtain ⟨hhold, hoos, hmark⟩ := Work.left_hold k Reasons.ofFault (w.s.seg i)
      rw [Work.seg_recovered hs]
      refine ⟨?_, fun j hj => ?_, hhold, hoos, hmark⟩
      · rw [Work.reasonsOf_left, if_pos rfl, without_ofFault]
      · rw [Work.reasonsOf_left, if_neg hj]
  · subst hcfg hv hxs
    refine ⟨fun h => if_pos h, fun h => ?_⟩
    have hnotify := w.notifyCrossings_effect k (crossingsOf old new)
    have hsorted : ((crossingsOf old new).foldl (fun w x => w.cross k x)
        (w.notifyCrossings k (crossingsOf old new))).s.segs.Sorted :=
      Machine.Within.sorted (Work.foldl_within _ (fun w x => w.cross_within k x) _ _)
        (hnotify.only.segs (by decide) ▸ hs)
    have hchange := Work.filteredChange_eq (w := w) (k := k) h
    obtain ⟨y, hy⟩ : ∃ y, y = (crossingsOf old new).foldl (fun w x => w.cross k x)
        (w.notifyCrossings k (crossingsOf old new)) := ⟨_, rfl⟩
    rw [← hy] at hsorted hchange
    refine ⟨w.notifyCrossings k (crossingsOf old new), y, w.notifyCrossings_eq k _, fun m => ?_, hy, fun hup => ?_,
      fun hup => ?_⟩
    · rw [hnotify.posts]
      have hnames := funext fun x : Crossing => CrossSelect.names_iff (w.s.craneCfg k).crossing x.down
      rw [hnames]
      rfl
    · rw [hchange, if_neg hup]
    · rw [hchange, if_pos hup]
      have heffect := y.removeLocks_effect k Reasons.ofLink
      refine ⟨fun i => ?_, heffect.grown, heffect.calls, heffect.only.eq⟩
      obtain ⟨hhold, hoos, hmark⟩ := Work.left_hold k Reasons.ofLink (y.s.seg i)
      rw [Work.seg_removeLocks k Reasons.ofLink hsorted]
      refine ⟨?_, fun j hj => ?_, hhold, hoos, hmark⟩
      · rw [Work.reasonsOf_left, if_pos rfl, without_ofLink]
      · rw [Work.reasonsOf_left, if_neg hj]

end Sys2Proof.Machine
end

section
/-! The loss of a crane's link (R41, R44, R113). -/

namespace Sys2Proof.Machine

/-! ## Legs that freeze (R44) -/

theorem SegDyn.freeze_held {r : SegDyn} {q : Party} {x : HoldKind} (h : r.hold = .held q x) :
    r.freeze = { r with hold := .frozen q x } := by
  unfold SegDyn.freeze
  rw [h]

theorem SegDyn.freeze_only (r : SegDyn) : ∃ h, r.freeze = { r with hold := h } := by
  unfold SegDyn.freeze
  cases h : r.hold with
  | held q x => exact ⟨_, rfl⟩
  | free => exact ⟨r.hold, rfl⟩
  | frozen q x => exact ⟨r.hold, rfl⟩

theorem State.mem_craneGround {s : State} (hs : s.segs.Sorted) {k i : Nat} : i ∈ s.craneGround k ↔
    (s.seg i).hold = .held (.crane k) .leg ∨ (s.seg i).hold = .held (.crane k) .travel := by
  refine (State.mem_segsWhere hs rfl).trans ?_
  rw [Bool.or_eq_true, decide_eq_true_iff, decide_eq_true_iff]

theorem SegDyn.reasonsOf_addLink (k : Nat) (r : SegDyn) :
    (r.addLock k Reasons.ofLink).reasonsOf k = { r.reasonsOf k with link := true } := by
  rw [SegDyn.reasonsOf_addLock, if_pos rfl]
  simp [Reasons.join, Reasons.ofLink]

/-- A change of the lock and then of the hold share no field. -/
theorem SegDyn.Apart.of_lock_hold {a b c : SegDyn} (hb : ∃ l, b = { a with lock := l })
    (hc : ∃ h, c = { b with hold := h }) :
    SegDyn.Apart a b c := by
  obtain ⟨l, rfl⟩ := hb
  obtain ⟨h, rfl⟩ := hc
  exact ⟨.inl rfl, .inl rfl, .inr rfl, .inl rfl⟩

namespace Work

/-- A crane's legs freeze where it is lost while TRAVELLING (R44). -/
def frozenLegs (w : Work) (k : Nat) (travelling : Prop) [Decidable travelling] : Work :=
  if travelling then w.onSegs (w.s.craneGround k) SegDyn.freeze else w

section
variable (w : Work) (k : Nat) (travelling : Prop) [Decidable travelling]

theorem frozenLegs_effect : Effect [.segs] (fun _ => False) [] w (w.frozenLegs k travelling) := by
  unfold frozenLegs
  split
  · exact w.onSegs_effect _ freeze_idem
  · exact (Effect.refl w).said (by decide) (fun _ => Iff.rfl) rfl

theorem seg_frozenLegs (hs : w.s.segs.Sorted) (i : Nat) : (w.frozenLegs k travelling).s.seg i =
    if travelling ∧ ((w.s.seg i).hold = .held (.crane k) .leg ∨ (w.s.seg i).hold = .held (.crane k) .travel) then
      (w.s.seg i).freeze
    else w.s.seg i := by
  unfold frozenLegs
  by_cases h : travelling
  · rw [if_pos h, seg_onSegs _ _ _ freeze_idem]
    exact if_congr (by rw [State.mem_craneGround hs]; simp [h]) rfl rfl
  · rw [if_neg h, if_neg fun hi => h hi.1]

end

/-! ## The loss (R41, R113) -/

/-- The record of a crane whose link is lost, with the partial frame on it discarded. -/
def lostLink (s : State) (k : Nat) : Work :=
  ((Work.start s none).on (fun s => s.onCraneLink k (fun l => { l with rx := Receiver.hunting }))).onCrane k Crane.lost

/-- LINK joins the locks of its slots, and its legs freeze after travel. -/
def lostLocked (s : State) (k : Nat) (slots : List Nat) : Work :=
  ((lostLink s k).addLocks k Reasons.ofLink slots).frozenLegs k ((s.crane k).state = .travelling)

theorem loseCrane_eq {s : State} {k : Nat} {c : Crane} {slots : List Nat} (hc : c = s.crane k)
    (hslots : slots = (s.craneCfg k).slotLanes.map (fun lane => lane * s.grid.bays + c.bay.getD 0)) :
    (Work.start (s.onCraneLink k (fun l => { l with rx := Receiver.hunting })) none).loseCrane k =
      (lostLocked s k slots).post .craneLinkDown (.crane k) ([.byte c.state.code, .byte (c.bay.getD 0)] ++
        claimVals ((lostLocked s k slots).s.crane k).claim) := by
  subst hc hslots
  rfl

section
variable (s : State) (k : Nat) (slots : List Nat)

theorem lostLink_effect : Effect [.craneLinks, .cranes] (fun _ => False) [] (Work.start s none) (lostLink s k) := by
  have hlink := (Work.start s none).on_effect [.craneLinks]
    (f := fun s => s.onCraneLink k (fun l => { l with rx := Receiver.hunting })) (.of_eq rfl)
  exact (hlink.aside (onCrane_effect _ k Crane.lost)).said (by decide) (fun _ => by simp) rfl

theorem crane_lostLink (m : Nat) :
    (lostLink s k).s.crane m = if m = k then (s.crane k).lost else s.crane m := crane_onCrane _ _ _ _

theorem craneLink_lostLink (m : Nat) : (lostLink s k).s.craneLink m =
    if m = k then { s.craneLink k with rx := Receiver.hunting } else s.craneLink m :=
  (craneLink_of_only (onCrane_effect _ k Crane.lost).only (by decide) m).trans (State.craneLink_onCraneLink k m _)

theorem lostLocked_after (hs : s.segs.Sorted) : Effect [.segs, .carriers, .dispatch]
    (fun d => s.Moved (lostLocked s k slots).s d) (s.lockEntries Reasons.ofLink slots) (lostLink s k)
      (lostLocked s k slots) ∧ ∀ i, (lostLocked s k slots).s.seg i = { s.seg i with
        lock := if i ∈ slots then ((s.seg i).addLock k Reasons.ofLink).lock else (s.seg i).lock
        hold := if (s.crane k).state = .travelling ∧ (s.seg i).hold = .held (.crane k) .leg then .frozen (.crane k) .leg
          else if (s.crane k).state = .travelling ∧ (s.seg i).hold = .held (.crane k) .travel then
            .frozen (.crane k) .travel
          else (s.seg i).hold } := by
  have hlocks := addLocks_effect k Reasons.ofLink (lostLink s k) slots
  have hsegs := seg_addLocks k Reasons.ofLink (lostLink s k) slots
  have hsorted : ((lostLink s k).addLocks k Reasons.ofLink slots).s.segs.Sorted :=
    Machine.Within.sorted (foldl_within _ (fun w i => w.addLock_within k i _) slots (lostLink s k)) hs
  have hfreeze := frozenLegs_effect ((lostLink s k).addLocks k Reasons.ofLink slots) k ((s.crane k).state = .travelling)
  have hfrozen := seg_frozenLegs ((lostLink s k).addLocks k Reasons.ofLink slots) k ((s.crane k).state = .travelling)
    hsorted
  have hseg : ∀ i, ((lostLink s k).addLocks k Reasons.ofLink slots).s.seg i =
      if i ∈ slots then (s.seg i).addLock k Reasons.ofLink else s.seg i := hsegs
  refine ⟨(hlocks.trans hfreeze fun i => ?_).said (by decide) (fun d => ?_) ?_, fun i => ?_⟩
  · have hlock : (((lostLink s k).addLocks k Reasons.ofLink slots).s.seg i) =
        if i ∈ slots then (s.seg i).addLock k Reasons.ofLink else s.seg i := hseg i
    have hhold : ∃ h, (lostLocked s k slots).s.seg i =
        { ((lostLink s k).addLocks k Reasons.ofLink slots).s.seg i with hold := h } := by
      refine (hfrozen i).symm ▸ ?_
      split
      · exact SegDyn.freeze_only _
      · exact ⟨_, rfl⟩
    exact .of_lock_hold (by
      rw [hlock]
      split
      · exact ⟨_, rfl⟩
      · exact ⟨_, rfl⟩) hhold
  · rw [moved_addLocks, or_false]
    unfold State.Moved
    rw [show (lostLocked s k slots).s.carrier? d = _ from hfreeze.only.carrier? (by decide) d]
    rfl
  · exact List.append_nil _
  · refine (hfrozen i).trans ?_
    rw [hseg]
    have hlock : (if i ∈ slots then (s.seg i).addLock k Reasons.ofLink else s.seg i) = { s.seg i with
        lock := if i ∈ slots then ((s.seg i).addLock k Reasons.ofLink).lock else (s.seg i).lock } := by
      split <;> rfl
    rw [hlock]
    generalize (if i ∈ slots then ((s.seg i).addLock k Reasons.ofLink).lock else (s.seg i).lock) = l
    dsimp only
    by_cases ht : (s.crane k).state = .travelling
    · by_cases hleg : (s.seg i).hold = .held (.crane k) .leg
      · rw [if_pos ⟨ht, .inl hleg⟩, if_pos ⟨ht, hleg⟩]
        exact SegDyn.freeze_held hleg
      · by_cases htravel : (s.seg i).hold = .held (.crane k) .travel
        · rw [if_pos ⟨ht, .inr htravel⟩, if_neg fun h => hleg h.2, if_pos ⟨ht, htravel⟩]
          exact SegDyn.freeze_held htravel
        · rw [if_neg fun h => h.2.elim hleg htravel, if_neg fun h => hleg h.2, if_neg fun h => htravel h.2]
    · rw [if_neg fun h => ht h.1, if_neg fun h => ht h.1, if_neg fun h => ht h.1]

theorem carrier?_lostLocked (d : Nat) : (lostLocked s k slots).s.carrier? d = (s.carrier? d).map (fun r =>
    if r.state = .authorized ∧ slots.any (fun i => (s.seg i).heldBy (.carrier d)) = true then r.asked .hoistViolation
    else r) := by
  have hfreeze := frozenLegs_effect ((lostLink s k).addLocks k Reasons.ofLink slots) k ((s.crane k).state = .travelling)
  exact (hfreeze.only.carrier? (by decide) d).trans (carrier?_addLocks k Reasons.ofLink (lostLink s k) slots d)

/-- Neither the lock nor the freeze calls for re-examination. -/
theorem lostLocked_calm (hs : s.segs.Sorted) (i : Nat) :
    SegDyn.callsFor (s.seg i) ((lostLocked s k slots).s.seg i) = false := by
  rw [← Bool.not_eq_true, SegDyn.callsFor_iff, (lostLocked_after s k slots hs).2 i]
  have hlock : ¬ ((s.seg i).lock.rows ≠ [] ∧
      (if i ∈ slots then ((s.seg i).addLock k Reasons.ofLink).lock else (s.seg i).lock).rows = []) := by
    split
    · intro h
      have hcalm := addLock_calm k Reasons.ofLink (s.seg i)
      rw [← Bool.not_eq_true, SegDyn.callsFor_iff] at hcalm
      exact hcalm (.inr (.inr (.inl h)))
    · exact fun h => h.1 h.2
  rintro (⟨hne, hfree⟩ | ⟨h1, h2⟩ | h | ⟨h1, h2⟩)
  · dsimp only at hfree
    split at hfree
    · cases hfree
    · split at hfree
      · cases hfree
      · exact hne hfree
  · exact h1 h2
  · exact hlock h
  · exact h1 h2

end

end Work

end Sys2Proof.Machine
end

section
/-! The first report of a crane after the loss of its link (R42, R45, R114). -/

namespace Sys2Proof.Machine

/-! ## The halt take and the parts of the part that it does not read (R42) -/

/-- A halt take neither reads nor changes the records and the links of the cranes. -/
theorem State.HaltTaken.of_cranes {s t : State} {x : Table Crane} {y : Table CraneLink} {k : Nat} {cells : List Nat}
    (h : State.HaltTaken { s with cranes := x, craneLinks := y } t k cells) :
    State.HaltTaken s { t with cranes := s.cranes, craneLinks := s.craneLinks } k cells where
  rest := congrArg (fun r : State => { r with cranes := s.cranes, craneLinks := s.craneLinks }) h.rest
  segs := h.segs
  carriers := h.carriers
  waiting := h.waiting
  dispatch := h.dispatch

/-- A halt take reads the segments by their records. -/
theorem State.HaltTaken.of_segs {s r t : State} {k : Nat} {cells : List Nat} (h : State.HaltTaken s t k cells)
    (hr : r = { s with segs := r.segs }) (hseg : ∀ i, r.seg i = s.seg i) : State.HaltTaken r t k cells := by
  have hforeign : r.foreign k cells = s.foreign k cells := by
    unfold State.foreign
    simp only [hseg]
  have hcarrier : ∀ q, r.carrier? q = s.carrier? q := fun q => by rw [hr]; rfl
  have hentry : ∀ q, r.entry? q = s.entry? q := fun q => by rw [hr]; rfl
  have hnow : r.now = s.now := by rw [hr]
  refine ⟨h.rest.trans ?_, fun i => ?_, fun q => ?_, ?_, fun m => ?_⟩
  · rw [hr]
  · rw [h.segs, hforeign, hseg]
  · rw [h.carriers, hforeign, hcarrier]
    simp only [hseg]
  · rw [h.waiting, hforeign, show r.waiting = s.waiting by rw [hr]]
    simp only [hseg, State.carrierIs_congr (hcarrier _)]
  · rw [h.dispatch, hforeign, hnow, show r.dlink m = s.dlink m by rw [hr]; rfl]
    have hask : r.askEntries .gantryViolation none = s.askEntries .gantryViolation none := funext fun q =>
      State.askEntries_congr (hcarrier q) (hentry q) hnow _ _
    rw [hask]
    simp only [hseg]

/-- A record whose hold alone changes calls for re-examination where it goes (R21). -/
theorem SegDyn.callsFor_newHold (r : SegDyn) (h : Hold) :
    SegDyn.callsFor r { r with hold := h } = true ↔ r.hold ≠ .free ∧ h = .free := by
  rw [SegDyn.callsFor_iff]
  simp

theorem State.legConflict_isNone {s : State} {k : Nat} {cells : List Nat} :
    (s.legConflict k cells).isNone = true ↔ s.foreign k cells = [] := by
  unfold State.legConflict State.firstHeldAgainst State.foreign
  rw [Option.isNone_iff_eq_none, Option.map_eq_none_iff, List.find?_eq_none, List.filter_eq_nil_iff]

namespace Work

/-! ## The link of a crane up again (R99, R114) -/

/-- The link timer runs again, and CRANE_LINK_UP is posted. -/
def resumed (w : Work) (k b : Nat) (timeout : Nat) : Work :=
  (w.onCrane k (fun c => { c with before := none, timer := some timeout })).post .craneLinkUp (.crane k)
    [.byte b, .byte ((w.onCrane k (fun c => { c with before := none, timer := some timeout })).s.crane k).state.code]

section
variable (w : Work) (k b timeout : Nat)

theorem resumed_effect : Effect [.cranes, .dispatch] (fun _ => False)
    [⟨.craneLinkUp, w.s.now, .crane k, [.byte b, .byte (w.s.crane k).state.code]⟩] w (w.resumed k b timeout) := by
  have hcrane := onCrane_effect w k (fun c => { c with before := none, timer := some timeout })
  have hpost := post_effect (w.onCrane k (fun c => { c with before := none, timer := some timeout })) .craneLinkUp
    (.crane k)
    [.byte b, .byte ((w.onCrane k (fun c => { c with before := none, timer := some timeout })).s.crane k).state.code]
  rw [crane_onCrane, if_pos rfl, hcrane.only.now] at hpost
  rw [resumed, crane_onCrane, if_pos rfl]
  exact (hcrane.aside hpost).said (by decide) (fun _ => by simp) rfl

theorem crane_resumed (m : Nat) : (w.resumed k b timeout).s.crane m =
    if m = k then { w.s.crane k with before := none, timer := some timeout } else w.s.crane m := by
  rw [resumed, (post_effect _ _ _ _).only.crane (by decide), crane_onCrane]

end

/-! ## A crane lost while STANDING or HALTED (R114) -/

def inState (w : Work) (k : Nat) (state : CraneState) : Work := w.onCrane k (fun c => { c with state := state })

section
variable {w : Work} {k b : Nat} {m : Claim}

theorem inState_effect (w : Work) (k : Nat) (state : CraneState) :
    Effect [.cranes] (fun _ => False) [] w (w.inState k state) := onCrane_effect w k _

theorem crane_inState (w : Work) (k : Nat) (state : CraneState) (n : Nat) : (w.inState k state).s.crane n =
    if n = k then { w.s.crane k with state := state } else w.s.crane n := crane_onCrane _ _ _ _

theorem restoreStanding_some (h : (w.s.crane k).claim = some m) :
    w.restoreStanding k = (w.inState k .standing).lapsed k m .link := by
  have hclaim : ((w.inState k .standing).s.crane k).claim = some m := by rw [crane_inState, if_pos rfl]; exact h
  show (match ((w.inState k .standing).s.crane k).claim with
    | some claim => (w.inState k .standing).lapse k claim .link
    | none => w.inState k .standing) = _
  rw [hclaim]
  exact lapse_eq _ _ _ _

theorem restoreStanding_none (h : (w.s.crane k).claim = none) : w.restoreStanding k = w.inState k .standing := by
  have hclaim : ((w.inState k .standing).s.crane k).claim = none := by rw [crane_inState, if_pos rfl]; exact h
  show (match ((w.inState k .standing).s.crane k).claim with
    | some claim => (w.inState k .standing).lapse k claim .link
    | none => w.inState k .standing) = _
  rw [hclaim]

theorem restoreCrane_standing (h : (w.s.crane k).before ≠ some .travelling) (h' : (w.s.crane k).before ≠ some .halted) :
    w.restoreCrane k b = (w.restoreStanding k).resumed k b (w.s.craneCfg k).timeout := by
  unfold restoreCrane
  dsimp only
  cases hb : (w.s.crane k).before with
  | none => rfl
  | some st =>
    cases st with
    | travelling => exact absurd hb h
    | halted => exact absurd hb h'
    | offline => rfl
    | standing => rfl
    | linkLost => rfl

theorem restoreCrane_halted (h : (w.s.crane k).before = some .halted) :
    w.restoreCrane k b = (w.inState k .halted).resumed k b (w.s.craneCfg k).timeout := by
  unfold restoreCrane
  dsimp only
  rw [h]
  rfl

theorem restoreCrane_travel (h : (w.s.crane k).before = some .travelling) :
    w.restoreCrane k b = (w.restoreTravel k b).resumed k b (w.s.craneCfg k).timeout := by
  unfold restoreCrane
  dsimp only
  rw [h]
  rfl

end

/-! ## The cells of a returning crane (R45) -/

section
variable (k : Nat)

theorem returnLeg_idem (r : SegDyn) : (r.returnLeg k).returnLeg k = r.returnLeg k := by
  unfold SegDyn.returnLeg
  by_cases h : (r.isFree || r.ownedBy (.crane k)) = true
  · rw [if_pos h]
    split <;> rfl
  · rw [if_neg h, if_neg h]

variable (legs : List Nat)

theorem returnCells_eq (w : Work) : w.returnCells k legs =
    (w.release ((w.s.frozenBy (.crane k)).filter (fun i => !legs.contains i))).onSegs legs (SegDyn.returnLeg k) := rfl

theorem returnCells_effect (w : Work) : Effect [.segs] (fun _ => False) [] w (w.returnCells k legs) := by
  rw [returnCells_eq]
  refine ((w.release_effect _).trans (onSegs_effect _ legs (returnLeg_idem k)) fun i => ?_).said (by decide)
    (fun _ => by simp) rfl
  by_cases hi : i ∈ legs
  · refine .of_left ?_
    rw [seg_release, if_neg]
    rw [List.mem_filter]
    simp [hi]
  · exact .of_right ((seg_onSegs _ _ _ (returnLeg_idem k) i).trans (if_neg hi))

section
variable {w : Work} (hs : w.s.segs.Sorted)
include hs

theorem seg_returnCells (i : Nat) : (w.returnCells k legs).s.seg i = { w.s.seg i with
    hold := if i ∈ legs ∧ ((w.s.seg i).hold = .free ∨ (w.s.seg i).holder = some (.crane k)) then .held (.crane k) .leg
      else if (w.s.seg i).frozenBy (.crane k) = true then .free else (w.s.seg i).hold } := by
  have hfreed : i ∈ (w.s.frozenBy (.crane k)).filter (fun i => !legs.contains i) ↔
      i ∉ legs ∧ (w.s.seg i).frozenBy (.crane k) = true := by
    rw [List.mem_filter, State.mem_frozenBy hs, ← SegDyn.frozenBy_iff, and_comm]
    simp
  rw [returnCells_eq, seg_onSegs _ _ _ (returnLeg_idem k), seg_release]
  by_cases hi : i ∈ legs
  · rw [if_pos hi, if_neg (fun h => (hfreed.1 h).1 hi)]
    have howned : ((w.s.seg i).isFree || (w.s.seg i).ownedBy (.crane k)) = true ↔
        (w.s.seg i).hold = .free ∨ (w.s.seg i).holder = some (.crane k) := by
      rw [Bool.or_eq_true, SegDyn.isFree_iff, SegDyn.ownedBy_iff]
    unfold SegDyn.returnLeg
    by_cases ho : (w.s.seg i).hold = .free ∨ (w.s.seg i).holder = some (.crane k)
    · rw [if_pos (howned.2 ho), if_pos ⟨hi, ho⟩]
      rfl
    · have hfrozen : ¬ (w.s.seg i).frozenBy (.crane k) = true := fun h => by
        obtain ⟨x, hx⟩ := (SegDyn.frozenBy_iff _ _).1 h
        refine ho (.inr ?_)
        unfold SegDyn.holder
        rw [hx]
      rw [if_neg (mt howned.1 ho), if_neg fun h => ho h.2, if_neg hfrozen]
  · have hgiven : ¬ (i ∈ legs ∧ ((w.s.seg i).hold = .free ∨ (w.s.seg i).holder = some (.crane k))) := fun h => hi h.1
    rw [if_neg hi, if_neg hgiven]
    by_cases hf : (w.s.seg i).frozenBy (.crane k) = true
    · rw [if_pos (hfreed.2 ⟨hi, hf⟩), if_pos hf]
    · rw [if_neg (fun h => hf (hfreed.1 h).2), if_neg hf]

theorem callsFor_returnCells (i : Nat) : SegDyn.callsFor (w.s.seg i) ((w.returnCells k legs).s.seg i) = true ↔
    i ∉ legs ∧ (w.s.seg i).frozenBy (.crane k) = true := by
  rw [seg_returnCells k legs hs, SegDyn.callsFor_newHold]
  by_cases hf : (w.s.seg i).frozenBy (.crane k) = true
  · obtain ⟨x, hx⟩ := (SegDyn.frozenBy_iff _ _).1 hf
    have hholder : (w.s.seg i).holder = some (.crane k) := by
      unfold SegDyn.holder
      rw [hx]
    by_cases hi : i ∈ legs
    · simp [hi, hholder]
    · simp [hi, hf, hx]
  · by_cases hg : i ∈ legs ∧ ((w.s.seg i).hold = .free ∨ (w.s.seg i).holder = some (.crane k))
    · simp [hg, hf]
    · rw [if_neg hg, if_neg hf]
      exact iff_of_false (fun h => h.1 h.2) fun h => hf h.2

end

end

/-! ## A crane lost while TRAVELLING (R45, R114) -/

/-- The crane with its legs at the bay (R45, R114). -/
def returned (w : Work) (k b : Nat) : Work :=
  (w.returnCells k (w.s.legsAt k b)).onCrane k (fun c => { c with bay := some b, target := none })

section
variable {w : Work} {k b : Nat}

theorem restoreTravel_eq (w : Work) (k b : Nat) : w.restoreTravel k b =
    if ((w.returned k b).s.legConflict k (w.s.legsAt k b)).isNone then (w.returned k b).inState k .standing
    else (((w.returned k b).inState k .halted).haltTake k (w.s.legsAt k b)).on (fun s => s.gantryStop k) := rfl

theorem returned_effect (w : Work) (k b : Nat) :
    Effect [.segs, .cranes] (fun _ => False) [] w (w.returned k b) :=
  ((returnCells_effect k (w.s.legsAt k b) w).aside (onCrane_effect _ k _)).said (by decide) (fun _ => by simp) rfl

theorem crane_returned (w : Work) (k b m : Nat) : (w.returned k b).s.crane m =
    if m = k then { w.s.crane k with bay := some b, target := none } else w.s.crane m := by
  have hcells := (returnCells_effect k (w.s.legsAt k b) w).only
  rw [returned, crane_onCrane, hcells.crane (by decide), hcells.crane (by decide)]

theorem seg_returned (hs : w.s.segs.Sorted) (i : Nat) : (w.returned k b).s.seg i = { w.s.seg i with
    hold := if i ∈ w.s.legsAt k b ∧ ((w.s.seg i).hold = .free ∨ (w.s.seg i).holder = some (.crane k)) then
        .held (.crane k) .leg
      else if (w.s.seg i).frozenBy (.crane k) = true then .free else (w.s.seg i).hold } :=
  ((onCrane_effect _ k _).only.seg (by decide) i).trans (seg_returnCells k (w.s.legsAt k b) hs i)

theorem returned_reexam (hs : w.s.segs.Sorted) : (w.returned k b).reexam = true ↔ w.reexam = true ∨
    ∃ i, i ∉ w.s.legsAt k b ∧ (w.s.seg i).frozenBy (.crane k) = true := by
  rw [(w.returned_effect k b).reexam_iff]
  refine or_congr_right (exists_congr fun i => ?_)
  have hcells := (onCrane_effect (w.returnCells k (w.s.legsAt k b)) k
    (fun c => { c with bay := some b, target := none })).only.seg (by decide) i
  rw [returned, hcells]
  exact callsFor_returnCells k (w.s.legsAt k b) hs i

end

end Work

end Sys2Proof.Machine
end

section
/-! A crane that returns after it was lost while TRAVELLING (R42, R45, R114), and what its return makes of the part. -/

namespace Sys2Proof.Machine

theorem State.moved_congr {s t s' t' : State} {d : Nat} (hs : s'.carrier? d = s.carrier? d)
    (ht : t'.carrier? d = t.carrier? d) : s'.Moved t' d ↔ s.Moved t d := by
  unfold State.Moved
  rw [hs, ht]

namespace Work

/-- A change that leaves the carriers moves none. -/
theorem Effect.grown_moved {F : List Field} {es : List Notif} {w v : Work} (h : Effect F (fun _ => False) es w v)
    (hF : Field.carriers ∉ F) : w.Grown v (w.s.Moved v.s) := by
  refine ⟨h.grown.before, h.grown.touched, fun d => (h.grown.runs d).trans (or_congr_right ?_), h.grown.bumped,
    h.grown.settled, h.grown.report⟩
  rw [State.moved_congr (s := w.s) (t := w.s) rfl (h.only.carrier? hF d)]
  refine iff_of_false id ?_
  rintro ⟨r, x, hr, hx, hne⟩
  rw [hr] at hx
  exact hne (Option.some.inj hx ▸ rfl)

/-! ## GANTRY_STOP (R108) -/

section
variable (w : Work) (k : Nat)

def gantryStopped (w : Work) (k : Nat) : Work := w.on (fun s => s.gantryStop k)

theorem gantryStopped_effect : Effect [.craneLinks] (fun _ => False) [] w (w.gantryStopped k) :=
  w.craneSend_effect k (.gantryStop (w.s.crane k).lastSeq)

theorem craneLink_gantryStopped (m : Nat) : (w.gantryStopped k).s.craneLink m =
    if m = k then ((w.s.craneLink k).join (.gantryStop (w.s.crane k).lastSeq)).transmit else w.s.craneLink m :=
  w.craneLink_craneSend k m (.gantryStop (w.s.crane k).lastSeq)

end

theorem inState_calm (w : Work) (k : Nat) (state : CraneState) : (w.inState k state).reexam = w.reexam := rfl

theorem gantryStopped_calm (w : Work) (k : Nat) : (w.gantryStopped k).reexam = w.reexam := rfl

theorem resumed_calm (w : Work) (k b timeout : Nat) : (w.resumed k b timeout).reexam = w.reexam := rfl

/-! ## The halt of a returning crane (R42, R114) -/

theorem haltTake_marks {k : Nat} {r : SegDyn} (h : r.hold ≠ .free) : ∃ x, r.haltTake k = { r with intruder := x } := by
  by_cases hheld : r.heldBy (.crane k) = true
  · rw [haltTake_own hheld]
    exact ⟨r.intruder, rfl⟩
  · rw [haltTake_foreign (Bool.eq_false_iff.2 (mt (SegDyn.isFree_iff r).1 h)) (Bool.eq_false_iff.2 hheld)]
    split
    · exact ⟨_, rfl⟩
    · exact ⟨r.intruder, rfl⟩

/-- A returning crane that finds another party in a leg cell is HALTED with a halt take. -/
def returnedHalted (w : Work) (k b : Nat) : Work :=
  ((w.returned k b).inState k .halted).haltTake k (w.s.legsAt k b)

section
variable (w : Work) (k b : Nat)

theorem returnedState_effect (state : CraneState) :
    Effect [.segs, .cranes] (fun _ => False) [] w ((w.returned k b).inState k state) :=
  ((w.returned_effect k b).aside (inState_effect _ k state)).said (by decide) (fun _ => by simp) rfl

theorem crane_returnedState (state : CraneState) (m : Nat) : ((w.returned k b).inState k state).s.crane m =
    if m = k then { w.s.crane k with bay := some b, target := none, state := state } else w.s.crane m := by
  rw [crane_inState, crane_returned, crane_returned, if_pos rfl]
  split
  · rfl
  · rfl

theorem returnedState_calm (state : CraneState) :
    ((w.returned k b).inState k state).reexam = (w.returned k b).reexam := inState_calm _ k state

theorem crane_returnedHalted (m : Nat) : (w.returnedHalted k b).s.crane m =
    if m = k then { w.s.crane k with bay := some b, target := none, state := .halted } else w.s.crane m := by
  have hrecord := w.crane_returnedState k b .halted m
  unfold returnedHalted
  generalize (w.returned k b).inState k .halted = x at hrecord ⊢
  rw [(x.haltTake_effect k _).only.crane (by decide), hrecord]

theorem seg_returnedState (state : CraneState) (i : Nat) :
    ((w.returned k b).inState k state).s.seg i = (w.returned k b).s.seg i :=
  (inState_effect (w.returned k b) k state).only.seg (by decide) i

variable {w k b} (hs : w.s.segs.Sorted)
include hs

/-- No leg cell is free once the crane's legs stand. -/
theorem returned_stands {i : Nat} (hi : i ∈ w.s.legsAt k b) : ((w.returned k b).s.seg i).hold ≠ .free := by
  intro hhold
  rw [seg_returned hs] at hhold
  dsimp only at hhold
  split at hhold
  · cases hhold
  · next hno =>
    split at hhold
    · next hf =>
      obtain ⟨x, hx⟩ := (SegDyn.frozenBy_iff _ _).1 hf
      refine hno ⟨hi, .inr ?_⟩
      unfold SegDyn.holder
      rw [hx]
    · exact hno ⟨hi, .inl hhold⟩

/-- So the halt take of a returning crane only marks. -/
theorem returnedHalted_apart (i : Nat) : SegDyn.Apart (w.s.seg i)
    (((w.returned k b).inState k .halted).s.seg i) ((w.returnedHalted k b).s.seg i) := by
  have hreturned := seg_returned (w := w) (k := k) (b := b) hs i
  have hstands : i ∈ w.s.legsAt k b → ((w.returned k b).s.seg i).hold ≠ .free := fun hi => returned_stands hs hi
  rw [returnedHalted, seg_haltTake, seg_returnedState]
  generalize (w.returned k b).s.seg i = r at hreturned hstands ⊢
  refine .of_hold_intruder ⟨_, hreturned⟩ ?_
  split
  · next hi => exact haltTake_marks (hstands hi)
  · exact ⟨r.intruder, rfl⟩

theorem returnedHalted_effect : Effect [.segs, .waiting, .carriers, .cranes, .dispatch]
    (fun d => w.s.Moved (w.returnedHalted k b).s d)
    (haltEntries ((w.returned k b).inState k .halted).s k (w.s.legsAt k b)) w (w.returnedHalted k b) := by
  have hreturn := w.returnedState_effect k b .halted
  have hhalt := haltTake_effect ((w.returned k b).inState k .halted) k (w.s.legsAt k b)
  have hapart := returnedHalted_apart (w := w) (k := k) (b := b) hs
  rw [returnedHalted] at hapart ⊢
  generalize (w.returned k b).inState k .halted = x at hreturn hhalt hapart ⊢
  refine (hreturn.trans hhalt hapart).said (by decide) (fun d => ?_) (List.nil_append _)
  rw [false_or]
  exact State.moved_congr (hreturn.only.carrier? (by decide) d) rfl

omit hs in
theorem returnedHalted_reexam : (w.returnedHalted k b).reexam = (w.returned k b).reexam := by
  rw [returnedHalted, haltTake_reexam, returnedState_calm]

end

end Work

/-- The halt take of a returning crane, as one of the part with the crane's cells returned (R42, R114). -/
theorem returnedHalted_taken {w : Work} {k b : Nat} {r : State} (hr : r = { w.s with segs := r.segs })
    (hseg : ∀ i, r.seg i = (w.returned k b).s.seg i) : r.HaltTaken { (w.returnedHalted k b).s with
      cranes := w.s.cranes, craneLinks := w.s.craneLinks } k (w.s.legsAt k b) := by
  have htaken := Work.haltTake_taken ((w.returned k b).inState k .halted) k (w.s.legsAt k b)
  have hrest := (w.returnedState_effect k b .halted).only.eq
  have hsegs := w.seg_returnedState k b .halted
  rw [← Work.returnedHalted] at htaken
  generalize (w.returnedHalted k b).s = t at htaken ⊢
  generalize ((w.returned k b).inState k .halted).s = s at htaken hrest hsegs
  have hcells : State.HaltTaken { w.s with segs := s.segs }
      { t with cranes := w.s.cranes, craneLinks := w.s.craneLinks } k (w.s.legsAt k b) := by
    refine State.HaltTaken.of_cranes (x := s.cranes) (y := w.s.craneLinks) ?_
    rw [hrest] at htaken
    exact htaken
  exact hcells.of_segs hr fun i => (hseg i).trans (hsegs i).symm

end Sys2Proof.Machine
end

section
/-! A crane's LINK_LOST, its return, and the crane transmitter (R41, R42, R44, R45, R108, R113, R114). -/

namespace Sys2Proof.Machine

/-! ## The crane transmitter (R108) -/

theorem CraneLink.transmit_idle {l : CraneLink} (h : l.queue = []) : l.transmit = l := by
  unfold CraneLink.transmit
  rw [h]
  cases l.sending <;> rfl

theorem CraneLink.transmit_head {l : CraneLink} {f : CraneFrame} {rest : List CraneFrame} (hs : l.sending = none)
    (hq : l.queue = f :: rest) : l.transmit = { l with sending := some f, queue := rest } := by
  unfold CraneLink.transmit
  rw [hs, hq]

theorem CraneState.supervised_iff (st : CraneState) :
    st.supervised = true ↔ st = .standing ∨ st = .travelling ∨ st = .halted := by
  cases st <;> decide

/-! ## The loss of a crane's link (R41, R44, R113) -/

theorem craneLinkDown_lost {s : State} {k : Fin 8} {c : Crane} {slots : List Nat} (hc : c = s.crane k)
    (hstate : c.state = .standing ∨ c.state = .travelling ∨ c.state = .halted) (htimer : c.timer = some 0)
    (hslots : slots = (s.craneCfg k).slotLanes.map (fun lane => lane * s.grid.bays + c.bay.getD 0)) :
    exec (.craneLinkDown k) s = .next (((Work.lostLocked s k slots).post .craneLinkDown (.crane k)
      ([.byte c.state.code, .byte (c.bay.getD 0)] ++
        claimVals ((Work.lostLocked s k slots).s.crane k).claim)).finish).pump := by
  show Host.Outcome.next (s.expireCrane k).pump = _
  unfold State.expireCrane
  subst hc
  rw [if_pos (by rw [(CraneState.supervised_iff _).2 hstate, htimer]; rfl)]
  show Host.Outcome.next (State.pump (Work.finish ((Work.start (s.onCraneLink k
    (fun l => { l with rx := Receiver.hunting })) none).loseCrane k))) = _
  rw [Work.loseCrane_eq rfl hslots]

theorem craneLinkDown_none {s : State} {k : Fin 8} (h : (s.crane k).state = .offline ∨ (s.crane k).state = .linkLost) :
    exec (.craneLinkDown k) s = .next s.pump := by
  show Host.Outcome.next (s.expireCrane k).pump = _
  unfold State.expireCrane
  rw [if_neg]
  rcases h with h | h <;> rw [h] <;> exact Bool.false_ne_true

/-! ## The return of a crane lost while STANDING (R114) -/

namespace Work

section
variable {w : Work} {k : Nat}

theorem claimCell_inState (w : Work) (k : Nat) (state : CraneState) (m : Claim) :
    (w.inState k state).s.claimCell k m = w.s.claimCell k m := by
  unfold State.claimCell
  rw [crane_inState, if_pos rfl]
  rfl

theorem restoreStanding_effect (w : Work) (k : Nat) : Effect [.segs, .cranes, .craneLinks, .dispatch] (fun _ => False)
    ((w.s.crane k).claim.toList.map (fun x =>
      ⟨.claimLapsed, w.s.now, .crane k, [.byte x.slot, .half (w.s.claimCell k x), .byte 3]⟩)) w
    (w.restoreStanding k) := by
  have hstate := w.inState_effect k .standing
  cases hclaim : (w.s.crane k).claim with
  | none =>
    rw [restoreStanding_none hclaim]
    exact hstate.said (by decide) (fun _ => Iff.rfl) rfl
  | some m =>
    have hlapsed := lapsed_effect (w.inState k .standing) k m .link
    rw [claimCell_inState, hstate.only.now] at hlapsed
    rw [restoreStanding_some hclaim]
    exact (hstate.first hlapsed).said (by decide) (fun _ => by simp) rfl

theorem crane_restoreStanding (w : Work) (k n : Nat) : (w.restoreStanding k).s.crane n =
    if n = k then { w.s.crane k with state := .standing, claim := none } else w.s.crane n := by
  cases hclaim : (w.s.crane k).claim with
  | none =>
    rw [restoreStanding_none hclaim, crane_inState]
    split
    · exact congrArg (fun m => { w.s.crane k with state := .standing, claim := m }) hclaim
    · rfl
  | some m =>
    rw [restoreStanding_some hclaim, crane_lapsed, crane_inState, crane_inState, if_pos rfl]
    split <;> rfl

theorem craneLink_restoreStanding (w : Work) {k n : Nat} (hn : n ≠ k) :
    (w.restoreStanding k).s.craneLink n = w.s.craneLink n := by
  have hstate := (w.inState_effect k .standing).only
  cases hclaim : (w.s.crane k).claim with
  | none => rw [restoreStanding_none hclaim, craneLink_of_only hstate (by decide)]
  | some m => rw [restoreStanding_some hclaim, craneLink_lapsed, if_neg hn, craneLink_of_only hstate (by decide)]

/-- The claim of a crane that returns ends (R114). -/
theorem restoreStanding_claim {m : Claim} (h : (w.s.crane k).claim = some m) :
    (∀ j, (w.restoreStanding k).s.seg j = if j = w.s.claimCell k m then (w.s.seg j).removeLock k Reasons.ofClaim
      else w.s.seg j) ∧ (w.restoreStanding k).s.craneLink k =
        ((w.s.craneLink k).join (.lowerRevoked (w.s.crane k).lastSeq m.slot)).transmit := by
  have hstate := (w.inState_effect k .standing).only
  rw [restoreStanding_some h]
  refine ⟨fun j => ?_, ?_⟩
  · rw [seg_lapsed, claimCell_inState, hstate.seg (by decide)]
  · rw [craneLink_lapsed, if_pos rfl, craneLink_of_only hstate (by decide), crane_inState, if_pos rfl]

end

end Work

/-- Settles O47. -/
theorem craneLinkDownAndTransmission : Obligations.CraneLinkDownAndTransmission := by
  unfold Obligations.CraneLinkDownAndTransmission
  refine ⟨fun s k c hc hs => ⟨fun slots hstate htimer hslots => ?_, fun h => craneLinkDown_none (hc ▸ h), ?_⟩,
    fun w v k b c back legs hc hs hv hlegs hback => ?_⟩
  · refine ⟨_, craneLinkDown_lost hc hstate htimer hslots, ?_⟩
    obtain ⟨hlocked, hseg⟩ := Work.lostLocked_after s k slots hs
    have hlink := Work.lostLink_effect s k
    have hcrane : ∀ j, (Work.lostLocked s k slots).s.crane j = if j = k.val then (s.crane k).lost else s.crane j :=
      fun j => (hlocked.only.crane (by decide) j).trans (Work.crane_lostLink s k j)
    have hclaim : ((Work.lostLocked s k slots).s.crane k).claim = c.claim.map (fun m => { m with void := true }) := by
      rw [hcrane, if_pos rfl, hc]
      rfl
    rw [hclaim]
    obtain ⟨detail, hdetail⟩ : ∃ l, l = [Val.byte c.state.code, .byte (c.bay.getD 0)] ++
      claimVals (c.claim.map (fun m => { m with void := true })) := ⟨_, rfl⟩
    rw [← hdetail]
    have hpost := Work.post_effect (Work.lostLocked s k slots) .craneLinkDown (.crane k) detail
    rw [hlocked.only.now, hlink.only.now] at hpost
    have hall := ((hlink.first hlocked).aside hpost).said (G := [.segs, .carriers, .cranes, .craneLinks, .dispatch])
      (m := fun d => s.Moved ((Work.lostLocked s k slots).post .craneLinkDown (.crane k) detail).s d) (by decide)
      (fun d => by
        rw [false_or, or_false]
        exact State.moved_congr rfl (hpost.only.carrier? (by decide) d).symm) rfl
    have hkept : ∀ i, ((Work.lostLocked s k slots).post .craneLinkDown (.crane k) detail).s.seg i =
        (Work.lostLocked s k slots).s.seg i := hpost.only.seg (by decide)
    have hreasons : ∀ i m, ((Work.lostLocked s k slots).s.seg i).reasonsOf m =
        (if i ∈ slots then (s.seg i).addLock k Reasons.ofLink else s.seg i).reasonsOf m := fun i m => by
      rw [hseg]
      refine congrArg (fun l : Table Reasons => l.get m Reasons.none_) ?_
      show (if i ∈ slots then ((s.seg i).addLock k Reasons.ofLink).lock else (s.seg i).lock) = _
      split <;> rfl
    generalize (Work.lostLocked s k slots).post .craneLinkDown (.crane k) detail = w at hpost hall hkept ⊢
    refine ⟨hall.grown, hall.reexam_eq fun i => ?_, ?_, fun j hj => ?_, ?_, fun j hj => ?_,
      fun i => ⟨?_, fun j hj => ?_, ?_, ?_, ?_⟩, fun q => ?_, fun m => ?_, hall.only.eq⟩
    · rw [hkept]
      exact Work.lostLocked_calm s k slots hs i
    · rw [hpost.only.crane (by decide), hcrane, if_pos rfl, hc]
      rfl
    · rw [hpost.only.crane (by decide), hcrane, if_neg hj]
    · rw [Work.craneLink_of_only hpost.only (by decide), Work.craneLink_of_only hlocked.only (by decide),
        Work.craneLink_lostLink, if_pos rfl]
    · rw [Work.craneLink_of_only hpost.only (by decide), Work.craneLink_of_only hlocked.only (by decide),
        Work.craneLink_lostLink, if_neg hj]
    · rw [hkept, hreasons]
      split
      · exact SegDyn.reasonsOf_addLink k _
      · rfl
    · rw [hkept, hreasons]
      split
      · rw [SegDyn.reasonsOf_addLock, if_neg hj]
      · rfl
    · rw [hkept, hseg]
    · rw [hkept, hseg]
    · rw [hkept, hseg, hc]
    · rw [hpost.only.carrier? (by decide), Work.carrier?_lostLocked]
    · rw [hall.posts, hdetail]
      cases c.claim <;> rfl
  · have honly : State.Only [.craneLinks] s
        (s.onCraneLink k (fun l => CraneLink.transmit { l with sending := none })) := .of_eq rfl
    refine ⟨_, rfl, fun f rest hq => ?_, fun hq => ?_, fun j hj => ?_, honly.eq⟩
    · rw [State.craneLink_onCraneLink, if_pos rfl]
      exact CraneLink.transmit_head rfl hq
    · rw [State.craneLink_onCraneLink, if_pos rfl]
      exact CraneLink.transmit_idle hq
    · rw [State.craneLink_onCraneLink, if_neg hj]
  · subst hc hv hlegs
    by_cases htravel : (w.s.crane k).before = some .travelling
    · have hseg := fun i => Work.seg_returned (w := w) (k := k) (b := b) hs i
      have hreexam := Work.returned_reexam (w := w) (k := k) (b := b) hs
      have hforeign : ∀ r : State, (∀ i, r.seg i = (w.returned k b).s.seg i) →
          ((w.returned k b).s.legConflict k (w.s.legsAt k b)).isNone = decide (r.foreign k (w.s.legsAt k b) = []) :=
        fun r hr => by
          rw [Bool.eq_iff_iff, State.legConflict_isNone, decide_eq_true_iff]
          unfold State.foreign
          simp only [hr]
      rw [Work.restoreCrane_travel htravel, Work.restoreTravel_eq]
      cases hfree : ((w.returned k b).s.legConflict k (w.s.legsAt k b)).isNone with
      | true =>
        rw [if_pos rfl]
        have hstate := w.returnedState_effect k b .standing
        have hrecord := w.crane_returnedState k b .standing
        have hcells := w.seg_returnedState k b .standing
        have hcalm := w.returnedState_calm k b .standing
        generalize (w.returned k b).inState k .standing = x at hstate hrecord hcells hcalm ⊢
        have hresumed := x.resumed_effect k b (w.s.craneCfg k).timeout
        have hcrane := x.crane_resumed k b (w.s.craneCfg k).timeout
        have hquiet := x.resumed_calm k b (w.s.craneCfg k).timeout
        rw [hstate.only.now, hrecord, if_pos rfl] at hresumed
        generalize x.resumed k b (w.s.craneCfg k).timeout = v at hresumed hcrane hquiet ⊢
        have hall := (hstate.aside hresumed).said (G := [.segs, .cranes, .dispatch]) (m := fun _ => False) (by decide)
          (fun _ => by simp) rfl
        refine ⟨fun j hj => ⟨?_, ?_⟩, hall.grown_moved (by decide), fun h => absurd htravel h,
          fun h => ?_, fun h => ?_, fun _ r hr hrest => ?_⟩
        · rw [hcrane, if_neg hj, hrecord, if_neg hj]
        · exact Work.craneLink_of_only hall.only (by decide) j
        · rw [htravel] at h
          cases h
        · rw [htravel] at h
          cases h
        · have hsame : ∀ i, r.seg i = (w.returned k b).s.seg i := fun i => (hr i).trans (hseg i).symm
          rw [hforeign r hsame, decide_eq_true_iff] at hfree
          refine ⟨?_, fun _ => ⟨?_, fun i => ?_, hall.posts, hall.only.eq⟩, fun h => absurd hfree h⟩
          · rw [hquiet, hcalm, hreexam]
          · rw [hcrane, if_pos rfl, hrecord, if_pos rfl, hback]
          · rw [hresumed.only.seg (by decide), hcells, hsame]
      | false =>
        rw [if_neg Bool.false_ne_true]
        have hstate := Work.returnedHalted_effect (w := w) (k := k) (b := b) hs
        have hrecord := w.crane_returnedHalted k b
        have hcalm := Work.returnedHalted_reexam (w := w) (k := k) (b := b)
        have htaken := fun r hr hseg => returnedHalted_taken (w := w) (k := k) (b := b) (r := r) hr hseg
        rw [← Work.returnedHalted]
        generalize w.returnedHalted k b = y at hstate hrecord hcalm htaken ⊢
        rw [← Work.gantryStopped]
        have hstop := y.gantryStopped_effect k
        have hlink := y.craneLink_gantryStopped k
        have hstill := y.gantryStopped_calm k
        rw [hrecord, if_pos rfl, Work.craneLink_of_only hstate.only (by decide)] at hlink
        generalize y.gantryStopped k = x at hstop hlink hstill ⊢
        have hresumed := x.resumed_effect k b (w.s.craneCfg k).timeout
        have hcrane := x.crane_resumed k b (w.s.craneCfg k).timeout
        have hquiet := x.resumed_calm k b (w.s.craneCfg k).timeout
        have hx : ∀ j, x.s.crane j = y.s.crane j := hstop.only.crane (by decide)
        rw [hstop.only.now, hstate.only.now, hx, hrecord, if_pos rfl] at hresumed
        generalize x.resumed k b (w.s.craneCfg k).timeout = v at hresumed hcrane hquiet ⊢
        have hafter := (hstop.only.trans hresumed.only).mono (G := [.cranes, .craneLinks, .dispatch]) (by decide)
        have hcarriers : ∀ d, v.s.carrier? d = y.s.carrier? d := hafter.carrier? (by decide)
        have hall := ((hstate.aside hstop).aside hresumed).said
          (G := [.segs, .waiting, .carriers, .cranes, .craneLinks, .dispatch]) (m := fun d => w.s.Moved v.s d)
          (by decide) (fun d => by
            rw [or_false, or_false]
            exact State.moved_congr rfl (hcarriers d).symm) rfl
        refine ⟨fun j hj => ⟨?_, ?_⟩, hall.grown, fun h => absurd htravel h, fun h => ?_, fun h => ?_,
          fun _ r hr hrest => ?_⟩
        · rw [hcrane, if_neg hj, hx, hrecord, if_neg hj]
        · rw [Work.craneLink_of_only hresumed.only (by decide), hlink, if_neg hj,
            Work.craneLink_of_only hstate.only (by decide)]
        · rw [htravel] at h
          cases h
        · rw [htravel] at h
          cases h
        · have hsame : ∀ i, r.seg i = (w.returned k b).s.seg i := fun i => (hr i).trans (hseg i).symm
          rw [hforeign r hsame, decide_eq_false_iff_not] at hfree
          refine ⟨?_, fun h => absurd h hfree, fun _ => ⟨_, htaken r hrest hsame, ?_, fun i => ?_, ?_, fun m => ?_, ?_⟩⟩
          · rw [hquiet, hstill, hcalm, hreexam]
          · rw [hcrane, if_pos rfl, hx, hrecord, if_pos rfl, hback]
          · exact hafter.seg (by decide) i
          · rw [Work.craneLink_of_only hresumed.only (by decide), hlink, if_pos rfl]
          · rw [hresumed.posts, hstop.only.dlink (by decide), hstop.only.now, hstate.only.now]
            rfl
          · exact (hafter.mono (G := [.segs, .cranes, .craneLinks, .dispatch]) (by decide)).eq
    · by_cases hhalted : (w.s.crane k).before = some .halted
      · have hstate := w.inState_effect k .halted
        have hresumed := Work.resumed_effect (w.inState k .halted) k b (w.s.craneCfg k).timeout
        have hcrane := Work.crane_resumed (w.inState k .halted) k b (w.s.craneCfg k).timeout
        rw [Work.restoreCrane_halted hhalted]
        rw [hstate.only.now, Work.crane_inState, if_pos rfl] at hresumed
        generalize (w.inState k .halted).resumed k b (w.s.craneCfg k).timeout = v at hresumed hcrane ⊢
        have hall := (hstate.aside hresumed).said (G := [.cranes, .dispatch]) (m := fun _ => False) (by decide)
          (fun _ => by simp) rfl
        refine ⟨fun j hj => ⟨?_, ?_⟩, hall.grown_moved (by decide), fun _ => hall.calls, fun h => ?_,
          fun _ => ⟨?_, hall.posts, hall.only.eq⟩, fun h => absurd h htravel⟩
        · rw [hcrane, if_neg hj, Work.crane_inState, if_neg hj]
        · exact Work.craneLink_of_only hall.only (by decide) j
        · rw [hhalted] at h
          cases h
        · rw [hcrane, if_pos rfl, Work.crane_inState, if_pos rfl, hback]
      · have hstate := w.restoreStanding_effect k
        have hrecord := w.crane_restoreStanding k
        have hclaim := fun m => Work.restoreStanding_claim (w := w) (k := k) (m := m)
        have hnone := Work.restoreStanding_none (w := w) (k := k)
        have hlink := fun n (hn : n ≠ k) => w.craneLink_restoreStanding hn
        rw [Work.restoreCrane_standing htravel hhalted]
        obtain ⟨x, hx⟩ : ∃ x, x = w.restoreStanding k := ⟨_, rfl⟩
        rw [← hx] at hstate hrecord hlink hnone ⊢
        simp only [← hx] at hclaim
        have hresumed := x.resumed_effect k b (w.s.craneCfg k).timeout
        have hcrane := x.crane_resumed k b (w.s.craneCfg k).timeout
        rw [hstate.only.now, hrecord, if_pos rfl] at hresumed
        generalize x.resumed k b (w.s.craneCfg k).timeout = v at hresumed hcrane ⊢
        have hall := (hstate.aside hresumed).said (G := [.segs, .cranes, .craneLinks, .dispatch])
          (m := fun _ => False) (by decide) (fun _ => by simp) rfl
        refine ⟨fun j hj => ⟨?_, ?_⟩, hall.grown_moved (by decide), fun _ => hall.calls,
          fun _ => ⟨?_, fun hm => ?_, fun m i hm hi => ?_, hall.posts⟩, fun h => absurd h hhalted,
          fun h => absurd h htravel⟩
        · rw [hcrane, if_neg hj, hrecord, if_neg hj]
        · rw [Work.craneLink_of_only hresumed.only (by decide), hlink j hj]
        · rw [hcrane, if_pos rfl, hrecord, if_pos rfl, hback]
        · rw [hnone hm] at hresumed
          exact (((w.inState_effect k .standing).only.trans hresumed.only).mono (G := [.cranes, .dispatch])
            (by decide)).eq
        · obtain ⟨hseg, hrevoked⟩ := hclaim m hm
          have hlocks := claim_leaves (u := w.s) (t := v.s) (k := k) (i := i) fun j => by
            rw [hresumed.only.seg (by decide), hseg, hi]
          obtain ⟨hown, hothers, hcells, hhold, hoos, hmark⟩ := hlocks
          refine ⟨hown, hothers, hhold, hoos, hmark, hcells, ?_, hall.only.eq⟩
          rw [Work.craneLink_of_only hresumed.only (by decide), hrevoked]

end Sys2Proof.Machine
end

section
/-! Crane frames: what an arrival counts, and how a CRANE_REPORT is taken by its bay and the state of its crane (R98,
R99, R108, R173). -/

namespace Sys2Proof.Machine

theorem readCraneFlags_eq (n : Nat) : readCraneFlags n = ⟨decide (n % 2 = 1), decide (n / 2 % 2 = 1)⟩ := by
  unfold readCraneFlags
  simp [Nat.testBit_eq_decide_div_mod_eq]

section
variable {s u : State} {k : Fin 8} {a : CraneReportArgs}

/-- What the arrival of a crane frame changes (R98). -/
theorem craneArrival_fields (hu : u = s.craneArrival k) : u.crane k = { s.crane k with
      frames := min ((s.crane k).frames + 1) 65535
      timer := if (s.craneCfg k).present = true ∧ ((s.crane k).state = .standing ∨ (s.crane k).state = .travelling ∨
          (s.crane k).state = .halted) then some (s.craneCfg k).timeout else (s.crane k).timer } ∧
    u.craneLink k = { s.craneLink k with rx := Receiver.hunting } ∧
    u = { s with cranes := u.cranes, craneLinks := u.craneLinks } := by
  subst hu
  refine ⟨?_, ?_, rfl⟩
  · have htimer : (if ((s.craneCfg k).present && (s.crane k).state.supervised) = true then
          some (s.craneCfg k).timeout else (s.crane k).timer) =
        if (s.craneCfg k).present = true ∧ ((s.crane k).state = .standing ∨ (s.crane k).state = .travelling ∨
          (s.crane k).state = .halted) then some (s.craneCfg k).timeout else (s.crane k).timer :=
      if_congr (by rw [Bool.and_eq_true, CraneState.supervised_iff]) rfl rfl
    rw [State.craneArrival, State.crane_onCrane, if_pos rfl]
    exact congrArg (fun t => { s.crane k with frames := bump16 (s.crane k).frames, timer := t }) htimer
  · rw [State.craneArrival, State.craneLink_onCrane, State.craneLink_onCraneLink, if_pos rfl]

theorem craneReport_absent (hu : u = s.craneArrival k) (h : (s.craneCfg k).present = false) :
    exec (.craneReport k a) s = .next u.pump := by
  show Host.Outcome.next (s.takeCrane k (fun s => s.takeCraneReport k a)).pump = _
  rw [takeCrane_absent s k _ h, hu]

theorem craneReport_present (hu : u = s.craneArrival k) (h : (s.craneCfg k).present = true) :
    exec (.craneReport k a) s = .next (u.takeCraneReport k a).pump := by
  show Host.Outcome.next (s.takeCrane k (fun s => s.takeCraneReport k a)).pump = _
  rw [takeCrane_present s k _ h, hu]

theorem craneReport_repeat (hu : u = s.craneArrival k) (h : (s.craneCfg k).present = true)
    (hseq : (u.crane k).lastSeq = some a.seq) : exec (.craneReport k a) s =
      .next (u.onCrane k (fun x => { x with repeats := min (x.repeats + 1) 65535 })).pump := by
  rw [craneReport_present hu h]
  exact congrArg (fun t : State => Host.Outcome.next t.pump) (if_pos hseq)

/-- The fields of a report in the crane's record (R98). -/
def Crane.stored (c : Crane) (a : CraneReportArgs) : Crane := { c with
  lastSeq := some a.seq, trolley := if a.trolley = 255 then none else some a.trolley, height := a.height
  flags := ⟨decide (a.flags % 2 = 1), decide (a.flags / 2 % 2 = 1)⟩ }

/-- A report that is no repeat is stored (R98). -/
theorem takeCraneReport_eq {k : Nat} (hseq : (u.crane k).lastSeq ≠ some a.seq) : u.takeCraneReport k a =
    if u.mode = .config then (u.onCrane k (fun _ => (u.crane k).stored a)).hoistStop k
    else (((Work.start u none).onCrane k (fun _ => (u.crane k).stored a)).craneReport k a.bay
      (decide (a.flags % 2 = 1))).finish := by
  unfold State.takeCraneReport
  rw [if_neg hseq, readCraneFlags_eq]
  rfl

/-- The crane's report in CONFIG is answered by HOIST_STOP (R98). -/
theorem craneReport_config (hu : u = s.craneArrival k) (h : (s.craneCfg k).present = true)
    (hseq : (u.crane k).lastSeq ≠ some a.seq) (hmode : u.mode = .config) : exec (.craneReport k a) s =
      .next ((u.onCrane k (fun _ => (u.crane k).stored a)).hoistStop k).pump := by
  rw [craneReport_present hu h, takeCraneReport_eq hseq, if_pos hmode]

theorem craneReport_taken (hu : u = s.craneArrival k) (h : (s.craneCfg k).present = true)
    (hseq : (u.crane k).lastSeq ≠ some a.seq) (hmode : u.mode ≠ .config) : exec (.craneReport k a) s =
      .next (((Work.start u none).onCrane k (fun _ => (u.crane k).stored a)).craneReport k a.bay
        (decide (a.flags % 2 = 1))).finish.pump := by
  rw [craneReport_present hu h, takeCraneReport_eq hseq, if_neg hmode]

theorem craneUnusableFrame_counted (hu : u = s.craneArrival k) {kind : Nat} {p : List Byte}
    (h : ∀ i, decodeCrane k kind p ≠ .command i) : exec (.craneUnusableFrame k kind p) s =
      .next (u.onCraneLink k (fun x => { x with unusable := min (x.unusable + 1) 65535 })).pump := by
  show Host.Outcome.next (s.takeCraneFrame k kind p) = _
  unfold State.takeCraneFrame
  cases hd : decodeCrane k kind p with
  | command i => exact absurd hd (h i)
  | badKind => subst hu; rfl
  | badLength => subst hu; rfl

end

/-! ## A report by its bay and the state of its crane (R98, R99, R114) -/

section
variable {w : Work} {k b : Nat} {stopped : Bool}

theorem Work.craneReport_offline (hb : b < w.s.grid.bays) (h : (w.s.crane k).state = .offline) :
    w.craneReport k b stopped = (w.placeCrane k b).judgeHoist k true := by
  unfold Work.craneReport
  dsimp only
  rw [if_pos hb, h]

theorem Work.craneReport_lost (hb : b < w.s.grid.bays) (h : (w.s.crane k).state = .linkLost) :
    w.craneReport k b stopped = ((w.restoreCrane k b).judgeBay k b stopped).judgeHoist k true := by
  unfold Work.craneReport
  dsimp only
  rw [if_pos hb, h]

theorem Work.craneReport_placed (hb : b < w.s.grid.bays) (h : (w.s.crane k).state = .standing ∨
    (w.s.crane k).state = .travelling ∨ (w.s.crane k).state = .halted) :
    w.craneReport k b stopped = (w.judgeBay k b stopped).judgeHoist k true := by
  unfold Work.craneReport
  dsimp only
  rw [if_pos hb]
  rcases h with h | h | h <;> rw [h]

theorem Work.craneReport_outside (hb : w.s.grid.bays ≤ b) : w.craneReport k b stopped =
    if (w.s.crane k).state = .offline then
      w.onCrane k (fun c => { c with implausible := min (c.implausible + 1) 65535 })
    else (w.on (fun s => s.gantryStop k)).judgeHoist k false := if_neg (Nat.not_lt.2 hb)

end

/-! ## The first report (R42, R99) -/

namespace Work

/-- The record of a crane that is placed at a bay. -/
def seated (w : Work) (k b : Nat) : Work := w.onCrane k (fun c => { c with
  bay := some b, filtered := .unknown, candidate := none, count := 0, timer := some (w.s.craneCfg k).timeout })

section
variable (w : Work) (k b : Nat)

theorem seated_effect : Effect [.cranes] (fun _ => False) [] w (w.seated k b) := onCrane_effect w k _

theorem crane_seated (m : Nat) : (w.seated k b).s.crane m = if m = k then { w.s.crane k with
    bay := some b, filtered := .unknown, candidate := none, count := 0, timer := some (w.s.craneCfg k).timeout }
    else w.s.crane m := crane_onCrane _ _ _ _

theorem placeCrane_free (h : w.s.foreign k (w.s.legsAt k b) = []) : w.placeCrane k b =
    (((w.seated k b).takeLegs k (w.s.legsAt k b)).inState k .standing).post .craneLinkUp (.crane k)
      [.byte b, .byte 1] := by
  have hfree : ((w.seated k b).s.legConflict k (w.s.legCells k b)).isNone = true := State.legConflict_isNone.2 h
  unfold placeCrane
  dsimp only
  rw [← seated, hfree]
  rfl

theorem placeCrane_halted (h : w.s.foreign k (w.s.legsAt k b) ≠ []) : w.placeCrane k b =
    (((w.seated k b).haltTake k (w.s.legsAt k b)).inState k .halted).post .craneLinkUp (.crane k)
      [.byte b, .byte 3] := by
  have hfree : ((w.seated k b).s.legConflict k (w.s.legCells k b)).isNone = false :=
    Bool.eq_false_iff.2 (mt State.legConflict_isNone.1 h)
  unfold placeCrane
  dsimp only
  rw [← seated, hfree]
  rfl

theorem takeLeg_idem (r : SegDyn) :
    SegDyn.hold_ (.crane k) .leg (SegDyn.hold_ (.crane k) .leg r) = SegDyn.hold_ (.crane k) .leg r := rfl

theorem takeLegs_effect (cells : List Nat) : Effect [.segs] (fun _ => False) [] w (w.takeLegs k cells) :=
  w.onSegs_effect cells (takeLeg_idem k)

theorem seg_takeLegs (cells : List Nat) (i : Nat) : (w.takeLegs k cells).s.seg i =
    if i ∈ cells then { w.s.seg i with hold := .held (.crane k) .leg } else w.s.seg i :=
  seg_onSegs _ _ _ (takeLeg_idem k) i

theorem takeLegs_calm (cells : List Nat) : (w.takeLegs k cells).reexam = w.reexam :=
  (w.takeLegs_effect k cells).reexam_eq fun i => by
    rw [seg_takeLegs]
    split
    · refine Bool.eq_false_iff.2 fun h => ?_
      exact absurd ((SegDyn.callsFor_newHold _ _).1 h).2 (by simp)
    · exact SegDyn.callsFor_self _

end

end Work

end Sys2Proof.Machine
end

section
/-! The first report of a crane at its bay, and movement in the travel range (R42, R99, R110). -/

namespace Sys2Proof.Machine

/-! ## The first report (R42, R99) -/

theorem placeCrane_meets_free {w : Work} {k b : Nat} (h : w.s.foreign k (w.s.legsAt k b) = []) :
    (w.placeCrane k b).s.crane k = { w.s.crane k with
        state := .standing, bay := some b, filtered := .unknown, candidate := none, count := 0
        timer := some (w.s.craneCfg k).timeout } ∧
      (∀ j, j ≠ k → (w.placeCrane k b).s.crane j = w.s.crane j) ∧
      (∀ i, (w.placeCrane k b).s.seg i =
        if i ∈ w.s.legsAt k b then { w.s.seg i with hold := .held (.crane k) .leg } else w.s.seg i) ∧
      Work.Effect [.segs, .cranes, .dispatch] (fun _ => False)
        [⟨.craneLinkUp, w.s.now, .crane k, [.byte b, .byte 1]⟩] w (w.placeCrane k b) ∧
      (w.placeCrane k b).reexam = w.reexam := by
  rw [Work.placeCrane_free w k b h]
  have hseat := w.seated_effect k b
  have hrecord := w.crane_seated k b
  have hcalm : (w.seated k b).reexam = w.reexam := rfl
  generalize w.seated k b = x at hseat hrecord hcalm ⊢
  have htake := x.takeLegs_effect k (w.s.legsAt k b)
  have hseg := x.seg_takeLegs k (w.s.legsAt k b)
  have hquiet := x.takeLegs_calm k (w.s.legsAt k b)
  generalize x.takeLegs k (w.s.legsAt k b) = y at htake hseg hquiet ⊢
  have hstate := y.inState_effect k .standing
  have hstanding := y.crane_inState k .standing
  have hstill := y.inState_calm k .standing
  generalize y.inState k .standing = z at hstate hstanding hstill ⊢
  have hpost := Work.post_effect z .craneLinkUp (.crane k) [.byte b, .byte 1]
  have hsilent : (z.post .craneLinkUp (.crane k) [.byte b, .byte 1]).reexam = z.reexam := rfl
  rw [hstate.only.now, htake.only.now, hseat.only.now] at hpost
  generalize z.post .craneLinkUp (.crane k) [.byte b, .byte 1] = v at hpost hsilent ⊢
  have hcrane : ∀ j, v.s.crane j = if j = k then { x.s.crane k with state := .standing } else x.s.crane j := fun j => by
    rw [hpost.only.crane (by decide), hstanding, htake.only.crane (by decide), htake.only.crane (by decide)]
  refine ⟨?_, fun j hj => ?_, fun i => ?_,
    (((hseat.first htake).aside hstate).aside hpost).said (by decide) (fun _ => by simp) rfl, ?_⟩
  · rw [hcrane, if_pos rfl, hrecord, if_pos rfl]
  · rw [hcrane, if_neg hj, hrecord, if_neg hj]
  · rw [hpost.only.seg (by decide), hstate.only.seg (by decide), hseg, hseat.only.seg (by decide)]
  · rw [hsilent, hstill, hquiet, hcalm]

theorem placeCrane_meets_halted {w : Work} {k b : Nat} (h : w.s.foreign k (w.s.legsAt k b) ≠ []) :
    ∃ t : State, w.s.HaltTaken t k (w.s.legsAt k b) ∧
      (w.placeCrane k b).s.crane k = { w.s.crane k with
        state := .halted, bay := some b, filtered := .unknown, candidate := none, count := 0
        timer := some (w.s.craneCfg k).timeout } ∧
      (∀ j, j ≠ k → (w.placeCrane k b).s.crane j = w.s.crane j) ∧
      (∀ m, (w.placeCrane k b).s.dlink m =
        (t.dlink m).offer w.s.now ⟨.craneLinkUp, w.s.now, .crane k, [.byte b, .byte 3]⟩) ∧
      w.Grown (w.placeCrane k b) (w.s.Moved (w.placeCrane k b).s) ∧ (w.placeCrane k b).reexam = w.reexam ∧
      (w.placeCrane k b).s = { t with
        cranes := (w.placeCrane k b).s.cranes, dispatch := (w.placeCrane k b).s.dispatch } := by
  rw [Work.placeCrane_halted w k b h]
  have hseat := w.seated_effect k b
  have hrecord := w.crane_seated k b
  have hcalm : (w.seated k b).reexam = w.reexam := rfl
  have hrest : (w.seated k b).s = { w.s with cranes := (w.seated k b).s.cranes, craneLinks := w.s.craneLinks } := rfl
  generalize w.seated k b = x at hseat hrecord hcalm hrest ⊢
  have htaken := x.haltTake_taken k (w.s.legsAt k b)
  have hhalt := x.haltTake_effect k (w.s.legsAt k b)
  have hquiet := x.haltTake_reexam k (w.s.legsAt k b)
  rw [hrest] at htaken
  generalize x.haltTake k (w.s.legsAt k b) = y at htaken hhalt hquiet ⊢
  have hstate := y.inState_effect k .halted
  have hhalted := y.crane_inState k .halted
  have hstill := y.inState_calm k .halted
  generalize y.inState k .halted = z at hstate hhalted hstill ⊢
  have hpost := Work.post_effect z .craneLinkUp (.crane k) [.byte b, .byte 3]
  have hsilent : (z.post .craneLinkUp (.crane k) [.byte b, .byte 3]).reexam = z.reexam := rfl
  rw [hstate.only.now, hhalt.only.now, hseat.only.now] at hpost
  generalize z.post .craneLinkUp (.crane k) [.byte b, .byte 3] = v at hpost hsilent ⊢
  have hcrane : ∀ j, v.s.crane j = if j = k then { x.s.crane k with state := .halted } else x.s.crane j := fun j => by
    rw [hpost.only.crane (by decide), hhalted, hhalt.only.crane (by decide), hhalt.only.crane (by decide)]
  have hafter := (hstate.only.trans hpost.only).mono (G := [.cranes, .dispatch]) (by decide)
  have hlinks : y.s.craneLinks = w.s.craneLinks :=
    (hhalt.only.craneLinks (by decide)).trans (hseat.only.craneLinks (by decide))
  refine ⟨_, htaken.of_cranes, ?_, fun j hj => ?_, fun m => ?_, ?_, ?_, ?_⟩
  · rw [hcrane, if_pos rfl, hrecord, if_pos rfl]
  · rw [hcrane, if_neg hj, hrecord, if_neg hj]
  · rw [hpost.posts, hstate.only.dlink (by decide), hstate.only.now, hhalt.only.now, hseat.only.now]
    rfl
  · refine ((((hseat.first hhalt).aside hstate).aside hpost).said
      (G := [.segs, .carriers, .waiting, .cranes, .dispatch]) (m := fun d => w.s.Moved v.s d)
      (by decide) (fun d => ?_) rfl).grown
    rw [false_or, or_false, or_false]
    exact State.moved_congr (hseat.only.carrier? (by decide) d) (hafter.carrier? (by decide) d).symm
  · rw [hsilent, hstill, hquiet, hcalm]
  · rw [← hlinks]
    exact hafter.eq

/-! ## Movement in the travel range (R110) -/

theorem State.legsFrom_eq (s : State) (k g b : Nat) : s.legsFrom k g b = s.legsOver k (baysFrom g b) := rfl

theorem mem_baysFrom {g b x : Nat} : x ∈ baysFrom g b ↔ (g ≤ x ∧ x ≤ b) ∨ (b ≤ x ∧ x ≤ g) := by
  rw [baysFrom_eq, List.mem_cons, mem_baysBeyond]
  omega

/-- Leg cells of different bays are different. -/
theorem legCell_inj {n l m x y : Nat} (hx : x < n) (hy : y < n) (h : l * n + x = m * n + y) : x = y := by
  have hmod := congrArg (· % n) h
  simpa [Nat.mul_comm _ n, Nat.mul_add_mod, Nat.mod_eq_of_lt hx, Nat.mod_eq_of_lt hy] using hmod

/-- The cells that a travel releases are the leg cells over the way but for those at the bay that is reached. -/
theorem State.mem_legsBehind {s : State} {k g b i : Nat} (hg : g < s.grid.bays) (hb : b < s.grid.bays) :
    i ∈ s.legsOver k ((baysFrom g b).filter (fun x => decide (x ≠ b))) ↔
      i ∈ s.legsFrom k g b ∧ i ∉ s.legsAt k b := by
  have hlegs : ∀ j, j ∈ s.legsAt k b ↔ j ∈ s.legCells k b := fun _ => Iff.rfl
  rw [State.legsFrom_eq, hlegs]
  unfold State.legsOver
  simp only [List.mem_flatMap, List.mem_filter, decide_eq_true_iff]
  constructor
  · rintro ⟨x, ⟨hx, hne⟩, hi⟩
    refine ⟨⟨x, hx, hi⟩, fun hat => hne ?_⟩
    have hxn : x < s.grid.bays := by
      have := mem_baysFrom.1 hx
      omega
    rw [State.mem_legCells] at hi hat
    rcases hi with hi | hi <;> rcases hat with hat | hat <;> exact legCell_inj hxn hb (hi.symm.trans hat)
  · rintro ⟨⟨x, hx, hi⟩, hat⟩
    exact ⟨x, ⟨hx, fun h => hat (h ▸ hi)⟩, hi⟩

namespace Work

section
variable (w : Work) (k : Nat) (cells : List Nat)

/-- A TRAVEL hold of the crane that becomes a leg (R110). -/
def settleLeg (k : Nat) (r : SegDyn) : SegDyn :=
  if r.hold = .held (.crane k) .travel then { r with hold := .held (.crane k) .leg } else r

/-- A hold of the crane that is released (R110). -/
def releaseLeg (k : Nat) (r : SegDyn) : SegDyn := if r.heldBy (.crane k) then r.release else r

theorem settleLeg_idem (r : SegDyn) : settleLeg k (settleLeg k r) = settleLeg k r := by
  unfold settleLeg
  by_cases h : r.hold = .held (.crane k) .travel
  · rw [if_pos h, if_neg (by simp)]
  · rw [if_neg h, if_neg h]

theorem releaseLeg_idem (r : SegDyn) : releaseLeg k (releaseLeg k r) = releaseLeg k r := by
  unfold releaseLeg
  by_cases h : r.heldBy (.crane k) = true
  · rw [if_pos h]
    simp [SegDyn.release, SegDyn.heldBy]
  · rw [if_neg h, if_neg h]

theorem settleAt_effect : Effect [.segs] (fun _ => False) [] w (w.settleAt k cells) :=
  w.onSegs_effect cells (settleLeg_idem k)

theorem releaseLegs_effect : Effect [.segs] (fun _ => False) [] w (w.releaseLegs k cells) :=
  w.onSegs_effect cells (releaseLeg_idem k)

theorem seg_settleAt (i : Nat) :
    (w.settleAt k cells).s.seg i = if i ∈ cells then settleLeg k (w.s.seg i) else w.s.seg i :=
  seg_onSegs _ _ _ (settleLeg_idem k) i

theorem seg_releaseLegs (i : Nat) :
    (w.releaseLegs k cells).s.seg i = if i ∈ cells then releaseLeg k (w.s.seg i) else w.s.seg i :=
  seg_onSegs _ _ _ (releaseLeg_idem k) i

theorem callsFor_settleLeg (r : SegDyn) : SegDyn.callsFor r (settleLeg k r) = false := by
  unfold settleLeg
  split
  · refine Bool.eq_false_iff.2 fun h => ?_
    exact absurd ((SegDyn.callsFor_newHold _ _).1 h).2 (by simp)
  · exact SegDyn.callsFor_self _

theorem callsFor_releaseLeg (r : SegDyn) :
    SegDyn.callsFor r (releaseLeg k r) = true ↔ r.heldBy (.crane k) = true := by
  unfold releaseLeg
  by_cases h : r.heldBy (.crane k) = true
  · rw [if_pos h]
    refine iff_of_true ((SegDyn.callsFor_release r).2 fun hfree => ?_) h
    obtain ⟨x, hx⟩ := (SegDyn.heldBy_iff _ _).1 h
    rw [hx] at hfree
    cases hfree
  · rw [if_neg h, SegDyn.callsFor_self]
    exact iff_of_false Bool.false_ne_true h

end

/-- The legs at the bay that is reached stand, and the crane leaves the bays behind it (R110). -/
def movedTo (w : Work) (k g b : Nat) : Work :=
  ((w.settleAt k (w.s.legsAt k b)).releaseLegs k
    (w.s.legsOver k ((baysFrom g b).filter (fun x => decide (x ≠ b))))).onCrane k (fun c => { c with bay := some b })

section
variable {w : Work} {k g b : Nat}

theorem crane_movedTo (w : Work) (k g b m : Nat) :
    (w.movedTo k g b).s.crane m = if m = k then { w.s.crane k with bay := some b } else w.s.crane m := by
  have hsettle := (w.settleAt_effect k (w.s.legsAt k b)).only
  have hrelease := ((w.settleAt k (w.s.legsAt k b)).releaseLegs_effect k
    (w.s.legsOver k ((baysFrom g b).filter (fun x => decide (x ≠ b))))).only
  rw [movedTo, crane_onCrane, hrelease.crane (by decide), hrelease.crane (by decide), hsettle.crane (by decide),
    hsettle.crane (by decide)]

variable (hg : g < w.s.grid.bays) (hb : b < w.s.grid.bays)
include hg hb

theorem seg_movedTo (i : Nat) : (w.movedTo k g b).s.seg i =
    if i ∈ w.s.legsAt k b then settleLeg k (w.s.seg i)
    else if i ∈ w.s.legsFrom k g b then releaseLeg k (w.s.seg i) else w.s.seg i := by
  rw [movedTo, (onCrane_effect _ k _).only.seg (by decide), seg_releaseLegs, seg_settleAt]
  by_cases hat : i ∈ w.s.legsAt k b
  · have hnot : ¬ i ∈ w.s.legsOver k ((baysFrom g b).filter (fun x => decide (x ≠ b))) :=
      fun h => ((State.mem_legsBehind hg hb).1 h).2 hat
    simp only [if_neg hnot, if_pos hat]
  · have hiff : i ∈ w.s.legsOver k ((baysFrom g b).filter (fun x => decide (x ≠ b))) ↔ i ∈ w.s.legsFrom k g b :=
      (State.mem_legsBehind hg hb).trans (and_iff_left hat)
    simp only [if_neg hat, hiff]

theorem movedTo_effect : Effect [.segs, .cranes] (fun _ => False) [] w (w.movedTo k g b) := by
  have hsettle := w.settleAt_effect k (w.s.legsAt k b)
  have hrelease := (w.settleAt k (w.s.legsAt k b)).releaseLegs_effect k
    (w.s.legsOver k ((baysFrom g b).filter (fun x => decide (x ≠ b))))
  refine ((hsettle.trans hrelease fun i => ?_).aside (onCrane_effect _ k _)).said (by decide) (fun _ => by simp) rfl
  by_cases hat : i ∈ w.s.legsAt k b
  · refine .of_right ?_
    have hnot : ¬ i ∈ w.s.legsOver k ((baysFrom g b).filter (fun x => decide (x ≠ b))) :=
      fun h => ((State.mem_legsBehind hg hb).1 h).2 hat
    rw [seg_releaseLegs, if_neg hnot]
  · refine .of_left ?_
    rw [seg_settleAt]
    exact if_neg hat

theorem movedTo_reexam : (w.movedTo k g b).reexam = true ↔ w.reexam = true ∨
    ∃ i ∈ w.s.legsFrom k g b, i ∉ w.s.legsAt k b ∧ (w.s.seg i).heldBy (.crane k) = true := by
  rw [(movedTo_effect hg hb).reexam_iff]
  refine or_congr_right (exists_congr fun i => ?_)
  rw [seg_movedTo hg hb]
  by_cases hat : i ∈ w.s.legsAt k b
  · rw [if_pos hat, callsFor_settleLeg]
    exact iff_of_false Bool.false_ne_true fun h => h.2.1 hat
  · rw [if_neg hat]
    by_cases hi : i ∈ w.s.legsFrom k g b
    · rw [if_pos hi, callsFor_releaseLeg]
      exact ⟨fun h => ⟨hi, hat, h⟩, fun h => h.2.2⟩
    · rw [if_neg hi, SegDyn.callsFor_self]
      exact iff_of_false Bool.false_ne_true fun h => hi h.1

end

/-- The stop at the target ends the travel (R110). -/
def arrivedAt (w : Work) (k b : Nat) : Work :=
  (w.onCrane k (fun c => { c with target := none, state := .standing })).post .travelDone (.crane k) [.byte b, .byte 0]

theorem arrivedAt_effect (w : Work) (k b : Nat) : Effect [.cranes, .dispatch] (fun _ => False)
    [⟨.travelDone, w.s.now, .crane k, [.byte b, .byte 0]⟩] w (w.arrivedAt k b) := by
  have hcrane := onCrane_effect w k (fun c => { c with target := none, state := .standing })
  have hpost := post_effect (w.onCrane k (fun c => { c with target := none, state := .standing })) .travelDone
    (.crane k) [.byte b, .byte 0]
  rw [hcrane.only.now] at hpost
  exact (hcrane.aside hpost).said (by decide) (fun _ => by simp) rfl

theorem crane_arrivedAt (w : Work) (k b m : Nat) : (w.arrivedAt k b).s.crane m =
    if m = k then { w.s.crane k with target := none, state := .standing } else w.s.crane m := by
  rw [arrivedAt, (post_effect _ _ _ _).only.crane (by decide), crane_onCrane]

theorem arrivedAt_calm (w : Work) (k b : Nat) : (w.arrivedAt k b).reexam = w.reexam := rfl

theorem travel_eq (w : Work) (k b g' : Nat) (stopped : Bool) : w.travel k b g' stopped =
    if b = g' ∧ stopped = true then
      (if b = (w.s.crane k).at then w else w.movedTo k (w.s.crane k).at b).arrivedAt k b
    else if b = (w.s.crane k).at then w else w.movedTo k (w.s.crane k).at b := by
  unfold travel
  refine if_congr ?_ rfl rfl
  rw [Bool.and_eq_true, decide_eq_true_iff]

end Work

end Sys2Proof.Machine
end

section
/-! The gantry violation: the halt take from the old bay to the new, and the end of the claim under VIOLATION (R42,
R69, R111). -/

namespace Sys2Proof.Machine

/-- A halt take changes the hold and the mark of a record alone, and a lock reason the lock. -/
theorem SegDyn.Apart.of_haltTake_lock {a b c : SegDyn} (hb : ∃ h x, b = { a with hold := h, intruder := x })
    (hc : ∃ l, c = { b with lock := l }) : SegDyn.Apart a b c := by
  obtain ⟨h, x, rfl⟩ := hb
  obtain ⟨l, rfl⟩ := hc
  exact ⟨.inr rfl, .inl rfl, .inl rfl, .inr rfl⟩

theorem State.moved_map {s t : State} {d : Nat} {f : Carrier → Carrier} (h : t.carrier? d = (s.carrier? d).map f) :
    s.Moved t d ↔ ∃ r, s.carrier? d = some r ∧ (f r).state ≠ r.state := by
  unfold State.Moved
  rw [h]
  constructor
  · rintro ⟨r, x, hr, hx, hne⟩
    rw [hr] at hx
    exact ⟨r, hr, Option.some.inj hx ▸ hne⟩
  · rintro ⟨r, hr, hne⟩
    exact ⟨r, f r, hr, by rw [hr]; rfl, hne⟩

/-- Where what has moved stays as it is, what moves over two changes moves in one of them. -/
theorem State.moved_or {s t u : State} {d : Nat} {f g : Carrier → Carrier} (hf : t.carrier? d = (s.carrier? d).map f)
    (hg : u.carrier? d = (t.carrier? d).map g) (hstays : ∀ r, (f r).state ≠ r.state → (g (f r)).state = (f r).state) :
    s.Moved u d ↔ s.Moved t d ∨ t.Moved u d := by
  have hboth : u.carrier? d = (s.carrier? d).map (g ∘ f) := by rw [hg, hf, Option.map_map]
  rw [State.moved_map hboth, State.moved_map hf, State.moved_map hg, hf]
  cases s.carrier? d with
  | none => simp
  | some r =>
    simp only [Option.map_some, Option.some.injEq, exists_eq_left', Function.comp]
    by_cases h : (f r).state = r.state
    · simp [h]
    · simp [h, hstays r h]

theorem inRange_iff (g g' b : Nat) : inRange g g' b = true ↔ (g ≤ b ∧ b ≤ g') ∨ (g' ≤ b ∧ b ≤ g) := by
  unfold inRange
  rw [decide_eq_true_iff]
  omega

namespace Work

section
variable (w : Work) (k : Nat)

/-! ## GANTRY_STOP and the halt take (R42, R108) -/

/-- The cells over the way are taken, after GANTRY_STOP. -/
def halting (w : Work) (k : Nat) (cells : List Nat) : Work := (w.gantryStopped k).haltTake k cells

theorem halting_effect (cells : List Nat) : Effect [.craneLinks, .segs, .carriers, .waiting, .dispatch]
    (fun d => w.s.Moved (w.halting k cells).s d) (haltEntries (w.gantryStopped k).s k cells) w (w.halting k cells) := by
  have hstop := w.gantryStopped_effect k
  have hhalt := (w.gantryStopped k).haltTake_effect k cells
  rw [halting]
  generalize w.gantryStopped k = x at hstop hhalt ⊢
  refine (hstop.first hhalt).said (by decide) (fun d => ?_) rfl
  rw [false_or]
  exact State.moved_congr (hstop.only.carrier? (by decide) d) rfl

theorem halting_taken (cells : List Nat) : w.s.HaltTaken { (w.halting k cells).s with
    cranes := w.s.cranes, craneLinks := w.s.craneLinks } k cells := by
  have htaken := (w.gantryStopped k).haltTake_taken k cells
  have hrest : (w.gantryStopped k).s =
      { w.s with cranes := w.s.cranes, craneLinks := (w.gantryStopped k).s.craneLinks } := rfl
  rw [hrest] at htaken
  exact htaken.of_cranes

theorem halting_calm (cells : List Nat) : (w.halting k cells).reexam = w.reexam :=
  ((w.gantryStopped k).haltTake_reexam k cells).trans (w.gantryStopped_calm k)

theorem craneLink_halting (cells : List Nat) (m : Nat) : (w.halting k cells).s.craneLink m =
    if m = k then ((w.s.craneLink k).join (.gantryStop (w.s.crane k).lastSeq)).transmit else w.s.craneLink m := by
  have hstop := w.craneLink_gantryStopped k m
  rw [halting]
  generalize w.gantryStopped k = x at hstop ⊢
  rw [craneLink_of_only (x.haltTake_effect k cells).only (by decide), hstop]

theorem haltTake_only (r : SegDyn) : ∃ h x, r.haltTake k = { r with hold := h, intruder := x } := by
  by_cases hfree : r.hold = .free
  · exact ⟨_, r.intruder, haltTake_free hfree⟩
  · obtain ⟨x, hx⟩ := haltTake_marks (k := k) hfree
    exact ⟨r.hold, x, hx⟩

theorem seg_halting_only (cells : List Nat) (i : Nat) :
    ∃ h x, (w.halting k cells).s.seg i = { w.s.seg i with hold := h, intruder := x } := by
  have hseg : (w.gantryStopped k).s.seg i = w.s.seg i := (w.gantryStopped_effect k).only.seg (by decide) i
  rw [halting, seg_haltTake, hseg]
  split
  · exact haltTake_only k _
  · exact ⟨_, _, rfl⟩

/-- A halt take leaves what a carrier holds. -/
theorem heldBy_halting (cells : List Nat) (i q : Nat) :
    ((w.halting k cells).s.seg i).heldBy (.carrier q) = (w.s.seg i).heldBy (.carrier q) := by
  have hseg : (w.gantryStopped k).s.seg i = w.s.seg i := (w.gantryStopped_effect k).only.seg (by decide) i
  rw [halting, seg_haltTake, hseg]
  split
  · by_cases hfree : (w.s.seg i).hold = .free
    · rw [haltTake_free hfree]
      unfold SegDyn.heldBy
      rw [hfree]
      rfl
    · obtain ⟨x, hx⟩ := haltTake_marks (k := k) hfree
      rw [hx]
      rfl
  · rfl

/-! ## The end of the claim under VIOLATION (R111) -/

def lockEnded (w : Work) (k : Nat) (m : Claim) : Work :=
  (w.addLock k (w.s.claimCell k m) Reasons.ofViolation).lapsed k m .gantry

variable (m : Claim)

theorem claimCell_addLock (i : Nat) (rs : Reasons) : (w.addLock k i rs).s.claimCell k m = w.s.claimCell k m := by
  have honly := (w.addLock_effect k i rs).only
  unfold State.claimCell
  rw [honly.crane (by decide)]
  exact State.slotCell_congr honly.cfg _ _ _

theorem seg_lockEnded (j : Nat) : (w.lockEnded k m).s.seg j =
    if j = w.s.claimCell k m then ((w.s.seg j).addLock k Reasons.ofViolation).removeLock k Reasons.ofClaim
    else w.s.seg j := by
  rw [lockEnded, seg_lapsed, claimCell_addLock, seg_addLock]
  split <;> rfl

theorem seg_lockEnded_only (j : Nat) : ∃ l, (w.lockEnded k m).s.seg j = { w.s.seg j with lock := l } := by
  rw [seg_lockEnded]
  split
  · exact ⟨_, SegDyn.violatedEnded_eq k _⟩
  · exact ⟨_, rfl⟩

theorem lapsed_after : Effect [.segs, .cranes, .craneLinks, .dispatch] (fun _ => False)
    [⟨.claimLapsed, w.s.now, .crane k, [.byte m.slot, .half (w.s.claimCell k m), .byte 2]⟩]
    (w.addLock k (w.s.claimCell k m) Reasons.ofViolation) (w.lockEnded k m) := by
  have hlapsed := (w.addLock k (w.s.claimCell k m) Reasons.ofViolation).lapsed_effect k m .gantry
  rw [claimCell_addLock, (w.addLock_effect k (w.s.claimCell k m) _).only.now] at hlapsed
  exact hlapsed

theorem lockEnded_only : State.Only [.segs, .carriers, .cranes, .craneLinks, .dispatch] w.s (w.lockEnded k m).s :=
  ((w.addLock_effect k (w.s.claimCell k m) Reasons.ofViolation).only.trans (w.lapsed_after k m).only).mono (by decide)

theorem carrier?_lockEnded (d : Nat) : (w.lockEnded k m).s.carrier? d = (w.s.carrier? d).map (fun r =>
    if r.state = .authorized ∧ (w.s.seg (w.s.claimCell k m)).heldBy (.carrier d) = true then r.asked .hoistViolation
    else r) :=
  ((w.lapsed_after k m).only.carrier? (by decide) d).trans (w.carrier?_addLock k _ Reasons.ofViolation d)

theorem dlink_lockEnded (n : DLink) : (w.lockEnded k m).s.dlink n = (w.s.dlink n).offers w.s.now
    (w.s.lockEntries Reasons.ofViolation [w.s.claimCell k m] ++
      [⟨.claimLapsed, w.s.now, .crane k, [.byte m.slot, .half (w.s.claimCell k m), .byte 2]⟩]) := by
  have hlock := w.addLock_effect k (w.s.claimCell k m) Reasons.ofViolation
  rw [(w.lapsed_after k m).posts, hlock.posts, hlock.only.now, DispatchLink.offers_append]

theorem lockEnded_grown : w.Grown (w.lockEnded k m) (w.s.Moved (w.lockEnded k m).s) := by
  have hlock := w.addLock_effect k (w.s.claimCell k m) Reasons.ofViolation
  have hall := hlock.grown.trans (w.lapsed_after k m).grown fun j hj => by
    rw [seg_lockEnded] at hj
    rw [seg_addLock]
    by_cases hji : j = w.s.claimCell k m
    · rw [if_pos hji] at hj ⊢
      exact SegDyn.violated_kept hj
    · exact if_neg hji
  refine ⟨hall.before, hall.touched, fun d => (hall.runs d).trans (or_congr_right ?_), hall.bumped, hall.settled,
    hall.report⟩
  rw [or_false]
  exact (moved_addLocks k Reasons.ofViolation w [w.s.claimCell k m] d).trans
    (State.moved_congr rfl ((w.lapsed_after k m).only.carrier? (by decide) d)).symm

theorem lockEnded_calm : (w.lockEnded k m).reexam = w.reexam := by
  have hlock : (w.addLock k (w.s.claimCell k m) Reasons.ofViolation).reexam = w.reexam :=
    (w.addLock_effect k (w.s.claimCell k m) Reasons.ofViolation).reexam_eq fun j => by
      rw [seg_addLock]
      split
      · exact addLock_calm k Reasons.ofViolation _
      · exact SegDyn.callsFor_self _
  rw [← hlock]
  refine (w.lapsed_after k m).reexam_eq fun j => ?_
  rw [seg_lockEnded, seg_addLock]
  by_cases hji : j = w.s.claimCell k m
  · rw [if_pos hji, if_pos hji]
    exact SegDyn.violatedEnded_calm k _
  · rw [if_neg hji, if_neg hji]
    exact SegDyn.callsFor_self _

theorem crane_lockEnded (n : Nat) : (w.lockEnded k m).s.crane n =
    if n = k then { w.s.crane k with claim := none } else w.s.crane n := by
  have hlock := (w.addLock_effect k (w.s.claimCell k m) Reasons.ofViolation).only
  rw [lockEnded, crane_lapsed, hlock.crane (by decide), hlock.crane (by decide)]

theorem craneLink_lockEnded (n : Nat) : (w.lockEnded k m).s.craneLink n =
    if n = k then ((w.s.craneLink k).join (.lowerRevoked (w.s.crane k).lastSeq m.slot)).transmit
    else w.s.craneLink n := by
  have hlock := (w.addLock_effect k (w.s.claimCell k m) Reasons.ofViolation).only
  rw [lockEnded, craneLink_lapsed, craneLink_of_only hlock (by decide), craneLink_of_only hlock (by decide),
    hlock.crane (by decide)]

/-! ## The crane HALTED where it is (R111) -/

/-- The crane is HALTED at the new bay, and GANTRY_VIOLATION is posted. -/
def haltedAt (w : Work) (k b : Nat) (detail : List Val) : Work :=
  (w.onCrane k (fun c => { c with bay := some b, target := none, state := .halted })).post .gantryViolation (.crane k)
    detail

variable (b : Nat) (detail : List Val)

theorem haltedAt_effect : Effect [.cranes, .dispatch] (fun _ => False)
    [⟨.gantryViolation, w.s.now, .crane k, detail⟩] w (w.haltedAt k b detail) := by
  have hcrane := onCrane_effect w k (fun c => { c with bay := some b, target := none, state := .halted })
  have hpost := post_effect (w.onCrane k (fun c => { c with bay := some b, target := none, state := .halted }))
    .gantryViolation (.crane k) detail
  rw [hcrane.only.now] at hpost
  exact (hcrane.aside hpost).said (by decide) (fun _ => by simp) rfl

theorem crane_haltedAt (n : Nat) : (w.haltedAt k b detail).s.crane n =
    if n = k then { w.s.crane k with bay := some b, target := none, state := .halted } else w.s.crane n := by
  rw [haltedAt, (post_effect _ _ _ _).only.crane (by decide), crane_onCrane]

theorem haltedAt_calm : (w.haltedAt k b detail).reexam = w.reexam := rfl

/-- What GANTRY_VIOLATION carries (log entry 20). -/
def violationDetail (s : State) (k g b : Nat) : List Val :=
  [.byte g, .byte b, .byte (s.foreign k (s.legsFrom k g b)).length]

/-- The part of a gantry violation before the crane is HALTED: the halt take, and the end of a claim. -/
def ended (w : Work) (k : Nat) (cells : List Nat) : Work :=
  match (w.s.crane k).claim with
  | some m => (w.halting k cells).lockEnded k m
  | none => w.halting k cells

section
variable (cells : List Nat)

theorem crane_halting (n : Nat) : (w.halting k cells).s.crane n = w.s.crane n :=
  (w.halting_effect k cells).only.crane (by decide) n

theorem claimCell_halting : (w.halting k cells).s.claimCell k m = w.s.claimCell k m := by
  unfold State.claimCell
  rw [crane_halting]
  exact State.slotCell_congr (w.halting_effect k cells).only.cfg _ _ _

theorem ended_some {m : Claim} (h : (w.s.crane k).claim = some m) :
    w.ended k cells = (w.halting k cells).lockEnded k m := by
  unfold ended
  rw [h]

theorem ended_none (h : (w.s.crane k).claim = none) : w.ended k cells = w.halting k cells := by
  unfold ended
  rw [h]

theorem crane_ended (n : Nat) : (w.ended k cells).s.crane n =
    if n = k then { w.s.crane k with claim := none } else w.s.crane n := by
  cases h : (w.s.crane k).claim with
  | some m => rw [w.ended_some k cells h, crane_lockEnded, crane_halting, crane_halting]
  | none =>
    rw [w.ended_none k cells h, crane_halting]
    split
    · next hn =>
      rw [hn, ← h]
    · rfl

theorem craneLink_ended {n : Nat} (hn : n ≠ k) : (w.ended k cells).s.craneLink n = w.s.craneLink n := by
  have hhalting := w.craneLink_halting k cells n
  rw [if_neg hn] at hhalting
  cases h : (w.s.crane k).claim with
  | some m => rw [w.ended_some k cells h, craneLink_lockEnded, if_neg hn, hhalting]
  | none => rw [w.ended_none k cells h, hhalting]

theorem ended_only :
    State.Only [.segs, .carriers, .cranes, .craneLinks, .dispatch] (w.halting k cells).s (w.ended k cells).s := by
  cases h : (w.s.crane k).claim with
  | some m => exact w.ended_some k cells h ▸ (w.halting k cells).lockEnded_only k m
  | none =>
    rw [w.ended_none k cells h]
    exact (State.Only.refl (w.halting k cells).s).mono (F := []) (List.nil_subset _)

theorem ended_calm : (w.ended k cells).reexam = w.reexam := by
  cases h : (w.s.crane k).claim with
  | some m => rw [w.ended_some k cells h, lockEnded_calm, halting_calm]
  | none => rw [w.ended_none k cells h, halting_calm]

/-- A carrier that the halt take moves to EMERGENCY is none that the lock asks. -/
theorem moved_lockEnded (d : Nat) : w.s.Moved ((w.halting k cells).lockEnded k m).s d ↔
    w.s.Moved (w.halting k cells).s d ∨ (w.halting k cells).s.Moved ((w.halting k cells).lockEnded k m).s d := by
  refine State.moved_or ((w.halting_taken k cells).carriers d) ((w.halting k cells).carrier?_lockEnded k m d)
    fun r hne => ?_
  split at hne
  · next h => rw [if_pos h, if_neg fun hst => r.asked_not_authorized _ hst.1]
  · exact absurd rfl hne

theorem ended_grown : w.Grown (w.ended k cells) (w.s.Moved (w.ended k cells).s) := by
  have hhalting := (w.halting_effect k cells).grown
  cases h : (w.s.crane k).claim with
  | none => exact w.ended_none k cells h ▸ hhalting
  | some m =>
    have hall := hhalting.trans ((w.halting k cells).lockEnded_grown k m) fun i =>
      (SegDyn.Apart.of_haltTake_lock (w.seg_halting_only k cells i)
        ((w.halting k cells).seg_lockEnded_only k m i)).kept
    rw [w.ended_some k cells h]
    exact ⟨hall.before, hall.touched, fun d => (hall.runs d).trans
      (or_congr_right (w.moved_lockEnded k m cells d).symm), hall.bumped, hall.settled, hall.report⟩

end

theorem haltedAt_grown {w v : Work} (h : w.Grown v (w.s.Moved v.s)) (k b : Nat) (detail : List Val) :
    w.Grown (v.haltedAt k b detail) (w.s.Moved (v.haltedAt k b detail).s) := by
  have hhalted := v.haltedAt_effect k b detail
  have hall := h.trans hhalted.grown fun i hi => (hhalted.only.seg (by decide) i).symm.trans hi
  refine ⟨hall.before, hall.touched, fun d => (hall.runs d).trans (or_congr_right ?_), hall.bumped, hall.settled,
    hall.report⟩
  rw [or_false]
  exact State.moved_congr rfl (hhalted.only.carrier? (by decide) d).symm

theorem gantryViolation_eq {g : Nat} (hg : (w.s.crane k).at = g) : w.gantryViolation k b =
    (w.ended k (w.s.legsFrom k g b)).haltedAt k b (violationDetail w.s k g b) := by
  subst hg
  have hcrane := w.crane_halting k (w.s.legsFrom k (w.s.crane k).at b) k
  have hlapse : ∀ v : Work, ∀ m, v.lapse k m .gantry = v.lapsed k m .gantry := fun v m => v.lapse_eq k m .gantry
  unfold gantryViolation ended
  dsimp only
  rw [← State.legsFrom_eq, ← gantryStopped, ← halting, hcrane]
  simp only [hlapse]
  cases (w.s.crane k).claim <;> rfl

/-! ## A bay that is judged (R110, R111) -/

variable {w k b} {g g' : Nat} {stopped : Bool}

theorem judgeBay_same (hbay : (w.s.crane k).bay = some g)
    (h : ((w.s.crane k).state = .standing ∨ (w.s.crane k).state = .halted) ∧ b = g) : w.judgeBay k b stopped = w := by
  have hat : b = (w.s.crane k).at := by
    unfold Crane.at
    rw [hbay]
    exact h.2
  unfold judgeBay
  dsimp only
  rcases h.1 with hs | hs <;> rw [hs] <;> exact if_pos hat

theorem judgeBay_travel (hbay : (w.s.crane k).bay = some g) (hs : (w.s.crane k).state = .travelling)
    (ht : (w.s.crane k).target = some g') (h : (g ≤ b ∧ b ≤ g') ∨ (g' ≤ b ∧ b ≤ g)) :
    w.judgeBay k b stopped = w.travel k b g' stopped := by
  have hat : (w.s.crane k).at = g := by
    unfold Crane.at
    rw [hbay]
    rfl
  unfold judgeBay
  dsimp only
  rw [hs, ht, hat]
  exact if_pos ((inRange_iff g g' b).2 h)

theorem judgeBay_violation (hbay : (w.s.crane k).bay = some g)
    (h : ((w.s.crane k).state = .travelling ∧ (w.s.crane k).target = some g' ∧
        ¬ ((g ≤ b ∧ b ≤ g') ∨ (g' ≤ b ∧ b ≤ g))) ∨
      (((w.s.crane k).state = .standing ∨ (w.s.crane k).state = .halted) ∧ b ≠ g)) :
    w.judgeBay k b stopped = w.gantryViolation k b := by
  have hat : (w.s.crane k).at = g := by
    unfold Crane.at
    rw [hbay]
    rfl
  unfold judgeBay
  dsimp only
  rw [hat]
  rcases h with ⟨hs, ht, hout⟩ | ⟨hs | hs, hne⟩
  · rw [hs, ht]
    exact if_neg fun hin => hout ((inRange_iff g g' b).1 hin)
  · rw [hs]
    exact if_neg hne
  · rw [hs]
    exact if_neg hne

end

end Work

end Sys2Proof.Machine
end

section
/-! Crane frames (R98 to R100, R108, R110, R111, R173). -/

namespace Sys2Proof.Machine

namespace Work

/-! ## The bay that travel reaches (R110) -/

/-- The crane at the bay that travel reaches, which may be the one where it was. -/
def reached (w : Work) (k g b : Nat) : Work := if b = g then w else w.movedTo k g b

section
variable {w : Work} {k g b : Nat}

theorem travel_reached (hbay : (w.s.crane k).bay = some g) (g' : Nat) (stopped : Bool) : w.travel k b g' stopped =
    if b = g' ∧ stopped = true then (w.reached k g b).arrivedAt k b else w.reached k g b := by
  have hat : (w.s.crane k).at = g := by
    unfold Crane.at
    rw [hbay]
    rfl
  rw [travel_eq, hat]
  rfl

theorem crane_reached (hbay : (w.s.crane k).bay = some g) (m : Nat) :
    (w.reached k g b).s.crane m = if m = k then { w.s.crane k with bay := some b } else w.s.crane m := by
  unfold reached
  by_cases hb : b = g
  · rw [if_pos hb, hb, ← hbay]
    split
    · next hm => rw [hm]
    · rfl
  · rw [if_neg hb, crane_movedTo]

variable (hg : g < w.s.grid.bays) (hb : b < w.s.grid.bays)
include hg hb

theorem seg_reached (i : Nat) : (w.reached k g b).s.seg i = if b = g then w.s.seg i
    else if i ∈ w.s.legsAt k b ∧ (w.s.seg i).hold = .held (.crane k) .travel then
      { w.s.seg i with hold := .held (.crane k) .leg }
    else if i ∈ w.s.legsFrom k g b ∧ i ∉ w.s.legsAt k b ∧ (w.s.seg i).heldBy (.crane k) = true then
      { w.s.seg i with hold := .free }
    else w.s.seg i := by
  unfold reached
  by_cases hsame : b = g
  · rw [if_pos hsame, if_pos hsame]
  · rw [if_neg hsame, if_neg hsame, seg_movedTo hg hb]
    unfold settleLeg releaseLeg
    by_cases hat : i ∈ w.s.legsAt k b
    · simp [hat]
    · simp only [hat, if_false, false_and, not_false_eq_true, true_and, ite_and]
      rfl

theorem reached_effect : Effect [.segs, .cranes] (fun _ => False) [] w (w.reached k g b) := by
  unfold reached
  split
  · exact (Effect.refl w).said (by simp) (fun _ => Iff.rfl) rfl
  · exact movedTo_effect hg hb

theorem reached_reexam : (w.reached k g b).reexam = true ↔ w.reexam = true ∨
    (b ≠ g ∧ ∃ i ∈ w.s.legsFrom k g b, i ∉ w.s.legsAt k b ∧ (w.s.seg i).heldBy (.crane k) = true) := by
  unfold reached
  by_cases hsame : b = g
  · rw [if_pos hsame]
    exact (or_iff_left fun h => h.1 hsame).symm
  · rw [if_neg hsame, movedTo_reexam hg hb]
    exact or_congr_right (and_iff_right hsame).symm

end

/-! ## The first sample (R99, R101) -/

section
variable {w : Work} {k : Nat}

theorem onCrane_congr {f f' : Crane → Crane} (h : f (w.s.crane k) = f' (w.s.crane k)) :
    w.onCrane k f = w.onCrane k f' :=
  congrArg (fun c => { w with s := { w.s with cranes := w.s.cranes.put k c } }) h

/-- The first sample after a crane is placed begins a run, which a filter of more than one does not take. -/
theorem judgeHoist_first (hfault : faultCause (w.s.craneCfg k) (w.s.crane k) true = none)
    (hepisode : (w.s.crane k).episode = false) (hn : 2 ≤ (w.s.craneCfg k).filter)
    (hnew : (w.s.crane k).candidate = none) : w.judgeHoist k true = w.onCrane k (fun c => { c with
      candidate := some (sampleClass (w.s.craneCfg k) (w.s.crane k)), count := 1 }) := by
  have hfeed : (w.s.crane k).feed (w.s.craneCfg k).filter (sampleClass (w.s.craneCfg k) (w.s.crane k)) =
      { w.s.crane k with candidate := some (sampleClass (w.s.craneCfg k) (w.s.crane k)), count := 1 } := by
    have hone : (w.s.craneCfg k).filter ≠ 1 := by omega
    rw [Crane.feed_new (by omega) (by rw [hnew]; exact (Option.some_ne_none _).symm), if_neg hone]
  rw [judgeHoist_plausible hfault, onCrane_congr (f' := fun c => { c with
    candidate := some (sampleClass (w.s.craneCfg k) (w.s.crane k)), count := 1 }) hfeed,
    faultRun_quiet (by rw [crane_onCrane, if_pos rfl, hepisode]), crane_onCrane, if_pos rfl]
  exact if_pos rfl

end

end Work

theorem sampleClass_eq {cfg : CraneConfig} {c : Crane} {cls : HoistClass}
    (hdown : ∀ t, c.trolley = some t → c.height < cfg.clearance → cls = .down t)
    (hup : c.trolley = none ∨ cfg.clearance ≤ c.height → cls = .up) : sampleClass cfg c = cls := by
  cases ht : c.trolley with
  | none => rw [sampleClass_up (.inl ht), hup (.inl ht)]
  | some t =>
    by_cases h : c.height < cfg.clearance
    · rw [sampleClass_down ht h, hdown t ht h]
    · rw [sampleClass_up (.inr (Nat.not_lt.1 h)), hup (.inr (Nat.not_lt.1 h))]

theorem State.foreign_nil {s : State} {k : Nat} {cells : List Nat}
    (h : ∀ i ∈ cells, (s.seg i).hold = .free ∨ ∃ x, (s.seg i).hold = .held (.crane k) x) : s.foreign k cells = [] := by
  refine List.filter_eq_nil_iff.2 fun i hi => ?_
  rw [Bool.not_eq_true', Bool.not_eq_false, Bool.or_eq_true]
  exact (h i hi).imp (SegDyn.isFree_iff _).2 (SegDyn.heldBy_iff _ _).2

/-! ## The report that begins a crane's life in the part (R99) -/

section
variable {u : State} {k b : Nat} {stored : Crane}

theorem firstReport {cls : HoistClass} (hb : b < u.grid.bays) (hoffline : stored.state = .offline)
    (hepisode : stored.episode = false) (hn : 2 ≤ (u.craneCfg k).filter)
    (hlegs : ∀ i ∈ u.legsAt k b, (u.seg i).hold = .free ∨ ∃ x, (u.seg i).hold = .held (.crane k) x)
    (hfault : faultCause (u.craneCfg k) stored true = none) (hcls : sampleClass (u.craneCfg k) stored = cls)
    (stopped : Bool) : ∃ w : Work, ((Work.start u none).onCrane k (fun _ => stored)).craneReport k b stopped = w ∧
      (Work.start u none).Grown w (fun _ => False) ∧ w.reexam = false ∧
      w.s.crane k = { stored with
        state := .standing, bay := some b, timer := some (u.craneCfg k).timeout, filtered := .unknown
        candidate := some cls, count := 1 } ∧
      (∀ m, m ≠ k → w.s.crane m = u.crane m) ∧
      (∀ i, w.s.seg i = if i ∈ u.legsAt k b then { u.seg i with hold := .held (.crane k) .leg } else u.seg i) ∧
      (∀ m, w.s.dlink m =
        (u.dlink m).offers u.now [⟨.craneLinkUp, u.now, .crane k, [.byte b, .byte 1]⟩]) ∧
      w.s = { u with segs := w.s.segs, cranes := w.s.cranes, dispatch := w.s.dispatch } := by
  have hstore := Work.onCrane_effect (Work.start u none) k (fun _ => stored)
  have hrecord := fun m => Work.crane_onCrane (Work.start u none) k m (fun _ => stored)
  have hcalm : ((Work.start u none).onCrane k (fun _ => stored)).reexam = false := rfl
  have hat : ((Work.start u none).onCrane k (fun _ => stored)).s.legsAt k b = u.legsAt k b := rfl
  have hcfg : ((Work.start u none).onCrane k (fun _ => stored)).s.craneCfg k = u.craneCfg k := rfl
  have hbays : b < ((Work.start u none).onCrane k (fun _ => stored)).s.grid.bays := hb
  have hfree : ((Work.start u none).onCrane k (fun _ => stored)).s.foreign k (u.legsAt k b) = [] :=
    State.foreign_nil hlegs
  generalize (Work.start u none).onCrane k (fun _ => stored) = x at hstore hrecord hcalm hat hcfg hbays hfree ⊢
  rw [Work.craneReport_offline hbays (by rw [hrecord, if_pos rfl, hoffline])]
  obtain ⟨hplaced, hothers, hsegs, hplace, hstill⟩ := placeCrane_meets_free (w := x) (k := k) (b := b) (hat ▸ hfree)
  rw [hstore.only.now] at hplace
  rw [hat] at hsegs
  rw [hcfg, hrecord, if_pos rfl] at hplaced
  generalize x.placeCrane k b = y at hplaced hothers hsegs hplace hstill ⊢
  have hsame : y.s.craneCfg k = u.craneCfg k := by
    unfold State.craneCfg
    rw [hplace.only.cfg, hstore.only.cfg]
    rfl
  have hsample : sampleClass (y.s.craneCfg k) (y.s.crane k) = cls := by
    rw [hsame, hplaced]
    exact hcls
  rw [Work.judgeHoist_first (by rw [hsame, hplaced]; exact hfault) (by rw [hplaced]; exact hepisode)
    (hsame ▸ hn) (by rw [hplaced]), hsample]
  have hfed := Work.onCrane_effect y k (fun c => { c with candidate := some cls, count := 1 })
  have hfedcrane := fun m => Work.crane_onCrane y k m (fun c => { c with candidate := some cls, count := 1 })
  have hquiet : (y.onCrane k (fun c => { c with candidate := some cls, count := 1 })).reexam = y.reexam := rfl
  generalize y.onCrane k (fun c => { c with candidate := some cls, count := 1 }) = v at hfed hfedcrane hquiet ⊢
  have hall := ((hstore.first hplace).aside hfed).said (G := [.segs, .cranes, .dispatch]) (m := fun _ => False)
    (by decide) (fun _ => by simp) rfl
  refine ⟨v, rfl, hall.grown, ?_, ?_, fun m hm => ?_, fun i => ?_, hall.posts, hall.only.eq⟩
  · rw [hquiet, hstill, hcalm]
  · rw [hfedcrane, if_pos rfl, hplaced]
  · rw [hfedcrane, if_neg hm, hothers m hm, hrecord, if_neg hm]
    rfl
  · rw [hfed.only.seg (by decide), hsegs, hstore.only.seg (by decide)]
    rfl

end

end Sys2Proof.Machine
end

section
/-! Crane frames (R98 to R100, R108, R110, R111, R173): what they make of the part. -/

namespace Sys2Proof.Machine

/-! ## The report in CONFIG (R98) -/

theorem storedStop_fields {u : State} {k : Nat} {stored : Crane} {q : Nat} (hq : stored.lastSeq = some q) :
    ((u.onCrane k (fun _ => stored)).hoistStop k).crane k = stored ∧
      (∀ m, m ≠ k → ((u.onCrane k (fun _ => stored)).hoistStop k).crane m = u.crane m) ∧
      ((u.onCrane k (fun _ => stored)).hoistStop k).craneLink k =
        ((u.craneLink k).join (.hoistStop (some q))).transmit ∧
      (u.onCrane k (fun _ => stored)).hoistStop k = { u with
        cranes := ((u.onCrane k (fun _ => stored)).hoistStop k).cranes
        craneLinks := ((u.onCrane k (fun _ => stored)).hoistStop k).craneLinks } := by
  have hcrane : ∀ m, ((u.onCrane k (fun _ => stored)).hoistStop k).crane m = if m = k then stored else u.crane m :=
    fun m => State.crane_onCrane (s := u) k m (fun _ => stored)
  refine ⟨by rw [hcrane, if_pos rfl], fun m hm => by rw [hcrane, if_neg hm], ?_, rfl⟩
  have hsend := State.craneLink_onCraneLink (s := u.onCrane k (fun _ => stored)) k k
    (fun l => (l.join (.hoistStop ((u.onCrane k (fun _ => stored)).crane k).lastSeq)).transmit)
  rw [if_pos rfl, State.crane_onCrane, if_pos rfl, hq] at hsend
  refine Eq.trans ?_ hsend
  unfold State.hoistStop State.craneSend
  rw [State.crane_onCrane, if_pos rfl, hq]

/-! ## The lock of a gantry violation (R111) -/

/-- VIOLATION joins the lock of the claimed segment and CLAIM leaves it; the rest stands. -/
theorem violation_endsClaim {s u t : State} {k i : Nat} (hseg : ∀ j, t.seg j =
      if j = i then ((u.seg j).addLock k Reasons.ofViolation).removeLock k Reasons.ofClaim else u.seg j)
    (hlock : ∃ h x, u.seg i = { s.seg i with hold := h, intruder := x }) :
    (t.seg i).reasonsOf k = { (s.seg i).reasonsOf k with violation := true, claim := false } ∧
      (∀ j, j ≠ k → (t.seg i).reasonsOf j = (s.seg i).reasonsOf j) ∧ (t.seg i).hold = (u.seg i).hold ∧
      (t.seg i).intruder = (u.seg i).intruder ∧ (t.seg i).oos = (u.seg i).oos ∧ (∀ j, j ≠ i → t.seg j = u.seg j) := by
  obtain ⟨h, x, hu⟩ := hlock
  have hreasons : ∀ j, (u.seg i).reasonsOf j = (s.seg i).reasonsOf j := fun j => by rw [hu]; rfl
  have hi := hseg i
  rw [if_pos rfl] at hi
  refine ⟨?_, fun j hj => ?_, ?_, ?_, ?_, fun j hj => (hseg j).trans (if_neg hj)⟩
  · rw [hi, SegDyn.reasonsOf_violatedEnded, hreasons]
  · rw [hi, SegDyn.reasonsOf_other k _ hj, hreasons]
  · rw [hi, SegDyn.violatedEnded_eq]
  · rw [hi, SegDyn.violatedEnded_eq]
  · rw [hi, SegDyn.violatedEnded_eq]

theorem DispatchLink.offers_append_pair (now : Time) (es : List Notif) (e f : Notif) (d : DispatchLink) :
    d.offers now (es ++ [e, f]) = (d.offers now (es ++ [e])).offer now f := by
  rw [DispatchLink.offers_append, DispatchLink.offers_append]
  rfl

/-! ## A report that is stored (R98) -/

section
variable {s u : State} {k : Fin 8} {a : CraneReportArgs} {stored : Crane} {v : Work}

theorem craneReport_stored {stopped : Bool} (hu : u = s.craneArrival k) (hpresent : (s.craneCfg k).present = true)
    (hseq : (u.crane k).lastSeq ≠ some a.seq) (hmode : u.mode ≠ .config) (hstored : stored = (u.crane k).stored a)
    (hstopped : stopped = decide (a.flags % 2 = 1)) (hv : v = Work.start (u.onCrane k (fun _ => stored)) none) :
    exec (.craneReport k a) s = .next (v.craneReport k a.bay stopped).finish.pump := by
  subst hv hstored hstopped
  exact craneReport_taken hu hpresent hseq hmode

theorem crane_stored (hv : v = Work.start (u.onCrane k (fun _ => stored)) none) : v.s.crane k = stored := by
  subst hv
  exact (State.crane_onCrane k k _).trans (if_pos rfl)

end

/-- Settles O43. -/
theorem craneFrames : Obligations.CraneFrames := by
  unfold Obligations.CraneFrames
  refine ⟨fun s u k a cfg c hu hcfg hc => ?_, fun s u k a stored stopped v hu hpresent hseq hmode hstored hstopped hv =>
    ⟨fun hb => ?_, fun hb => ?_⟩, fun w v k cells hs hv => ?_, fun w v k b c hc hs hv => ⟨fun h => ?_, fun h => ?_⟩,
    fun w v k g g' b stopped c hc hs hbay hv => ⟨fun h => ?_, fun htravel ht hg hg' hin => ?_, fun h => ?_⟩⟩
  · subst hcfg hc
    refine ⟨craneArrival_fields hu, craneReport_absent hu, fun kind p h => craneUnusableFrame_counted hu h,
      craneReport_repeat hu, fun stored hpresent hseq hstored => ⟨fun hmode => ?_,
        fun legs cls hmode hoffline hepisode hb hfilter hlegs hfree hheight htrolley hsensor hcls => ?_⟩⟩
    · have hstored' : stored = (u.crane k).stored a := hstored
      rw [craneReport_config hu hpresent hseq hmode, ← hstored']
      have hq : stored.lastSeq = some a.seq := by rw [hstored]
      exact ⟨_, rfl, storedStop_fields hq⟩
    · have hstored' : stored = (u.crane k).stored a := hstored
      have hcfg : s.craneCfg k = u.craneCfg k := by rw [hu]; rfl
      rw [craneReport_taken hu hpresent hseq hmode, ← hstored']
      rw [hcfg] at hlegs hfilter hheight htrolley hcls ⊢
      subst hlegs
      have hfault : faultCause (u.craneCfg k) stored true = none := by
        refine faultCause_none.2 ⟨?_, htrolley, ?_, rfl⟩
        · rw [hstored]
          exact hheight
        · rw [hstored]
          simp [hsensor]
      have hsample : sampleClass (u.craneCfg k) stored = cls := by
        have hstands : stored.height = a.height := by rw [hstored]
        refine sampleClass_eq (fun t ht h => ?_) fun h => ?_
        · rw [ht] at hcls
          exact hcls.trans (if_pos (hstands ▸ h))
        · cases ht : stored.trolley with
          | none =>
            rw [ht] at hcls
            exact hcls
          | some t =>
            rw [ht] at hcls h
            have hhigh : (u.craneCfg k).clearance ≤ a.height := hstands ▸ h.resolve_left (Option.some_ne_none t)
            exact hcls.trans (if_neg (Nat.not_lt.2 hhigh))
      obtain ⟨w, hw, hrest⟩ := firstReport (k := k) hb (by rw [hstored]; exact hoffline)
        (by rw [hstored]; exact hepisode) hfilter hfree hfault hsample (decide (a.flags % 2 = 1))
      exact ⟨w, by rw [hw], hrest⟩
  · rw [craneReport_stored hu hpresent hseq hmode hstored hstopped hv]
    have hrecord := crane_stored hv
    have hbays : a.bay < v.s.grid.bays := by rw [hv]; exact hb
    exact ⟨fun h => by rw [Work.craneReport_offline hbays (hrecord ▸ h)],
      fun h => by rw [Work.craneReport_lost hbays (hrecord ▸ h)],
      fun h => by rw [Work.craneReport_placed hbays (hrecord ▸ h)]⟩
  · rw [craneReport_stored hu hpresent hseq hmode hstored hstopped hv]
    have hrecord := crane_stored hv
    have hbays : v.s.grid.bays ≤ a.bay := by rw [hv]; exact hb
    have hstop : v.on (fun t => t.gantryStop k) = v.on (fun t => t.craneSend k (.gantryStop (some a.seq))) := by
      have hsent : v.s.gantryStop k = v.s.craneSend k (.gantryStop (some a.seq)) := by
        unfold State.gantryStop
        rw [hrecord, hstored]
      exact congrArg (fun t => { v with s := t }) hsent
    rw [Work.craneReport_outside hbays, hrecord, hstop]
    exact ⟨fun h => by rw [if_pos h], fun h => by rw [if_neg h]⟩
  · subst hv
    exact ⟨w.haltTake_taken k cells, (w.haltTake_effect k cells).grown, w.haltTake_reexam k cells⟩
  · subst hc hv
    obtain ⟨hcrane, hothers, hsegs, heffect, hreexam⟩ := placeCrane_meets_free h
    exact ⟨hcrane, hothers, hsegs, heffect.posts, heffect.grown, hreexam, heffect.only.eq⟩
  · subst hc hv
    exact placeCrane_meets_halted h
  · subst hc hv
    exact Work.judgeBay_same hbay h
  · subst hc
    rw [Work.judgeBay_travel hbay htravel ht hin, Work.travel_reached hbay] at hv
    have hb : b < w.s.grid.bays := by omega
    have hreached := Work.reached_effect (w := w) (k := k) hg hb
    have hrecord := Work.crane_reached (b := b) hbay
    have hsegs := Work.seg_reached (w := w) (k := k) hg hb
    have hreexam := Work.reached_reexam (w := w) (k := k) hg hb
    generalize w.reached k g b = x at hv hreached hrecord hsegs hreexam
    by_cases hend : b = g' ∧ stopped = true
    · rw [if_pos hend] at hv
      simp only [if_pos hend]
      have harrived := x.arrivedAt_effect k b
      have hthere := x.crane_arrivedAt k b
      have hcalm := x.arrivedAt_calm k b
      rw [hreached.only.now] at harrived
      rw [← hv] at harrived hthere hcalm
      have hall := (hreached.aside harrived).said (G := [.segs, .cranes, .dispatch]) (m := fun _ => False)
        (by decide) (fun _ => by simp) rfl
      refine ⟨?_, fun j hj => ?_, fun i => ?_, hall.posts, ?_, hall.grown, hall.only.eq⟩
      · rw [hthere, if_pos rfl, hrecord, if_pos rfl]
      · rw [hthere, if_neg hj, hrecord, if_neg hj]
      · rw [harrived.only.seg (by decide), hsegs]
      · rw [hcalm, hreexam]
    · rw [if_neg hend] at hv
      subst hv
      simp only [if_neg hend]
      refine ⟨?_, fun j hj => ?_, hsegs, fun m => hreached.posts m, hreexam, hreached.grown,
        (hreached.only.mono (G := [.segs, .cranes, .dispatch]) (by decide)).eq⟩
      · rw [hrecord, if_pos rfl, ← htravel, ← ht]
      · rw [hrecord, if_neg hj]
  · subst hc
    have hat : (w.s.crane k).at = g := by
      unfold Crane.at
      rw [hbay]
      rfl
    rw [Work.judgeBay_violation hbay h, w.gantryViolation_eq k b hat] at hv
    have htaken := w.halting_taken k (w.s.legsFrom k g b)
    have hnow := (w.halting_effect k (w.s.legsFrom k g b)).only.now
    have hmarks := w.seg_halting_only k (w.s.legsFrom k g b)
    have hheld := w.heldBy_halting k (w.s.legsFrom k g b)
    have hcell := fun m => w.claimCell_halting k m (w.s.legsFrom k g b)
    have hcranes := w.crane_halting k (w.s.legsFrom k g b)
    have hstop := w.craneLink_halting k (w.s.legsFrom k g b) k
    have honly := w.ended_only k (w.s.legsFrom k g b)
    have hrecord := w.crane_ended k (w.s.legsFrom k g b)
    have hlinks := fun j (hj : j ≠ k) => w.craneLink_ended k (w.s.legsFrom k g b) (n := j) hj
    have hcalm := w.ended_calm k (w.s.legsFrom k g b)
    have hgrown := Work.haltedAt_grown (w.ended_grown k (w.s.legsFrom k g b)) k b (Work.violationDetail w.s k g b)
    have hnone := w.ended_none k (w.s.legsFrom k g b)
    have hsome := fun m => w.ended_some k (w.s.legsFrom k g b) (m := m)
    generalize w.halting k (w.s.legsFrom k g b) = y at *
    generalize w.ended k (w.s.legsFrom k g b) = z at *
    have hhalted := z.haltedAt_effect k b (Work.violationDetail w.s k g b)
    have hthere := z.crane_haltedAt k b (Work.violationDetail w.s k g b)
    have hquiet := z.haltedAt_calm k b (Work.violationDetail w.s k g b)
    rw [honly.now, hnow] at hhalted
    rw [← hv] at hhalted hthere hquiet hgrown
    rw [if_pos rfl] at hstop
    have hpost : ∀ m, v.s.dlink m = (z.s.dlink m).offer w.s.now
        ⟨.gantryViolation, w.s.now, .crane k, Work.violationDetail w.s k g b⟩ := fun m => by
      rw [hhalted.posts, honly.now, hnow]
      rfl
    have hafter := (honly.trans hhalted.only).mono (G := [.segs, .carriers, .cranes, .craneLinks, .dispatch])
      (by decide)
    refine ⟨_, _, htaken, rfl, ?_, fun j hj => ⟨?_, ?_⟩, fun hclaim => ?_, fun x i hclaim hi => ?_, hgrown, ?_,
      hafter.eq⟩
    · rw [hthere, if_pos rfl, hrecord, if_pos rfl]
    · rw [hthere, if_neg hj, hrecord, if_neg hj]
    · rw [Work.craneLink_of_only hhalted.only (by decide), hlinks j hj]
    · obtain rfl := hnone hclaim
      exact ⟨hhalted.only.segs (by decide), hhalted.only.carriers (by decide),
        (Work.craneLink_of_only hhalted.only (by decide) k).trans hstop, hpost⟩
    · obtain rfl := hsome x hclaim
      rw [← hcell x] at hi
      have hseg := y.seg_lockEnded k x
      have hcarrier := y.carrier?_lockEnded k x
      have hlink := y.craneLink_lockEnded k x k
      have hposts := y.dlink_lockEnded k x
      rw [← hi] at hseg hcarrier hposts
      obtain ⟨hown, hothers, hhold, hmark, hoos, hcells⟩ := violation_endsClaim (t := v.s) (fun j =>
        (hhalted.only.seg (by decide) j).trans (hseg j)) (hmarks i)
      refine ⟨hown, hothers, hhold, hmark, hoos, hcells, fun q => ?_, ?_, fun m => ?_⟩
      · rw [hhalted.only.carrier? (by decide), hcarrier, hheld]
        rfl
      · rw [Work.craneLink_of_only hhalted.only (by decide), hlink, if_pos rfl, hstop, hcranes]
      · rw [hpost, hposts, hnow]
        exact (DispatchLink.offers_append_pair _ _ _ _ _).symm
    · rw [hquiet, hcalm]

end Sys2Proof.Machine
end
